-- ==== Sys2Proof/Word.lean ====
section
/-! DEFINITION. Words and their plainest arithmetic: bit fields, little-endian bytes (R5), signed reading, saturation. -/

namespace Sys2Proof

/-- A byte. -/
abbrev Byte := BitVec 8

/-- A register or doubleword (0.5). -/
abbrev W32 := BitVec 32

/-- A 64-bit value. -/
abbrev W64 := BitVec 64

/-- Bits [hi:lo] of a natural number, [7:0] being the low byte (0.4). -/
def nbits (v hi lo : Nat) : Nat := (v / 2 ^ lo) % 2 ^ (hi + 1 - lo)

/-- Bits [hi:lo] of a word. -/
def fld (w : BitVec n) (hi lo : Nat) : Nat := nbits w.toNat hi lo

/-- A word with bits [hi:lo] replaced by v, taken modulo the field's width. -/
def setFld (w : W32) (hi lo v : Nat) : W32 :=
  BitVec.ofNat 32 (w.toNat - fld w hi lo * 2 ^ lo + (v % 2 ^ (hi + 1 - lo)) * 2 ^ lo)

/-- One bit of a natural number. -/
def nbit (v i : Nat) : Bool := v / 2 ^ i % 2 == 1

/-- 1 for true, 0 for false. -/
def b2n (b : Bool) : Nat := if b then 1 else 0

/-- The n bytes of v, least significant first (R5). -/
def bytesLE : Nat → Nat → List Byte
  | 0, _ => []
  | n + 1, v => BitVec.ofNat 8 v :: bytesLE n (v / 256)

/-- The number a little-endian byte list spells (R5). -/
def ofBytesLE : List Byte → Nat
  | [] => 0
  | b :: bs => b.toNat + 256 * ofBytesLE bs

/-- a / b rounded up. -/
def ceilDiv (a b : Nat) : Nat := (a + b - 1) / b

/-- The signed number held in the low w bits of v. -/
def signedOf (w v : Nat) : Int :=
  let u := v % 2 ^ w
  if u < 2 ^ (w - 1) then (u : Int) else (u : Int) - (2 ^ w : Nat)

/-- The low w bits of an integer, two's complement. -/
def wrapInt (w : Nat) (i : Int) : Nat := (i % ((2 ^ w : Nat) : Int)).toNat

/-- An integer held within [lo, hi]. -/
def clampInt (lo hi i : Int) : Int := if i < lo then lo else if i > hi then hi else i

/-- A count that stops at its largest value. -/
def satAdd (top a b : Nat) : Nat := if a + b ≥ top then top else a + b

/-- The largest value of a 64-bit counter. -/
def top64 : Nat := 0xFFFFFFFFFFFFFFFF

/-- The largest value of a 32-bit count. -/
def top32 : Nat := 0xFFFFFFFF

/-- Difference of two free-running 32-bit counts, modulo 2^32 (3.4). -/
def sub32 (a b : Nat) : Nat := (a + 2 ^ 32 - b % 2 ^ 32) % 2 ^ 32

/-- One bit step of the CRC-8 with polynomial 0x07. -/
def crc8Step (c : Nat) : Nat := if nbit c 7 then Nat.xor (c * 2 % 256) 0x07 else c * 2 % 256

/-- CRC-8 with polynomial 0x07 over bytes, from a running value (Table 17.5; SMBus PEC, R422). -/
def crc8 (init : Byte) (bs : List Byte) : Byte :=
  BitVec.ofNat 8 (bs.foldl (fun c b => (List.range 8).foldl (fun c _ => crc8Step c) (Nat.xor c b.toNat)) init.toNat)

/-- Put an element into a sorted list, after those not greater than it. -/
def sortIn {α : Type} (lt : α → α → Bool) (x : α) : List α → List α
  | [] => [x]
  | y :: ys => if lt x y then x :: y :: ys else y :: sortIn lt x ys

/-- Numbers in ascending order. -/
def sortNat (l : List Nat) : List Nat := l.foldl (fun l x => sortIn (fun a b => decide (a < b)) x l) []

end Sys2Proof
end

