-- ==== Sys2Proof/Syntax.lean ====
section
/-! DEFINITION. The commands of the HK1640, one constructor for each row of the opcode table: those with
operands in the table's order, then those without.

A command carries what comes from outside the device (a written value, a flit, a TLP, a sensor reading, a sink's answer)
and names the unit it concerns; everything else it needs is in the state. -/

namespace Sys2Proof

/-- One target transaction of the two-wire management port (chapter 16). A read takes the command code, a repeated START and
the read address; a write takes the command code and then `wr`. -/
structure MgmtXact where
  /-- the transaction's data phase is a read -/
  read : Bool
  /-- the controller acknowledges the last data byte of a read and so takes the PEC byte too (R427) -/
  pec : Bool
  /-- every byte written after the command code, a PEC byte included -/
  wr : List Byte
  deriving DecidableEq, Repr

/-- How a device read of host memory fails (R73). -/
inductive ReadError where
  /-- unsupported request -/
  | ur
  /-- completer abort -/
  | ca
  /-- poisoned data -/
  | poisoned
  /-- completion timeout -/
  | timeout
  deriving DecidableEq, Repr

/-- A failed read of host memory for the packet of a ring count, and how it failed. -/
structure FailedRead where
  /-- ring count of the packet the read was for -/
  pos : Nat
  /-- how it failed -/
  error : ReadError
  deriving DecidableEq, Repr

/-- An ECC error in one way of a shared-cache set (R188). -/
structure WayError where
  /-- the way -/
  way : Nat
  /-- the error was corrected -/
  corrected : Bool
  deriving DecidableEq, Repr

/-- What met an inline-ECC error of device memory (R193, R528). -/
inductive MemoryError where
  /-- a demand read, or the read before a partial-line write: uncorrectable -/
  | demand
  /-- a prefetch fill: uncorrectable -/
  | prefetch
  /-- any access: corrected -/
  | corrected
  deriving DecidableEq, Repr

/-- The commands. -/
inductive Instr where
  /-- REGISTER_WRITE (R7): A host BAR0 write to a register that has no row of its own acts on each field under its access code (RW-S, RW-B, RW-L, W1C, WO), including the discard of odd-sized writes. -/
  | registerWrite (f off len : Nat) (allBytes : Bool) (data : Nat)
  /-- LATCHING_READ (R589): A read of a latching register, such as the low half of a 64-bit counter, KA_COARSE_LO, DC_FRAME_COUNT_LO or DC_FRAME_STATUS_0, latches its partner registers. -/
  | latchingRead (f off len : Nat)
  /-- ISLAND_START_ON_ENTRY (R21): The control island starts a stopped destination island, and the entry waiting for it is then delivered. -/
  | islandStartOnEntry (island : Nat)
  /-- FABRIC_TIMEOUT (R23): A running destination fails to acknowledge a crossing entry within 1 ms, which raises a device-scope fault. -/
  | fabricTimeout (silent sender : Nat)
  /-- SUPPLIES_VALID (R32): PWR_OK rises with the rails valid; the straps are sampled and start-up begins. -/
  | suppliesValid (podId : Nat) (ecc : Bool) (capGiB : Nat) (perst : Bool)
  /-- FLASH_READ (R56): The device reads SFDP and then the image from SPI flash in quad or single I/O, or finds no image. -/
  | flashRead (sfdp quad : Bool) (image : List Byte)
  /-- IMAGE_CHECK_DONE (R51): The header, version, digest and structure checks of an image finish, and the image is applied or refused. -/
  | imageCheckDone (otpError : Bool)
  /-- NOTICEBOARD_START (R45): Once the image is settled and a sink asserts HPD, the device trains the link and starts the noticeboard. -/
  | noticeboardStart (lanes rate : Nat) (trainOk : Bool)
  /-- PERST_ASSERT (R40): PERST# assertion or a PCIe hot reset restarts the device and discards all work without reports. -/
  | perstAssert (hotReset : Bool)
  /-- CONFIG_SPACE_READY (R34): 40 ms after PERST# release, or after supplies valid when PERST# was released earlier, configuration space becomes ready. -/
  | configSpaceReady (speed width : Nat)
  /-- STAGE_EN (R61): A write of CP_STAGE_CTRL.STAGE_EN opens the staging window, after writing back ways 8 to 15 of slice 0, or closes it. -/
  | stageEn (v : Bool)
  /-- OTP_PROGRAM (R67): A write of CP_OTP_PROG_CTRL.START with the unlock code starts OTP digest programming, or sets PROG_FAIL. -/
  | otpProgram (v : W32)
  /-- OTP_PROGRAM_DONE (R67): OTP programming finishes: the slot and then the lock fuse are blown and PROG_BUSY clears. -/
  | otpProgramDone (ok : Bool)
  /-- BAR2_ACCESS (R76): A PF BAR2 access reaches device memory at the aperture, the staging buffer, or is refused beyond capacity. -/
  | bar2Access (off len : Nat) (write : Option (List (Option Byte)))
  /-- RING_EN (R78): A write of RING_EN = 1 checks the ring objects and enables the ring, and a write of 0 disables it under R99. -/
  | ringEn (f : Nat) (v : Bool)
  /-- STOP (R84): A write of STOP stops or resumes packet fetching from the ring. -/
  | stop (f : Nat) (v : Bool)
  /-- STOPPED_REACHED (R84): After STOP, the fetched work completes and STOPPED becomes 1. -/
  | stoppedReached (f : Nat)
  /-- RING_RESET (R97): A write of RING_RESET resets the ring counts and clears HALTED, STOP and RING_EN, or waits for a discard. -/
  | ringReset (f : Nat)
  /-- DOORBELL (R80): A write to HI_DOORBELL is accepted as the new tail, or is ignored with DOORBELL_ERR. -/
  | doorbell (f : Nat) (t : W32)
  /-- PACKET_FETCH (R82): The command processor fetches a packet group once its header and all extensions lie below the tail. -/
  | packetFetch (f : Nat)
  /-- PACKET_DISPATCH (R108): A packet held at dispatch by a barrier, a wait, a pending load or a full queue is dispatched once the hold clears. -/
  | packetDispatch (f pos : Nat)
  /-- HI_REPLY_HEAD (R87): A write of HI_REPLY_HEAD frees reply-ring space, and held reports can then be written. -/
  | hiReplyHead (f : Nat) (h : W32)
  /-- COMPLETION_REPORT (R92): For a completed packet the reply entry, the fence and the MSI-X messages are written in order, unless held under R86 or R93. -/
  | completionReport (f pos : Nat)
  /-- MSIX_UNMASK (R95): Unmasking an MSI-X vector with its PBA bit set sends the pending message. -/
  | msixUnmask (f vec : Nat)
  /-- FUNCTION_LEVEL_RESET (R100): A function-level reset ends the function's work without reports and resets its window within 10 ms. -/
  | functionLevelReset (f : Nat)
  /-- HOST_READ_ERROR (R73): A device read of host memory receives UR, CA, poisoned data or a completion timeout, which is a function-scope fault. -/
  | hostReadError (f : Nat) (read : FailedRead)
  /-- BARRIER (R114): BARRIER completes when every earlier packet of the ring or tag is complete, and holds later dispatch. -/
  | pktBarrier (f pos : Nat)
  /-- SIGNAL_FENCE (R115): SIGNAL_FENCE writes its own fence, and a remote fence on a peer through FENCE_WR. -/
  | pktSignalFence (f pos : Nat)
  /-- WAIT_FENCE (R116): WAIT_FENCE holds dispatch until a local or remote slot reaches a value. -/
  | pktWaitFence (f pos : Nat)
  /-- WAIT_FENCE_TIMEOUT (R118): The TIMEOUT of a WAIT_FENCE elapses, which gives a function-scope fault with BUDGET_EXCEEDED. -/
  | pktWaitFenceTimeout (f pos : Nat)
  /-- LOAD_PROGRAM (R127): LOAD_PROGRAM checks an image, admits it against quotas and reserves its scratch and pencil blocks. -/
  | pktLoadProgram (f pos : Nat)
  /-- UNLOAD_PROGRAM (R119): UNLOAD_PROGRAM removes a program after earlier packets that name it complete, and returns its resources. -/
  | pktUnloadProgram (f pos : Nat)
  /-- RUN_JOB (R130): RUN_JOB enters a job into Timetable after the job checks and the entry tests. -/
  | pktRunJob (f pos : Nat)
  /-- RUN_BATCH (R130): RUN_BATCH enters a fixed batch of elements as one job. -/
  | pktRunBatch (f pos : Nat)
  /-- STEP_JOIN (R120): STEP_JOIN submits one step of a sequence and joins it to the running batch. -/
  | pktStepJoin (f pos : Nat)
  /-- STEP_LEAVE (R151): STEP_LEAVE frees a sequence slot after its earlier steps. -/
  | pktStepLeave (f pos : Nat)
  /-- RESOLVE_PENCIL (R121): RESOLVE_PENCIL resolves a host-resolved predicate of a job at dispatch. -/
  | pktResolvePencil (f pos : Nat)
  /-- COPY (R211): COPY moves a 2-D copy tile between local, host or pod-window addresses. -/
  | pktCopy (f pos : Nat)
  /-- COPY_COMPRESS (R217): COPY_COMPRESS compresses a source in a trial pass and an emit pass. -/
  | pktCopyCompress (f pos : Nat)
  /-- COPY_DECOMPRESS (R220): COPY_DECOMPRESS decodes a DEFLATE, zlib or LZ4 stream into the destination. -/
  | pktCopyDecompress (f pos : Nat)
  /-- REGION_UPDATE (R225): REGION_UPDATE enters its region's pending slot and supersedes any update already waiting there. -/
  | pktRegionUpdate (f pos : Nat)
  /-- FILL (R212): FILL writes a 1, 2 or 4-byte pattern to every row of a copy tile. -/
  | pktFill (f pos : Nat)
  /-- DRAW_LIST (R322): DRAW_LIST queues an overlay draw list for the tile renderer. -/
  | pktDrawList (f pos : Nat)
  /-- LAYER_FLIP (R360): LAYER_FLIP places a buffer in a layer's pending slot, or is ended at once. -/
  | pktLayerFlip (f pos : Nat)
  /-- DISPLAY_CONFIG (R373): DISPLAY_CONFIG selects the display source and the timing, link and write-back configuration. -/
  | pktDisplayConfig (f pos : Nat)
  /-- LINK_SEND (R124): LINK_SEND sends a 20-byte message to a function's reply ring on a pod peer. -/
  | pktLinkSend (f pos : Nat)
  /-- CONFIG_APPLY (R62): CONFIG_APPLY checks and applies the staged configuration image. -/
  | pktConfigApply (f pos : Nat)
  /-- POWER_REQUEST (R125): POWER_REQUEST starts a roll call for Sleep or Deep Sleep, or completes at once for Run or Idle. -/
  | pktPowerRequest (f pos : Nat)
  /-- QUOTA_SET (R126): QUOTA_SET sets a function's quotas, share, class limits and budget cap. -/
  | pktQuotaSet (f pos : Nat)
  /-- JOB_START (R165): A selected job passes its pinned check at start and its first cluster runs, or it is refused. -/
  | jobStart (f pos : Nat)
  /-- CLUSTER_START (R507): A stopped cluster finishes starting within 15 µs plus any rail rise. -/
  | clusterStart (n : Nat)
  /-- CLUSTER_STOP (R506): A cluster that has been free for PM_CLUSTER_STOP_DELAY is power-gated. -/
  | clusterStop (n : Nat)
  /-- JOB_END (R142): A job ends: its deficit and estimate are updated, its clusters are freed and its report is produced. -/
  | jobEnd (f pos : Nat)
  /-- BUDGET_EXPIRY (R147): A running job's budget expires, ending it with BUDGET_EXCEEDED or PENCIL_UNRESOLVED. -/
  | budgetExpiry (f pos : Nat)
  /-- ATS_INVALIDATE_REQUEST (R173): An ATS Invalidate Request drops ATC entries, or is held while running jobs use the page. -/
  | atsInvalidateRequest (f addr log2 tag : Nat)
  /-- ATS_INVALIDATE_COMPLETION (R173): The device sends the Invalidate Completion once the held jobs have ended. -/
  | atsInvalidateCompletion (tag : Nat)
  /-- ATS_TRANSLATION_COMPLETION (R162): A Translation Completion arrives and serves, holds or faults the waiting access. -/
  | atsTranslationCompletion (f addr : Nat) (ok : Bool) (log2 target : Nat) (r w : Bool)
  /-- PRG_RESPONSE (R178): A PRG Response resumes or ends the held copy tile, or is ignored when late. -/
  | prgResponse (index code : Nat)
  /-- PRI_TIMEOUT (R178): MT_PRI_TIMEOUT expires for a group, which ends its copy tile with PAGE_FAULT_UNRESOLVED. -/
  | priTimeout (index : Nat)
  /-- SC_CARVE (R201): A write of SC_CARVE while the carve-out is not busy starts a scratch carve-out transition. -/
  | scCarve (v : W32)
  /-- CACHE_ECC_ERROR (R188): An uncorrectable shared-cache error refetches a clean line, or raises a device-scope fault; a corrected one
  is counted. -/
  | cacheEccError (slice set : Nat) (way : WayError)
  /-- MEMORY_ECC_ERROR (R528): An uncorrectable inline-ECC error on a demand read raises cause 2; on a prefetch fill it discards
  the fill; a corrected one is counted. -/
  | memoryEccError (addr : Nat) (error : MemoryError)
  /-- TRANSFER_END (R180): A copy-engine transfer completes or ends with its own status, and the engine takes its next transfer. -/
  | transferEnd (engine : Nat)
  /-- COMPRESS_TRIAL_END (R217): The trial pass of a compression ends with CODEC_NO_GAIN, CODEC_OUTPUT_FULL or the emit pass. -/
  | compressTrialEnd (engine : Nat)
  /-- CONV (R261): A CONV operator computes a grouped convolution on the tensor array. -/
  | opConv (f pos stage : Nat)
  /-- MATMUL (R261): A MATMUL operator computes a batched matrix product. -/
  | opMatmul (f pos stage : Nat)
  /-- ATTENTION (R263): An ATTENTION operator computes scaled, masked softmax attention. -/
  | opAttention (f pos stage : Nat)
  /-- POOL (R265): A POOL operator computes max or average pooling on the vector unit. -/
  | opPool (f pos stage : Nat)
  /-- ELTWISE (R265): An ELTWISE operator computes an element-wise unary or binary operation. -/
  | opEltwise (f pos stage : Nat)
  /-- REDUCE (R265): A REDUCE operator reduces the selected axes by sum, mean, max, min or argmax. -/
  | opReduce (f pos stage : Nat)
  /-- RESIZE (R265): A RESIZE operator resamples with nearest or bilinear filtering. -/
  | opResize (f pos stage : Nat)
  /-- CROP_GATHER (R266): A CROP_GATHER operator averages bilinear samples inside each box. -/
  | opCropGather (f pos stage : Nat)
  /-- NMS (R267): An NMS operator performs non-maximum suppression and writes the kept boxes and their count. -/
  | opNms (f pos stage : Nat)
  /-- SHADER (R298): A SHADER operator launches its groups of waves on the shader cores. -/
  | opShader (f pos stage : Nat)
  /-- STAGE_END (R278): A firm stage ends and, where declared, resolves its predicate from RESOLVE_REF. -/
  | stageEnd (f pos stage : Nat)
  /-- EARLY_START (R279): A provisional stage starts early in pencil once its conditions and its pencil claim are met. -/
  | earlyStart (f pos stage : Nat)
  /-- EARLY_WORK_END (R281): Early work finishes its last operator and releases its clusters. -/
  | earlyWorkEnd (f pos stage : Nat)
  /-- INK_END (R290): Inking of a stage-element finishes writing its pencilled bytes to their destinations. -/
  | inkEnd (f pos stage : Nat)
  /-- IADD (R303): Shader integer add. -/
  | shIadd (k w : Nat)
  /-- ISUB (R303): Shader integer subtract. -/
  | shIsub (k w : Nat)
  /-- IMUL (R303): Shader integer multiply, low 32 bits. -/
  | shImul (k w : Nat)
  /-- IMULHI (R303): Shader signed multiply, high 32 bits. -/
  | shImulhi (k w : Nat)
  /-- UMULHI (R303): Shader unsigned multiply, high 32 bits. -/
  | shUmulhi (k w : Nat)
  /-- IMAD (R303): Shader integer multiply-add. -/
  | shImad (k w : Nat)
  /-- IMIN (R303): Shader signed minimum. -/
  | shImin (k w : Nat)
  /-- IMAX (R303): Shader signed maximum. -/
  | shImax (k w : Nat)
  /-- UMIN (R303): Shader unsigned minimum. -/
  | shUmin (k w : Nat)
  /-- UMAX (R303): Shader unsigned maximum. -/
  | shUmax (k w : Nat)
  /-- AND (R303): Shader bitwise AND. -/
  | shAnd (k w : Nat)
  /-- OR (R303): Shader bitwise OR. -/
  | shOr (k w : Nat)
  /-- XOR (R303): Shader bitwise XOR. -/
  | shXor (k w : Nat)
  /-- SHL (R303): Shader shift left. -/
  | shShl (k w : Nat)
  /-- SHR (R303): Shader logical shift right. -/
  | shShr (k w : Nat)
  /-- SAR (R303): Shader arithmetic shift right. -/
  | shSar (k w : Nat)
  /-- POPC (R303): Shader population count. -/
  | shPopc (k w : Nat)
  /-- CLZ (R303): Shader count of leading zeros. -/
  | shClz (k w : Nat)
  /-- FADD (R304): Shader FP32 add. -/
  | shFadd (k w : Nat)
  /-- FSUB (R304): Shader FP32 subtract. -/
  | shFsub (k w : Nat)
  /-- FMUL (R304): Shader FP32 multiply. -/
  | shFmul (k w : Nat)
  /-- FFMA (R304): Shader FP32 fused multiply-add. -/
  | shFfma (k w : Nat)
  /-- FMIN (R304): Shader FP32 minimum. -/
  | shFmin (k w : Nat)
  /-- FMAX (R304): Shader FP32 maximum. -/
  | shFmax (k w : Nat)
  /-- FABS (R304): Shader FP32 absolute value. -/
  | shFabs (k w : Nat)
  /-- FNEG (R304): Shader FP32 negate. -/
  | shFneg (k w : Nat)
  /-- FDIV (R304): Shader FP32 correctly rounded divide. -/
  | shFdiv (k w : Nat)
  /-- FSQRT (R304): Shader FP32 correctly rounded square root. -/
  | shFsqrt (k w : Nat)
  /-- FRCP (R305): Shader FP32 reciprocal. -/
  | shFrcp (k w : Nat)
  /-- FRSQ (R305): Shader FP32 reciprocal square root. -/
  | shFrsq (k w : Nat)
  /-- FEXP2 (R305): Shader FP32 base-2 exponential. -/
  | shFexp2 (k w : Nat)
  /-- FLOG2 (R305): Shader FP32 base-2 logarithm. -/
  | shFlog2 (k w : Nat)
  /-- FSIN (R305): Shader FP32 sine. -/
  | shFsin (k w : Nat)
  /-- FCOS (R305): Shader FP32 cosine. -/
  | shFcos (k w : Nat)
  /-- ICMP (R303): Shader signed compare into a predicate. -/
  | shIcmp (k w : Nat)
  /-- UCMP (R303): Shader unsigned compare into a predicate. -/
  | shUcmp (k w : Nat)
  /-- FCMP (R303): Shader float compare into a predicate. -/
  | shFcmp (k w : Nat)
  /-- PCOMB (R303): Shader predicate combine. -/
  | shPcomb (k w : Nat)
  /-- SEL (R303): Shader select by predicate. -/
  | shSel (k w : Nat)
  /-- CVT (R306): Shader format conversion with the chosen rounding. -/
  | shCvt (k w : Nat)
  /-- MOV (R303): Shader register or immediate move. -/
  | shMov (k w : Nat)
  /-- RDSP (R307): Shader read of a special value. -/
  | shRdsp (k w : Nat)
  /-- SHFL (R303): Shader read of a register from another lane. -/
  | shShfl (k w : Nat)
  /-- VOTE (R302): Shader uniform vote of a predicate over the active lanes. -/
  | shVote (k w : Nat)
  /-- LD (R312): Shader load from REF, LOCAL, SCRATCH or STATE. -/
  | shLd (k w : Nat)
  /-- ST (R308): Shader store; where lanes collide, the highest-numbered lane wins. -/
  | shSt (k w : Nat)
  /-- ATOM (R308): Shader 32-bit atomic operation, applied in lane order. -/
  | shAtom (k w : Nat)
  /-- SHADER_NOP (R303): Shader no-operation. -/
  | shNop (k w : Nat)
  /-- BRA (R310): Shader uniform branch, which traps when divergent. -/
  | shBra (k w : Nat)
  /-- IF (R309): Shader structured IF: pushes the mask stack and narrows the active mask. -/
  | shIf (k w : Nat)
  /-- ELSE (R309): Shader structured ELSE. -/
  | shElse (k w : Nat)
  /-- ENDIF (R309): Shader structured ENDIF. -/
  | shEndif (k w : Nat)
  /-- LOOP (R309): Shader structured LOOP. -/
  | shLoop (k w : Nat)
  /-- BRK (R309): Shader structured loop break. -/
  | shBrk (k w : Nat)
  /-- CONT (R309): Shader structured loop continue. -/
  | shCont (k w : Nat)
  /-- ENDLOOP (R309): Shader structured ENDLOOP. -/
  | shEndloop (k w : Nat)
  /-- CALL (R310): Shader call: pushes the call stack. -/
  | shCall (k w : Nat)
  /-- RET (R310): Shader return: pops the call stack. -/
  | shRet (k w : Nat)
  /-- BAR (R314): Shader group barrier. -/
  | shBar (k w : Nat)
  /-- SHADER_END (R303): Shader END: the wave ends. -/
  | shEnd (k w : Nat)
  /-- TRAP (R318): Shader TRAP instruction traps with a code. -/
  | shTrap (k w : Nat)
  /-- TMSG (R315): Shader sends a tensor message to the tensor array. -/
  | shTmsg (k w : Nat)
  /-- TENSOR_MESSAGE_DONE (R315): The tensor array finishes a tensor message and writes OUT. -/
  | tensorMessageDone (n : Nat)
  /-- TWAIT (R317): Shader waits until at most a given number of its messages remain outstanding. -/
  | shTwait (k w : Nat)
  /-- FRAME_END (R371): After the last active line the write-back record is written and the flips completed by the frame report. -/
  | frameEnd (underruns : List (Nat × Nat))
  /-- HPD_IRQ (R368): An HPD pulse of 0.5 to 1 ms makes the device check the link status and retrain if needed. -/
  | hpdIrq (linkOk : Bool)
  /-- HPD_PLUG (R368): HPD rises, and the device retrains at the configured lanes and rate. -/
  | hpdPlug (lanes rate : Nat)
  /-- DP_TRAINING_DONE (R373): DisplayPort link training ends in success or TRAIN_FAIL. -/
  | dpTrainingDone (ok : Bool)
  /-- AUX_START (R369): A write of DC_AUX_CTRL.START begins a host AUX transaction. -/
  | auxStart (v : W32)
  /-- AUX_DONE (R369): The sink replies ACK, NACK or DEFER, or 400 µs pass with TIMEOUT. -/
  | auxDone (reply : Nat) (data : List Byte)
  /-- RETRAIN (R381): A write of BL_LINK_n_CTRL.RETRAIN starts a full training of the port. -/
  | retrain (p : Nat)
  /-- BL_LINK_EN (R390): A write of EN takes the port down and DISABLED, or re-enables it. -/
  | blLinkEn (p : Nat) (v : Bool)
  /-- EQUALISE (R378): 1 ms after the first lane locks, the port sends PRBS31 to equalise. -/
  | equalise (p : Nat)
  /-- CONFIG (R378): After equalisation, the port exchanges TSB to agree on a width. -/
  | config (p : Nat)
  /-- CONFIG_DONE (R379): CONFIG completes and the port enters ACTIVE, STANDBY or CONFLICT. -/
  | configDone (p : Nat) (tsb : List Byte)
  /-- TRAINING_TIMEOUT (R378): DETECT or CONFIG fails to finish in 4 ms, and the port goes DOWN. -/
  | trainingTimeout (p : Nat)
  /-- AUTO_RETRY (R421): 100 ms after DOWN, a port with AUTO_RETRY starts full training. -/
  | autoRetry (p : Nat)
  /-- PAYLOAD_FLIT (R386): A received flit is accepted or discarded, a NAK is sent if needed, and acks and credits are taken. -/
  | payloadFlit (p : Nat) (flit : List Byte)
  /-- NAK (R388): A received NAK flit starts a replay and counts it toward the thresholds. -/
  | nak (p : Nat) (flit : List Byte)
  /-- REPLAY_TIMEOUT (R388): 10 µs pass with unacknowledged flits, which starts a replay. -/
  | replayTimeout (p : Nat)
  /-- REPLAY_WINDOW (R388): A new 1 ms replay window starts and the replay count returns to 0. -/
  | replayWindow (p : Nat)
  /-- LINK_SILENCE_TIMEOUT (R390): No good flit arrives for 100 µs in ACTIVE, and the port goes down. -/
  | linkSilenceTimeout (p : Nat)
  /-- RD_REQ (R400): A received remote read request is performed at the shared cache, relayed or refused. -/
  | msgRdReq (p : Nat)
  /-- WR_REQ (R400): A received remote write request is performed and acknowledged. -/
  | msgWrReq (p : Nat)
  /-- AT_REQ (R400): A received remote atomic request is performed indivisibly. -/
  | msgAtReq (p : Nat)
  /-- RD_RSP (R401): A remote read response completes a waiting access. -/
  | msgRdRsp (p : Nat)
  /-- WR_ACK (R401): A remote write acknowledgement completes a write. -/
  | msgWrAck (p : Nat)
  /-- AT_RSP (R401): A remote atomic response returns the prior value. -/
  | msgAtRsp (p : Nat)
  /-- FENCE_WR (R404): A received remote fence write writes the slot or is refused. -/
  | msgFenceWr (p : Nat)
  /-- FENCE_WATCH (R407): A received fence watch is notified at once or registered. -/
  | msgFenceWatch (p : Nat)
  /-- FENCE_UNWATCH (R407): A received unwatch drops a registered watch. -/
  | msgFenceUnwatch (p : Nat)
  /-- FENCE_WATCH_RETRY (R407): 10 µs after a refused watch, the waiting device sends FENCE_WATCH again. -/
  | fenceWatchRetry (f pos : Nat)
  /-- MSG (R408): A received link message is written to the destination reply ring or refused. -/
  | msgMsg (p : Nat)
  /-- FENCE_ACK (R404): A fence acknowledgement completes a remote SIGNAL_FENCE. -/
  | msgFenceAck (p : Nat)
  /-- FENCE_NOTIFY (R407): A fence notification ends a remote WAIT_FENCE. -/
  | msgFenceNotify (p : Nat)
  /-- MSG_ACK (R408): A message acknowledgement completes a LINK_SEND. -/
  | msgMsgAck (p : Nat)
  /-- STREAM_ACK (R415): A stream acknowledgement releases held relayed messages. -/
  | msgStreamAck (p : Nat)
  /-- ROUTE_STATE (R411): A received ROUTE_STATE updates pod membership, routes and incarnations. -/
  | msgRouteState (p : Nat)
  /-- ASK (R514): A roll-call ASK reaches the coordinator and queues a round. -/
  | rcAsk (p : Nat)
  /-- PROPOSE (R515): A member answers a PROPOSE with ACCEPT or DECLINE within 2 µs. -/
  | rcPropose (p : Nat)
  /-- ACCEPT (R516): The coordinator records an ACCEPT and commits when all have accepted. -/
  | rcAccept (p : Nat)
  /-- DECLINE (R516): A DECLINE makes the coordinator abort the round. -/
  | rcDecline (p : Nat)
  /-- WITHDRAW (R520): A WITHDRAW aborts the round, or is discarded after a commit. -/
  | rcWithdraw (p : Nat)
  /-- VERDICT (R522): A VERDICT commits Sleep entry or aborts the round and completes POWER_REQUESTs. -/
  | rcVerdict (p : Nat)
  /-- WAKE (R521): A WAKE message is a wake source for the member that receives it. -/
  | rcWake (p : Nat)
  /-- WAKE_SOURCE (R510): A wake source appears in Sleep or Deep Sleep and starts exit, or is latched during entry. -/
  | wakeSource (src : Nat)
  /-- EXIT_DONE (R522): The exit sequence completes, the fine tick is aligned and the device returns to Run. -/
  | exitDone (stillLost : Nat) (tHot16 : Int) (sensor : Nat)
  /-- LINK_ACTIVITY (R511): A parked port detects the far end resuming transmission, which is a wake source. -/
  | linkActivity (p : Nat)
  /-- QUICK_COMMAND (R430): A Quick Command to the device is acknowledged with no effect. -/
  | mgmtQuickCommand (t : MgmtXact)
  /-- SEND_BYTE (R430): A Send Byte to the device is acknowledged with no effect. -/
  | mgmtSendByte (t : MgmtXact)
  /-- RECEIVE_BYTE (R430): A Receive Byte returns byte 0 of STATE. -/
  | mgmtReceiveByte (t : MgmtXact)
  /-- LAST_REPORTED (R430): A management read of the value of the last ATTENTION read. -/
  | mgmtLastReported (t : MgmtXact) (attention : Bool)
  /-- ATTENTION_EN (R430): A management read or write of MB_ATTENTION_EN. -/
  | mgmtAttentionEn (t : MgmtXact)
  /-- IDENTITY (R430): A management read of device identity, pod ID, incarnation and epoch. -/
  | mgmtIdentity (t : MgmtXact)
  /-- STATE (R430): A management read of the power state, DONE and the halt summary. -/
  | mgmtState (t : MgmtXact)
  /-- THERMAL (R430): A management read of the temperatures. -/
  | mgmtThermal (t : MgmtXact)
  /-- RAIL (R500): A management read of the rail voltage, current, phases and power. -/
  | mgmtRail (t : MgmtXact)
  /-- LINKS (R430): A management read of the Berar port states. -/
  | mgmtLinks (t : MgmtXact)
  /-- TIME (R430): A management read of the coarse counter and epoch. -/
  | mgmtTime (t : MgmtXact)
  /-- KEEPALIVE (R430): A management read of the Caretaker source, cells and harvester state. -/
  | mgmtKeepalive (t : MgmtXact)
  /-- LOG_COUNT (R430): A management read of the number of Logbook records held. -/
  | mgmtLogCount (t : MgmtXact)
  /-- LOG_SELECT (R430): A management read or write of the Logbook record index. -/
  | mgmtLogSelect (t : MgmtXact)
  /-- LOG_READ (R430): A management read of the selected Logbook record, advancing the index. -/
  | mgmtLogRead (t : MgmtXact)
  /-- LOG_NOTE (R430): A management write of an 8-byte note into the Logbook. -/
  | mgmtLogNote (t : MgmtXact)
  /-- REG_ADDR (R432): A management read or write of the BAR0 offset for REG_DATA. -/
  | mgmtRegAddr (t : MgmtXact)
  /-- REG_DATA (R432): A management read or write of the register at REG_ADDR, advancing it by 4. -/
  | mgmtRegData (t : MgmtXact)
  /-- CONTROLLER_START (R433): A write of MB_CTL_CTRL.START checks a controller transaction and begins it when the bus is free. -/
  | controllerStart (v : W32)
  /-- ARBITRATION_LOSS (R435): The controller loses arbitration and stops driving the bus. -/
  | arbitrationLoss (kind : Nat)
  /-- CONTROLLER_DONE (R440): A controller transaction ends and STATUS, TRIES, RD_LEN and DONE_EVT are written. -/
  | controllerDone (status : Nat) (rd : List Byte) (pecBad : Bool)
  /-- SET_HOST_ATTENTION (R430): A write of MB_HOST_ATTN.SET sets attention source 8. -/
  | setHostAttention (v : W32)
  /-- ADDRESS_MATCH (R442): In Sleep the matcher matches the target address, stretches or refuses, and starts a wake. -/
  | addressMatch (read : Bool)
  /-- SOURCE_CHANGE (R452): Caretaker switches VKA to another source, such as VDD_AUX after 10 ms in its window. -/
  | sourceChange (src cellMv primMv : Nat)
  /-- COLD_START (R456): VKA rises to 2.2 V after a collapse; Caretaker resets, increments the epoch and writes COLD_START. -/
  | coldStart (src vkaMv : Nat)
  /-- SAMPLE_PERIOD (R459): Every 16 s the harvester opens its input for 200 ms, samples Voc and sets its target. -/
  | samplePeriod (vocMv : Nat) (t16 : Int) (ntcAbsent : Bool)
  /-- CELL_MEASURE (R463): Every 1 s Caretaker measures the cell, driving LOAD_EN and the voltage protections. -/
  | cellMeasure (cellMv primMv : Nat)
  /-- CELL_PROTECT (R464): A storage-cell protection acts or clears. -/
  | cellProtect (kind : Nat) (acts : Bool) (cellMv : Nat)
  /-- CASE_SAMPLE (R468): Every 128 coarse ticks the case inputs are sampled and a debounced change is recorded. -/
  | caseSample (in0 in1 : Bool)
  /-- PHASE_OPEN (R487): A phase shows no current rise for 8 pulses; clusters are clamped and the phase is dropped. -/
  | phaseOpen (phase : Nat)
  /-- SENSE_FAIL (R488): A phase's current sense is implausible for 64 µs and is declared failed. -/
  | senseFail (phase iN iExp : Nat)
  /-- PHASE_RETRY (R492): A write of VR_PHASE_RETRY retests lost phases. -/
  | phaseRetry (v : W32) (pass : Nat)
  /-- TMON_WARN (R494): TMON crosses TMON_WARN, or back below it, for 100 µs, which limits or frees C_L. -/
  | tmonWarn (above : Bool)
  /-- DROOP (R495): An island's local voltage droops, and its clock period doubles until recovery. -/
  | droop (island : Nat)
  /-- DROOP_FAULT (R495): A droop trip persists for 10 µs, which is a device-scope fault. -/
  | droopFault (island : Nat)
  /-- CONTROL_STEP (R496): Every 100 µs the thermal and power loops update C_T and C_P. -/
  | controlStep (tCl tFab tCtl : Int) (clIdx : Nat)
  /-- THERMAL_TRIP (R498): T_hot reads TRIP_C at two samples; clusters clamp, a fault is raised and the device sleeps. -/
  | thermalTrip (sensor : Nat) (t16 : Int)
  /-- TELEMETRY_UPDATE (R499): Every 10 µs the rail telemetry registers are updated. -/
  | telemetryUpdate (mv : Nat) (isen : List Nat) (tmon16 : Int)
  /-- DISCARD_DONE (R532): The last report of a discard is written; the busy bit clears and DISCARD_DONE is logged. -/
  | discardDone (f : Nat)
  /-- TRACE_ENABLE (R547): A write of FL_TRACE_CTRL.EN checks the trace ring and enables tracing. -/
  | traceEnable (v : W32)
  /-- SAMPLE_PRELOAD (R571): JTAG SAMPLE/PRELOAD instruction. -/
  | jtagSamplePreload (pins : Nat)
  /-- EXTEST (R572): JTAG EXTEST, refused while PERST# is high, which restarts the device on leaving. -/
  | jtagExtest (leave : Bool)
  /-- NOP (R111): The NOP packet completes at dispatch and writes its reports. -/
  | pktNop (f pos : Nat)
  /-- CONFIGURATION_WRITE (R70): A PCIe configuration write changes VF Enable, MSI-X Enable, ATS Enable or PRI Enable, so VFs appear or vanish and messages and translations change. -/
  | configurationWrite (f field value : Nat)
  /-- LANE_LOCK (R378): A receive lane locks after 8 error-free TSA; the port takes its polarity and logical number, and the first lock sets the lane order and starts the EQUALISE timer. -/
  | laneLock (p lane tag : Nat) (inverted : Bool)
  /-- TRANSLATION_REQUEST_TIMEOUT (R168): An ATS Translation Request receives no completion within the completion timeout, which is a function-scope fault or a copy tile ending with TRANSLATION_TIMEOUT. -/
  | translationRequestTimeout (f addr : Nat)
  /-- DROOP_RECOVERY (R495): An island's local voltage rises back to within DROOP_MV − 10 mV of the target, and its clock returns to its normal period. -/
  | droopRecovery (island : Nat)
  /-- ISLAND_RESTART (R537): After a fabric timeout, the restart of the silent island ends, and the discard proceeds. -/
  | islandRestart
  /-- WEDGED (R537): If the restarted island still does not acknowledge after 1 ms, the device sets WEDGED and stops writing memory. -/
  | wedged
  /-- SUPPLIES_LOST (R565): PWR_OK stays low for 2 µs or more, or VDD_AUX falls below 2.9 V; the device stops everything except Caretaker within 20 µs. -/
  | suppliesLost
  /-- SOFT_START_DONE (R479): The VDD_CORE ramp to 0.75 V settles and the controller enters REGULATE with its detectors armed. -/
  | softStartDone
  /-- WRITE (R49): An image WRITE record writes a value to a register. -/
  | imgWrite
  /-- WRITE_MASKED (R49): An image WRITE_MASKED record updates the masked bits of a register. -/
  | imgWriteMasked
  /-- WRITE_SEQ (R49): An image WRITE_SEQ record writes a run of consecutive registers in order. -/
  | imgWriteSeq
  /-- NOTICEBOARD_ITEM (R49): An image NOTICEBOARD_ITEM record moves or hides noticeboard items. -/
  | imgNoticeboardItem
  /-- NOTICEBOARD_TEXT (R50): An image NOTICEBOARD_TEXT record places fixed text over the items. -/
  | imgNoticeboardText
  /-- IMAGE_END (R52): The image END record marks the end of the image. -/
  | imgEnd
  /-- MEMORY_TRAINED (R35): Memory training completes and, once the image is settled, CP_BOOT_STATUS.DONE is set and waiting rings are fetched. -/
  | memoryTrained
  /-- NOTICEBOARD_REFRESH (R46): Every 32,768 coarse ticks the noticeboard items are refreshed. -/
  | noticeboardRefresh
  /-- PF_FUNCTION_LEVEL_RESET (R101): A PF function-level reset also clears VF Enable and ends the work of every VF. -/
  | pfFunctionLevelReset
  /-- AGEING_STEP (R144): Every 10 µs queued jobs that have waited long enough are promoted. -/
  | ageingStep
  /-- INVALIDATE (R171): A write of MT_INVAL_CTRL.START drops matching translations and sets BUSY. -/
  | invalidate
  /-- INVALIDATION_COMPLETE (R171): The invalidation's accesses and the jobs that use the range end, and BUSY clears. -/
  | invalidationComplete
  /-- CARVE_TRANSITION_DONE (R202): The carve-out write-back finishes, the new ways take effect, scratch is zeroed and BUSY clears. -/
  | carveTransitionDone
  /-- RECT (R331): Draw-list record that fills a rectangle. -/
  | drawRect
  /-- BOX (R331): Draw-list record that draws a box outline. -/
  | drawBox
  /-- POINT (R331): Draw-list record that draws a square point. -/
  | drawPoint
  /-- LINE (R331): Draw-list record that draws a wide line. -/
  | drawLine
  /-- TRIANGLE (R331): Draw-list record that draws a triangle. -/
  | drawTriangle
  /-- GLYPH (R331): Draw-list record that draws a glyph from the atlas. -/
  | drawGlyph
  /-- SET_CLIP (R326): Draw-list record that sets the next clip rectangle. -/
  | drawSetClip
  /-- SET_ATLAS (R329): Draw-list record that selects the built-in atlas or a pinned atlas. -/
  | drawSetAtlas
  /-- CLEAR (R339): Draw-list record 0 that clears the target to a colour. -/
  | drawClear
  /-- DRAW_NOP (R326): Draw-list NOP record. -/
  | drawNop
  /-- DRAW_END (R327): The draw-list END record ends binning; the last shading pass runs and the DRAW_LIST completes. -/
  | drawEnd
  /-- LATCH (R363): At the latch line, each layer takes its outcome and pending flips are bound. -/
  | latch
  /-- FRAME_START (R348): At frame start the frame count increments, RW-B values apply and DISPLAY_CONFIGs complete. -/
  | frameStart
  /-- HPD_UNPLUG (R368): HPD stays low for more than 2 ms; main-link output stops. -/
  | hpdUnplug
  /-- ROUTE_STATE_TIMER (R411): At least every 1 ms, the device sends ROUTE_STATE on every ACTIVE port. -/
  | routeStateTimer
  /-- ROLL_CALL_TIMEOUT (R516): A member does not answer within TIMEOUT_US and the coordinator aborts. -/
  | rollCallTimeout
  /-- VERDICT_TIMEOUT (R517): No VERDICT within 2 × TIMEOUT_US after ACCEPT; the member aborts and sends WAKE. -/
  | verdictTimeout
  /-- ASK_TIMEOUT (R517): No VERDICT within 3 × TIMEOUT_US of ASK; POWER_REQUEST completes with RESULT 1. -/
  | askTimeout
  /-- SLEEP_ENTRY_DONE (R522): The entry sequence reaches Sleep or Deep Sleep, and a latched wake starts exit at once. -/
  | sleepEntryDone
  /-- SCL_TIMEOUT (R429): MB_SCL has been low for 30 ms; the device releases the bus and ends the transaction. -/
  | sclTimeout
  /-- CONTROLLER_RETRY (R437): After an arbitration loss or NACK_ADDRESS and any delay, a retry starts on a free bus. -/
  | controllerRetry
  /-- HAND_RAISE_DUE (R446): An enabled attention source sets, or the repeat interval passes, and a hand-raise becomes due. -/
  | handRaiseDue
  /-- HAND_RAISE (R447): After 50 µs of idle bus the device drives MB_SDA low for 6 µs. -/
  | handRaise
  /-- HAND_RAISE_COLLISION (R448): MB_SCL falls during a hand-raise; the device yields and counts a collision. -/
  | handRaiseCollision
  /-- HAND_RAISE_SEEN (R451): In controller mode the device sees another device's hand-raise and counts it. -/
  | handRaiseSeen
  /-- OC_CLEAR_TIMER (R464): 1 s after an over-current act, the paths close again unless latched. -/
  | ocClearTimer
  /-- OC_LATCH (R464): A write of 1 to KA_PROT.OC_LATCH clears the latch and retries the cell. -/
  | ocLatch
  /-- WAKE_PIN (R469): WAKE_N stays low for 33 coarse ticks, which is an assertion and a wake source. -/
  | wakePin
  /-- XTAL_FAIL (R470): No crystal edge arrives for 2 ms; counting moves to the internal oscillator. -/
  | xtalFail
  /-- XTAL_RESTORE (R470): After 1,024 crystal edges, counting returns to the crystal. -/
  | xtalRestore
  /-- LOGBOOK_APPEND (R476): At each coarse-tick edge, pending Logbook records are appended in order. -/
  | logbookAppend
  /-- KA_LOG_DATA_READ (R477): A read of KA_LOG_DATA_0 latches the selected record and advances INDEX. -/
  | kaLogDataRead
  /-- PHASE_ADD (R480): The total current exceeds 15 × k A, and a phase starts switching. -/
  | phaseAdd
  /-- PHASE_SHED (R480): The current stays below 10 × (k − 1) A for 100 µs, and a phase stops. -/
  | phaseShed
  /-- RAIL_ACK (R484): The rail settles at its target for 2 µs, and waiting clusters rise in frequency. -/
  | railAck
  /-- BYPASS (R571): JTAG BYPASS instruction. -/
  | jtagBypass
  /-- CLAMP (R572): JTAG CLAMP instruction, refused while PERST# is high. -/
  | jtagClamp
  /-- HIGHZ (R572): JTAG HIGHZ instruction, refused while PERST# is high. -/
  | jtagHighz
  /-- VKA_COLLAPSE (R456): VKA falls below 1.8 V; all Caretaker state outside the epoch store is lost and LOAD_EN goes low. -/
  | vkaCollapse
  /-- CELL_FULL (R462): In constant-voltage charging the cell current falls below 1/10 of CHARGE_CURRENT, so the cell is full, charging stops and the harvester enters FULL. -/
  | cellFull
  deriving DecidableEq, Repr

end Sys2Proof
end

