-- ==== Sys2Proof/Config.lean ====
section
/-! DEFINITION. Free values: what the spec leaves open. Each is a constant without a body, so that no proof can lean on a
value of it. `freeNat` is applied to the counter `State.freeCtr`, which every use advances. -/

namespace Sys2Proof

/-- A fresh undefined value (log entry 2). -/
opaque Config.freeNat : Nat → Nat

/-- What host memory holds at an address nothing of this device has written: the host's own content, which may change
between any two reads (log entry 4). The first argument is the value of `State.freeCtr`. -/
opaque Config.hostByte : Nat → Nat → Byte

/-- What a byte of local memory holds before anything has written it (R590): undefined. The first argument numbers the starts,
restarts and losses of supplies so far (`State.ramGen`). -/
opaque Config.ramByte : Nat → Nat → Byte

/-- Whether a line of local memory that nothing has written whole holds check bits that do not match its data (R590). The first argument
is as for `ramByte`, the second the line address. -/
opaque Config.ramErr : Nat → Nat → Bool

/-- The device's exp of an FP32 value on the vector unit; `Machine.vBounded` holds it to 2 units in the last place (R264). -/
opaque Config.expF : W32 → W32

/-- The device's sigmoid of an FP32 value, held to R264 in the same way. -/
opaque Config.sigmoidF : W32 → W32

/-- The device's tanh of an FP32 value, held to R264 in the same way. -/
opaque Config.tanhF : W32 → W32

/-- The compressor's output for a format (0 raw DEFLATE, 1 zlib, 2 LZ4), a level and a source (R215, R216). -/
opaque Config.compress : Nat → Nat → List Byte → List Byte

/-- Draws that an ATTENTION operator's lanes make on a tensor tile before the first row of a part of its work: pass (0 scores, 1 output),
and the block of 128 keys in pass 0 (log entry 20). -/
opaque Config.attnStart : Nat → Nat → Nat

/-- Column of tensor tiles whose lanes form the scores of a block of 128 keys (log entry 20). -/
opaque Config.attnTile : Nat → Nat

/-- An FP32 result that the spec does not state, as a function of the operator's descriptor and of the place that lacks it: a POOL window
that lies wholly in padding, a box beyond those given (log entry 2). -/
opaque Config.openResult : List W32 → List Nat → W32

/-- Which source a uniform SEL takes where its predicate differs among the lanes: predicate, A, B (log entry 2). -/
opaque Config.selMixed : Nat → W32 → W32 → Bool

/-- Scale byte of an MXFP4 value read in a CONV's padding (log entry 21). -/
opaque Config.padScale : Nat

/-- The shader's FRCP; `Machine.fBounded` holds it to 2 units in the last place (R305), and the five functions below in the same way. -/
opaque Config.frcp : W32 → W32

/-- The shader's FRSQ (R305). -/
opaque Config.frsq : W32 → W32

/-- The shader's FEXP2 (R305). -/
opaque Config.fexp2 : W32 → W32

/-- The shader's FLOG2 (R305). -/
opaque Config.flog2 : W32 → W32

/-- The shader's FSIN for |A| beyond 2²⁰ too (R305). -/
opaque Config.fsin : W32 → W32

/-- The shader's FCOS for |A| beyond 2²⁰ too (R305). -/
opaque Config.fcos : W32 → W32

/-- Whether the noticeboard glyph set has a dot at a column and row of the built-in atlas, whose shapes the spec does not give
(log entry 38). -/
opaque Config.glyphDot : Nat → Nat → Bool

/-- The characters between two figures of a noticeboard item: item code and place (log entry 90). -/
opaque Config.noticeGap : Nat → Nat → List Byte

/-- How the noticeboard writes a number whose form Table 2.3 leaves open: 0 version, 1 serial, 5 a record's epoch, 6 its coarse tick
(log entry 90). -/
opaque Config.noticeNumber : Nat → Nat → List Byte

/-- Whether the noticeboard's hexadecimal digits above 9 are capitals (log entry 90). -/
opaque Config.noticeUpper : Bool

end Sys2Proof
end

