-- ==== Sys2Proof/Machine/Number.lean ====
section
/-! DEFINITION. Number formats and accumulation (chapter 9): exact values, rounding, conversions, MXFP4 blocks and the four
accumulation modes. A finite value is an exact ±m × 2^e; every operation is computed exactly and rounded once. -/

namespace Sys2Proof.Machine

/-- An exact value. -/
inductive Num where
  | nan
  | inf (neg : Bool)
  | fin (neg : Bool) (m : Nat) (e : Int)
  deriving DecidableEq, Repr

/-- Plus zero. -/
def Num.zero : Num := .fin false 0 0

/-- Rounding: to nearest even, towards zero, down, up. -/
inductive Rnd where
  | rne | rtz | rdn | rup
  deriving DecidableEq, Repr

/-- A floating-point format: precision in bits with the hidden one, exponent of its lowest bit, largest finite value. -/
structure Fmt where
  p : Nat
  lsb : Int
  maxM : Nat
  maxE : Int
  bits : Nat
  hasInf : Bool
  deriving DecidableEq, Repr

def Fmt.e4m3 : Fmt := ⟨4, -9, 14, 5, 8, false⟩
def Fmt.e5m2 : Fmt := ⟨3, -16, 7, 13, 8, true⟩
def Fmt.fp16 : Fmt := ⟨11, -24, 2047, 5, 16, true⟩
def Fmt.bf16 : Fmt := ⟨8, -133, 255, 120, 16, true⟩
def Fmt.fp32 : Fmt := ⟨24, -149, 16777215, 104, 32, true⟩
def Fmt.p24 : Fmt := ⟨16, -141, 65535, 112, 24, false⟩
def Fmt.e2m1 : Fmt := ⟨2, -1, 3, 1, 4, false⟩

/-! ### Exact arithmetic -/

/-- Number of bits of a natural number. -/
def bitLen (m : Nat) : Nat := if m = 0 then 0 else m.log2 + 1

/-- m × 2^k for k of either sign; bits shifted out are lost. -/
def shiftNat (m : Nat) (k : Int) : Nat := if k < 0 then m / 2 ^ (-k).toNat else m * 2 ^ k.toNat

/-- Signed integer of a sign and a magnitude. -/
def signed (neg : Bool) (m : Nat) : Int := if neg then -(m : Int) else m

/-- Exact sum. The sign of a zero sum is +0 unless both addends are −0 (R234). -/
def Num.add : Num → Num → Num
  | .nan, _ => .nan
  | _, .nan => .nan
  | .inf a, .inf b => if a = b then .inf a else .nan
  | .inf a, _ => .inf a
  | _, .inf b => .inf b
  | .fin na ma ea, .fin nb mb eb =>
    let e := min ea eb
    let v := signed na (shiftNat ma (ea - e)) + signed nb (shiftNat mb (eb - e))
    if v = 0 then .fin (na && nb) 0 e else .fin (decide (v < 0)) v.natAbs e

/-- Exact product. Infinity times zero is NaN. -/
def Num.mul : Num → Num → Num
  | .nan, _ => .nan
  | _, .nan => .nan
  | .inf a, .inf b => .inf (xor a b)
  | .inf a, .fin nb mb _ => if mb = 0 then .nan else .inf (xor a nb)
  | .fin na ma _, .inf b => if ma = 0 then .nan else .inf (xor na b)
  | .fin na ma ea, .fin nb mb eb => .fin (xor na nb) (ma * mb) (ea + eb)

/-- Negation. -/
def Num.neg : Num → Num
  | .nan => .nan
  | .inf a => .inf (!a)
  | .fin n m e => .fin (!n) m e

/-- Magnitude. -/
def Num.abs : Num → Num
  | .nan => .nan
  | .inf _ => .inf false
  | .fin _ m e => .fin false m e

/-- A quotient carried to `prec` bits with a sticky bit below: rounding it to fewer bits rounds the exact quotient. -/
def quotient (prec ma mb : Nat) (e : Int) : Nat × Int :=
  let k := prec + 2 + bitLen mb - min (bitLen ma) (prec + 2 + bitLen mb)
  let n := ma * 2 ^ k
  (n / mb * 2 + b2n (n % mb != 0), e - k - 1)

/-- Quotient, carried far enough for a rounding to `prec` bits. Zero by zero and infinity by infinity are NaN. -/
def Num.div (prec : Nat) : Num → Num → Num
  | .nan, _ => .nan
  | _, .nan => .nan
  | .inf _, .inf _ => .nan
  | .inf a, .fin nb _ _ => .inf (xor a nb)
  | .fin na _ _, .inf b => .fin (xor na b) 0 0
  | .fin na ma ea, .fin nb mb eb =>
    if mb = 0 then (if ma = 0 then .nan else .inf (xor na nb))
    else
      let q := quotient prec ma mb (ea - eb)
      .fin (xor na nb) q.1 q.2

/-- Square root, carried far enough for a rounding to `prec` bits. The root of a negative value is NaN, of −0 it is −0. -/
def Num.sqrt (prec : Nat) : Num → Num
  | .nan => .nan
  | .inf a => if a then .nan else .inf false
  | .fin n m e =>
    if m = 0 then .fin n 0 0
    else if n then .nan
    else
      let k := 2 * (prec + 2) + (if e % 2 = 0 then 0 else 1)
      let v := m * 2 ^ k
      let r := v.sqrt
      .fin false (r * 2 + b2n (r * r != v)) ((e - k) / 2 - 1)

/-- Whether |a| < |b| for finite values. -/
def magLt (ma : Nat) (ea : Int) (mb : Nat) (eb : Int) : Bool :=
  let e := min ea eb
  decide (shiftNat ma (ea - e) < shiftNat mb (eb - e))

/-- Order of values that are not NaN; the two zeros are equal. -/
def Num.lt : Num → Num → Bool
  | .nan, _ => false
  | _, .nan => false
  | .inf a, .inf b => a && !b
  | .inf a, _ => a
  | _, .inf b => !b
  | .fin na ma ea, .fin nb mb eb =>
    let e := min ea eb
    decide (signed na (shiftNat ma (ea - e)) < signed nb (shiftNat mb (eb - e)))

/-- Equality of values; NaN equals nothing. -/
def Num.eqv (a b : Num) : Bool := a != .nan && b != .nan && !a.lt b && !b.lt a

/-- Sign, for ordering −0 below +0. -/
def Num.isNeg : Num → Bool
  | .nan => false
  | .inf a => a
  | .fin n _ _ => n

/-- Larger of two values, NaN where either is NaN; +0 is larger than −0. -/
def Num.max (a b : Num) : Num :=
  if a = .nan || b = .nan then .nan
  else if a.lt b then b else if b.lt a then a else if a.isNeg then b else a

/-- Smaller of two values, NaN where either is NaN. -/
def Num.min (a b : Num) : Num :=
  if a = .nan || b = .nan then .nan
  else if a.lt b then a else if b.lt a then b else if a.isNeg then a else b

/-- An integer as a value. -/
def Num.ofInt (i : Int) : Num := .fin (decide (i < 0)) i.natAbs 0

/-! ### Rounding -/

/-- m / 2^k rounded. -/
def roundShift (r : Rnd) (neg : Bool) (m k : Nat) : Nat :=
  let q := m / 2 ^ k
  let rem := m % 2 ^ k
  if rem = 0 then q
  else match r with
    | .rne => if 2 * rem > 2 ^ k || (2 * rem = 2 ^ k && q % 2 = 1) then q + 1 else q
    | .rtz => q
    | .rdn => if neg then q + 1 else q
    | .rup => if neg then q else q + 1

/-- A finite magnitude on a format's grid, its exponent not yet limited: subnormals included. -/
def roundGrid (f : Fmt) (r : Rnd) (neg : Bool) (m : Nat) (e : Int) : Nat × Int :=
  let q := max f.lsb (e + bitLen m - f.p)
  if q ≤ e then (shiftNat m (e - q), q) else (roundShift r neg m (q - e).toNat, q)

/-- The largest finite value of a sign. -/
def Fmt.top (f : Fmt) (neg : Bool) : Num := .fin neg f.maxM f.maxE

/-- Round a finite value. Overflow is judged on the exact value (9.3): true with it. -/
def roundTo (f : Fmt) (r : Rnd) (neg : Bool) (m : Nat) (e : Int) : Num × Bool :=
  if magLt f.maxM f.maxE m e then (f.top neg, true)
  else
    let g := roundGrid f r neg m e
    (.fin neg g.1 g.2, false)

/-! ### Status flags (Table 9.6) -/

abbrev Fl.SAT : Nat := 1
abbrev Fl.OUT_SAT : Nat := 2
abbrev Fl.NAN : Nat := 4
abbrev Fl.INF_IN : Nat := 8
abbrev Fl.DONE : Nat := 0x80

/-- A value with the flags met on the way. -/
abbrev Flagged (α : Type) := α × Nat

/-- Round to FP32 in the epilogue and the vector unit: nearest even; a finite overflow clamps and sets `OUT_SAT`. -/
def f32 (x : Num) : Flagged Num :=
  match x with
  | .nan => (.nan, Fl.NAN)
  | .inf a => (.inf a, 0)
  | .fin n m e =>
    let r := roundTo Fmt.fp32 .rne n m e
    (r.1, if r.2 then Fl.OUT_SAT else 0)

/-! ### Reading and writing formats (Tables 9.1 to 9.3) -/

/-- The floating-point format of a code. -/
def fmtOf (code : Nat) : Option Fmt :=
  match code with
  | 4 => some Fmt.e4m3
  | 5 => some Fmt.e5m2
  | 6 => some Fmt.fp16
  | 7 => some Fmt.bf16
  | 8 => some Fmt.fp32
  | 9 => some Fmt.e2m1
  | _ => none

/-- Width of an element in bits. -/
def codeBits (code : Nat) : Nat :=
  match code with
  | 0 => 4
  | 1 => 8
  | 2 => 8
  | 3 => 16
  | 4 => 8
  | 5 => 8
  | 6 => 16
  | 7 => 16
  | 8 => 32
  | 9 => 4
  | _ => 32

/-- Range of an integer format. -/
def intRange (code : Nat) : Option (Int × Int) :=
  match code with
  | 0 => some (-8, 7)
  | 1 => some (-128, 127)
  | 2 => some (0, 255)
  | 3 => some (-32768, 32767)
  | 10 => some (-2147483648, 2147483647)
  | _ => none

/-- A floating-point encoding's value (R233). -/
def decodeFloat (f : Fmt) (code bits : Nat) : Num :=
  let fb := f.p - 1
  let eb := f.bits - 1 - fb
  let neg := nbit bits (f.bits - 1)
  let ex := bits / 2 ^ fb % 2 ^ eb
  let fr := bits % 2 ^ fb
  if code = 4 && bits % 128 = 127 then .nan
  else if f.hasInf && ex = 2 ^ eb - 1 then (if fr = 0 then .inf neg else .nan)
  else if ex = 0 then .fin neg fr f.lsb
  else .fin neg (2 ^ fb + fr) (f.lsb + ex - 1)

/-- The value of an element's bits; an MXFP4 element without its scale. -/
def decodeNum (code bits : Nat) : Num :=
  match fmtOf code with
  | some f => decodeFloat f code bits
  | none =>
    match intRange code with
    | some (lo, _) => Num.ofInt (if lo = 0 then (bits : Int) else signedOf (codeBits code) bits)
    | none => .nan

/-- The encoding of a value that stands on a format's grid. -/
def packFloat (f : Fmt) (neg : Bool) (m : Nat) (e : Int) : Nat :=
  let g := roundGrid f .rtz neg m e
  let fb := f.p - 1
  let s := b2n neg * 2 ^ (f.bits - 1)
  if g.1 < 2 ^ fb then s + g.1 else s + ((g.2 - f.lsb).toNat + 1) * 2 ^ fb + (g.1 - 2 ^ fb)

/-- Canonical NaN of a format code (Table 9.2). -/
def canonicalNan (code : Nat) : Nat :=
  match code with
  | 4 => 0x7F
  | 5 => 0x7E
  | 6 => 0x7E00
  | 7 => 0x7FC0
  | 8 => 0x7FC00000
  | _ => 0

/-- The encoding of an infinity. -/
def infBits (f : Fmt) (neg : Bool) : Nat :=
  b2n neg * 2 ^ (f.bits - 1) + (2 ^ (f.bits - f.p) - 1) * 2 ^ (f.p - 1)

/-- A value rounded to an integer. -/
def roundInt (r : Rnd) (neg : Bool) (m : Nat) (e : Int) : Int :=
  signed neg (if 0 ≤ e then shiftNat m e else roundShift r neg m (-e).toNat)

/-- Convert a value to a format under R235, or with another rounding for CVT: the bits, and the flags. A NaN sets `NAN` on its way to an
integer alone (Table 9.3). -/
def encodeNum (r : Rnd) (code : Nat) (x : Num) : Flagged Nat :=
  match fmtOf code with
  | some f =>
    match x with
    | .nan => (canonicalNan code, 0)
    | .inf n => if f.hasInf then (infBits f n, 0) else (packFloat f n f.maxM f.maxE, Fl.OUT_SAT)
    | .fin n m e =>
      let q := roundTo f r n m e
      match q.1 with
      | .fin n' m' e' => (packFloat f n' m' e', if q.2 then Fl.OUT_SAT else 0)
      | _ => (0, 0)
  | none =>
    match intRange code with
    | none => (0, 0)
    | some (lo, hi) =>
      match x with
      | .nan => (0, Fl.NAN)
      | .inf n => (wrapInt (codeBits code) (if n then lo else hi), Fl.OUT_SAT)
      | .fin n m e =>
        let i := roundInt r n m e
        let c := clampInt lo hi i
        (wrapInt (codeBits code) c, if c = i then 0 else Fl.OUT_SAT)

/-- The FP32 value of a word. -/
def num32 (w : W32) : Num := decodeNum 8 w.toNat

/-- The FP32 word of a value. -/
def word32 (x : Num) : W32 := BitVec.ofNat 32 (encodeNum .rne 8 x).1

/-! ### MXFP4 (R232, R236, R237) -/

/-- An MXFP4 element with its scale byte. -/
def decodeMx (bits scale : Nat) : Num :=
  if scale = 255 then .nan else Num.mul (decodeNum 9 bits) (.fin false 1 ((scale : Int) - 127))

/-- ⌊log₂⌋ of a finite magnitude that is not 0. -/
def floorLog2 (m : Nat) (e : Int) : Int := (m.log2 : Int) + e

/-- Larger magnitude, infinities taken as the largest FP32 finite value (R237). -/
def mxMag (a : Num) (x : Num) : Num :=
  match x with
  | .inf _ => Num.max a (Fmt.fp32.top false)
  | _ => Num.max a x.abs

/-- An MXFP4 element from a value, an exponent d and the clamp to ±6 (R237 step 4). -/
def mxElem (d : Int) (x : Num) : Nat :=
  match x with
  | .nan => 0
  | .inf n => b2n n * 8 + 7
  | .fin n m e =>
    match (roundTo Fmt.e2m1 .rne n m (e - d)).1 with
    | .fin n' m' e' => packFloat Fmt.e2m1 n' m' e'
    | _ => 0

/-- One block of an MXFP4 output: scale byte, elements, flags (R237). -/
def mxBlock (xs : List Num) : Nat × List Nat × Nat :=
  if xs.any (· == .nan) then (255, xs.map (fun _ => 0), Fl.NAN)
  else
    let anyInf := xs.any (fun x => x == .inf true || x == .inf false)
    let fl0 := if anyInf then Fl.OUT_SAT else 0
    match xs.foldl mxMag Num.zero with
    | .fin _ m e =>
      if m = 0 then (127, xs.map (fun _ => 0), fl0)
      else
        let d := floorLog2 m e - 2
        let fl := if d > 127 then Nat.lor fl0 Fl.OUT_SAT else fl0
        let d := clampInt (-127) 127 d
        ((d + 127).toNat, xs.map (mxElem d), fl)
    | _ => (127, xs.map (fun _ => 0), fl0)

/-! ### Tensor-array operands and accumulation (9.5 to 9.7) -/

/-- An operand of the tensor array: an infinity is taken as the format's largest finite value (R242); NaN is flagged. -/
def arrayOperand (code : Nat) (x : Num) : Flagged Num :=
  match x with
  | .nan => (.nan, Fl.NAN)
  | .inf n => (((fmtOf code).map (fun f => f.top n)).getD .nan, Fl.INF_IN)
  | _ => (x, 0)

/-- Accumulation modes (Table 9.5). -/
abbrev Mode.exactInt : Nat := 0
abbrev Mode.chunked : Nat := 1
abbrev Mode.lean : Nat := 2
abbrev Mode.full : Nat := 3

/-- Format code of a mode's accumulator. -/
def accCode (mode : Nat) : Nat := if mode = Mode.exactInt then 10 else if mode = Mode.lean then 7 else 8

/-- Round to nearest even in a format and saturate (R241). -/
def rneSat (f : Fmt) (x : Num) : Flagged Num :=
  match x with
  | .fin n m e =>
    let r := roundTo f .rne n m e
    (r.1, if r.2 then Fl.SAT else 0)
  | _ => (.nan, Fl.NAN)

/-- One step of a lane's LFSR (R244). -/
def lfsrStep (s : Nat) : Nat := if s % 2 = 1 then Nat.xor (s / 2) 0xB400 else s / 2

/-- Seed of lane l (R245). -/
def laneSeed (seed tm tn op b l : Nat) : Nat :=
  let x (a c : Nat) : Nat := Nat.xor a (c % 65536)
  let s := x (x (x (x (x (Nat.xor (seed % 65536) (seed / 65536 % 65536)) (0x2F1B * tm)) (0x6C8D * tn)) (0x1D87 * op))
    (0x5A5B * b)) (0x0101 * l)
  if s = 0 then 0xACE1 else s

/-- State of an LFSR after n steps. -/
def lfsrAfter (s n : Nat) : Nat := n.repeat lfsrStep s

/-- BF16 stochastic rounding with one draw (R247). -/
def srBf16 (x : Num) (u : Nat) : Flagged Num :=
  match x with
  | .fin n m e =>
    let f := Fmt.bf16
    let beyond := magLt f.maxM f.maxE m e
    let t : Nat × Int := if beyond then (f.maxM, f.maxE) else roundGrid f .rtz n m e
    let q : Int := if beyond then 120 else t.2
    -- residue and step on a common grid
    let g := min e q
    let rest := shiftNat m (e - g) - shiftNat t.1 (t.2 - g)
    let step := shiftNat 1 (q - g)
    if rest = 0 then (.fin n t.1 t.2, 0)
    else if rest * 65536 / step ≥ u then
      let r := (t.1 + 1, q)
      if magLt f.maxM f.maxE r.1 r.2 then (f.top n, Fl.SAT) else (.fin n r.1 r.2, 0)
    else (.fin n t.1 t.2, 0)
  | _ => (.nan, Fl.NAN)

/-- One addition of a mode: the accumulator, a product and the lane's draw. Once NaN, the accumulator stays NaN (R243). -/
def accStep (mode u : Nat) (acc : Flagged Num) (p : Num) : Flagged Num :=
  if acc.1 = .nan || p = .nan then (.nan, Nat.lor acc.2 Fl.NAN)
  else
    let x := Num.add acc.1 p
    let r : Flagged Num :=
      if mode = Mode.exactInt then
        match x with
        | .fin n m e =>
          let i := roundInt .rtz n m e
          let c := clampInt (-2147483648) 2147483647 i
          (Num.ofInt c, if c = i then 0 else Fl.SAT)
        | _ => (.nan, Fl.NAN)
      else if mode = Mode.lean then srBf16 x u
      else rneSat (if mode = Mode.chunked then Fmt.p24 else Fmt.fp32) x
    (r.1, Nat.lor acc.2 r.2)

/-- The sum of products in ascending order, one draw for each addition. -/
def accLoop (mode : Nat) (acc : Flagged Num) : Nat → List Num → Flagged Num
  | _, [] => acc
  | u, p :: ps => accLoop mode (accStep mode (lfsrStep u) acc p) (lfsrStep u) ps

/-- The chunks of CHUNKED_FLOAT, added to the running total (R241). -/
def chunkLoop (total : Flagged Num) : List (List Num) → Flagged Num
  | [] => total
  | c :: cs =>
    let part := accLoop Mode.chunked (Num.zero, 0) 0 c
    chunkLoop (accStep Mode.full 0 (total.1, Nat.lor total.2 part.2) part.1) cs

/-- A list cut in runs of n. -/
def runsOf {α : Type} (n : Nat) : Nat → List α → List (List α)
  | 0, _ => []
  | _, [] => []
  | fuel + 1, l => l.take n :: runsOf n fuel (l.drop n)

/-- The initial value in the accumulator's type (9.6, R242). -/
def accInit (mode : Nat) (i : Num) : Flagged Num :=
  match i with
  | .inf n =>
    (if mode = Mode.exactInt then Num.ofInt (if n then -2147483648 else 2147483647)
     else if mode = Mode.lean then Fmt.bf16.top n else Fmt.fp32.top n, Fl.INF_IN)
  | .nan => (.nan, Fl.NAN)
  | _ =>
    let r := encodeNum .rne (accCode mode) i
    (decodeNum (accCode mode) r.1, r.2)

/-- The accumulator of one output element (R239 to R243). `u` is the lane's LFSR state before the element's first draw. -/
def accumulate (mode chunk u : Nat) (init : Num) (ps : List Num) : Flagged Num :=
  let i := accInit mode init
  if mode = Mode.chunked then chunkLoop i (runsOf (16 * 2 ^ chunk) ps.length ps) else accLoop mode i u ps

end Sys2Proof.Machine
end

