-- ==== Sys2Proof/Machine/Approx.lean ====
section
/-! DEFINITION. IEEE 754 results of the shader cores (R304), and the functions that the spec bounds to 2 units in the last place and
does not fix (R264, R305). Each has its exact value, carried to far more bits than FP32 holds, and a device function of Config that
counts only where it lies within the bound. -/

namespace Sys2Proof.Machine

/-- IEEE 754 rounding to nearest even: a rounded magnitude beyond the largest finite one gives an infinity (R304). -/
def ieee (x : Num) : W32 :=
  match x with
  | .nan => 0x7FC00000
  | .inf n => if n then 0xFF800000 else 0x7F800000
  | .fin n m e =>
    let g := roundGrid Fmt.fp32 .rne n m e
    if magLt Fmt.fp32.maxM Fmt.fp32.maxE g.1 g.2 then (if n then 0xFF800000 else 0x7F800000)
    else BitVec.ofNat 32 (packFloat Fmt.fp32 n g.1 g.2)

/-! ### Fixed-point arithmetic with 320 fraction bits -/

/-- One. -/
def fxOne : Int := ((2 ^ 320 : Nat) : Int)

/-- A finite value, its bits below 2⁻³²⁰ dropped. -/
def fxOf (neg : Bool) (m : Nat) (e : Int) : Int := signed neg (shiftNat m (e + 320))

/-- The value of a fixed-point number times 2^k. -/
def Num.ofFx (x k : Int) : Num := .fin (decide (x < 0)) x.natAbs (k - 320)

/-- Product and quotient. -/
def fxMul (a b : Int) : Int := a * b / fxOne
def fxDiv (a b : Int) : Int := a * fxOne / b

/-- t/(2k+1) + t q/(2k+3) + …: atanh z for t = z and q = z², atan z for q = −z². -/
def fxOdd (q : Int) : Nat → Nat → Int → Int
  | 0, _, _ => 0
  | n + 1, k, t => t / ((2 * k + 1 : Nat) : Int) + fxOdd q n (k + 1) (fxMul t q)

/-- atanh z, |z| ≤ 1/3. -/
def fxAtanh (z : Int) : Int := fxOdd (fxMul z z) 110 0 z

/-- atan (1/n), n at least 5. -/
def fxAtanInv (n : Nat) : Int := let z := fxOne / (n : Int); fxOdd (-(fxMul z z)) 80 0 z

/-- ln 2, and π/2. -/
def fxLn2 : Int := 2 * fxAtanh (fxOne / 3)
def fxHalfPi : Int := 2 * (4 * fxAtanInv 5 - fxAtanInv 239)

/-- t r/k + t r²/(k (k+1)) + …: e^r − 1 for k = 1 and t = 1. -/
def fxExpTerms (r : Int) : Nat → Nat → Int → Int
  | 0, _, _ => 0
  | n + 1, k, t => let u := fxMul t r / (k : Int); u + fxExpTerms r n (k + 1) u

/-- e^r − 1, |r| ≤ 2. -/
def fxExpm1 (r : Int) : Int := fxExpTerms r 110 1 fxOne

/-- t − t r²/(k (k+1)) + …: sin r for k = 2 and t = r, cos r for k = 1 and t = 1. -/
def fxTrig (r2 : Int) : Nat → Nat → Int → Int
  | 0, _, _ => 0
  | n + 1, k, t => t + fxTrig r2 n (k + 2) (-(fxMul t r2 / ((k * (k + 1) : Nat) : Int)))

/-- e^x as a fixed-point number and a power of 2, |x| ≤ 1,024. -/
def fxExp (x : Int) : Int × Int := let k := x / fxLn2; (fxOne + fxExpm1 (x - k * fxLn2), k)

/-- A fixed-point number brought between −n and n. -/
def fxClamp (n : Nat) (x : Int) : Int := clampInt (-(n * fxOne)) (n * fxOne) x

/-! ### Exact values -/

/-- e^x of a fixed-point x. -/
def Num.expFx (x : Int) : Num := let r := fxExp (fxClamp 1024 x); Num.ofFx r.1 r.2

/-- e^x. -/
def Num.exp : Num → Num
  | .nan => .nan
  | .inf n => if n then Num.zero else .inf false
  | .fin n m e => Num.expFx (fxOf n m e)

/-- 2^x. -/
def Num.exp2 : Num → Num
  | .nan => .nan
  | .inf n => if n then Num.zero else .inf false
  | .fin n m e => Num.expFx (fxMul (fxClamp 1024 (fxOf n m e)) fxLn2)

/-- 1/(1 + e^(−x)). -/
def Num.sigmoid : Num → Num
  | .nan => .nan
  | .inf n => if n then Num.zero else Num.ofInt 1
  | x => Num.div 120 (Num.ofInt 1) (Num.add (Num.ofInt 1) x.neg.exp)

/-- tanh x = u/(u + 2) for u = e^(2x) − 1. -/
def Num.tanh : Num → Num
  | .nan => .nan
  | .inf n => Num.ofInt (if n then -1 else 1)
  | .fin n m e =>
    if m = 0 then .fin n 0 0
    else
      let x := fxOf n m e
      let u := if x.natAbs ≤ fxOne.natAbs then Num.ofFx (fxExpm1 (2 * x)) 0
        else Num.add (Num.expFx (2 * fxClamp 512 x)) (Num.ofInt (-1))
      Num.div 120 u (Num.add u (Num.ofInt 2))

/-- 1/x and 1/√x; IEEE 754 gives the zeros and infinities. -/
def Num.recip (x : Num) : Num := Num.div 120 (Num.ofInt 1) x
def Num.rsqrt (x : Num) : Num :=
  match x with
  | .fin n m _ => if m = 0 then .inf n else if n then .nan else Num.sqrt 120 (Num.div 240 (Num.ofInt 1) x)
  | .inf n => if n then .nan else Num.zero
  | .nan => .nan

/-- log₂ x. -/
def Num.log2 : Num → Num
  | .nan => .nan
  | .inf n => if n then .nan else .inf false
  | .fin n m e =>
    if m = 0 then .inf true
    else if n then .nan
    else
      let k := floorLog2 m e
      let y := fxOf false m (e - k)
      Num.ofFx (k * fxOne + fxDiv (2 * fxAtanh (fxDiv (y - fxOne) (y + fxOne))) fxLn2) 0

/-- sin and cos of a quarter turn count and a rest: quarter 0 for sin, 1 for cos. -/
def Num.trig (quarter : Int) : Num → Num
  | .fin n m e =>
    if m = 0 ∧ quarter = 0 then .fin n 0 0
    else
      let x := fxOf n m e
      let k := (x + fxHalfPi / 2) / fxHalfPi
      let r := x - k * fxHalfPi
      let r2 := fxMul r r
      match ((k + quarter) % 4).toNat with
      | 0 => Num.ofFx (fxTrig r2 60 2 r) 0
      | 1 => Num.ofFx (fxTrig r2 60 1 fxOne) 0
      | 2 => Num.ofFx (-(fxTrig r2 60 2 r)) 0
      | _ => Num.ofFx (-(fxTrig r2 60 1 fxOne)) 0
  | _ => .nan

/-! ### The bound of 2 units in the last place -/

/-- Whether an FP32 value lies within 2 units in the last place of an exact value; an infinity counts as 2¹²⁸. The exact value stands
with an error far below 2⁻⁴⁰ units, which the bound takes up. -/
def within2 (y r : Num) : Bool :=
  let r := match r with
    | .inf n => Num.fin n 1 128
    | r => r
  match y, Num.add y r.neg with
  | .fin _ my ey, .fin _ md ed =>
    let q : Int := max (-149) (if my = 0 then -149 else floorLog2 my ey - 23)
    !magLt (2 ^ 41 + 1) (q - 40) md ed
  | _, _ => false

/-- The device's result for a function whose exact value is y: its own bits where they keep the bound, the rounded value else. A NaN
is the canonical one (R304), and zeros, infinities and NaN operands follow IEEE 754. -/
def fBounded (y : Num) (device : W32) : W32 :=
  match y with
  | .fin _ _ _ => if within2 y (num32 device) then device else ieee y
  | _ => ieee y

/-- The same on the vector unit (R264): an exact value beyond the largest finite one clamps, as every FP32 step does there. -/
def vBounded (y : Num) (device : Num) : Flagged Num :=
  match y, device with
  | .fin _ m e, .fin _ _ _ => if !magLt Fmt.fp32.maxM Fmt.fp32.maxE m e && within2 y device then (device, 0) else f32 y
  | _, _ => f32 y

end Sys2Proof.Machine
end

