-- ==== Sys2Proof/Machine/Regs.lean ====
section
/-! DEFINITION. The register map of the HK1640: every register of the spec's register tables (chapters 2 to 20,
Table 21.6), its offset, its fields, their access codes (Table 0.2) and reset values.

Keys: a global register is named by its PF BAR0 offset. The window registers of function 0 are PF BAR0 offsets; those of
VF f are `0x0100_0000 + 0x1_0000 * f + offset` (the key space above PF BAR0; DESIGN CHOICE, log entry 52: VF BAR0 is not in PF BAR0). -/

namespace Sys2Proof.Machine

/-- Access codes of Table 0.2 (R7). -/
inductive Access where
  | ro | roH | wo | w1c | rwS | rwB | rwL
  deriving DecidableEq, Repr

/-- One field of a register: its bits, its access code and its reset value. -/
structure FieldRow where
  hi : Nat
  lo : Nat
  acc : Access
  reset : Nat
  deriving DecidableEq, Repr

/-- One register, or an array of registers at a fixed stride. `window` marks the registers of a function window. -/
structure RegRow where
  base : Nat
  stride : Nat
  count : Nat
  window : Bool
  fields : List FieldRow
  deriving DecidableEq, Repr

/-- Key of the first byte of function f's window (Table 21.2). -/
def fnWin (f : Nat) : Nat := if f = 0 then 0 else 0x1000000 + 0x10000 * f

/-- Bits of a named field, as (high, low). -/
abbrev Fld := Nat × Nat

abbrev R.CP_BOOT_STATUS : Nat := 0x10f000
abbrev R.CP_STAGE_CTRL : Nat := 0x10f004
abbrev R.CP_CONFIG_RESULT : Nat := 0x10f008
abbrev R.CP_IMAGE_SERIAL : Nat := 0x10f00c
abbrev R.CP_IMAGE_VERSION : Nat := 0x10f010
abbrev R.CP_OTP_STATUS : Nat := 0x10f014
abbrev R.CP_OTP_DIGEST_n (n : Nat) : Nat := 0x10f020 + 0x4 * n
abbrev R.CP_OTP_PROG_DATA_n (n : Nat) : Nat := 0x10f040 + 0x4 * n
abbrev R.CP_OTP_PROG_CTRL : Nat := 0x10f060
abbrev R.HI_RING_BASE_LO (f : Nat) : Nat := fnWin f + 0x0
abbrev R.HI_RING_BASE_HI (f : Nat) : Nat := fnWin f + 0x4
abbrev R.HI_RING_SIZE (f : Nat) : Nat := fnWin f + 0x8
abbrev R.HI_RING_HEAD (f : Nat) : Nat := fnWin f + 0xc
abbrev R.HI_RING_TAIL (f : Nat) : Nat := fnWin f + 0x10
abbrev R.HI_DOORBELL (f : Nat) : Nat := fnWin f + 0x100
abbrev R.HI_REPLY_BASE_LO (f : Nat) : Nat := fnWin f + 0x200
abbrev R.HI_REPLY_BASE_HI (f : Nat) : Nat := fnWin f + 0x204
abbrev R.HI_REPLY_SIZE (f : Nat) : Nat := fnWin f + 0x208
abbrev R.HI_REPLY_TAIL (f : Nat) : Nat := fnWin f + 0x20c
abbrev R.HI_REPLY_HEAD (f : Nat) : Nat := fnWin f + 0x210
abbrev R.HI_FENCE_BASE_LO (f : Nat) : Nat := fnWin f + 0x300
abbrev R.HI_FENCE_BASE_HI (f : Nat) : Nat := fnWin f + 0x304
abbrev R.HI_MSIX_FENCE_MAP_n (f n : Nat) : Nat := fnWin f + 0x400 + 4 * n
abbrev R.HI_MSIX_EVENT_MAP (f : Nat) : Nat := fnWin f + 0x410
abbrev R.HI_FN_CTRL (f : Nat) : Nat := fnWin f + 0x500
abbrev R.HI_FN_STATUS (f : Nat) : Nat := fnWin f + 0x504
abbrev R.HI_FN_ENABLE_STATUS (f : Nat) : Nat := fnWin f + 0x508
abbrev R.HI_WRITE_REJECT : Nat := 0x10000
abbrev R.HI_APERTURE_BASE : Nat := 0x10008
abbrev R.HI_APERTURE_BASE_HI : Nat := 0x1000c
abbrev R.HI_PCIE_LINK : Nat := 0x10010
abbrev R.HI_FN_TABLE_f_STATUS (n : Nat) : Nat := 0x80000 + 0x100 * n
abbrev R.CP_LAST_REFUSAL_0 : Nat := 0x100000
abbrev R.CP_LAST_REFUSAL_1 : Nat := 0x100004
abbrev R.TT_QUANTUM : Nat := 0x200000
abbrev R.TT_STANDBY : Nat := 0x200004
abbrev R.TT_AGE_2 : Nat := 0x200008
abbrev R.TT_AGE_3 : Nat := 0x20000c
abbrev R.TT_QUEUED_c (n : Nat) : Nat := 0x200010 + 0x4 * n
abbrev R.TT_LATE_COUNT : Nat := 0x200020
abbrev R.TT_CLUSTER_BUSY : Nat := 0x200024
abbrev R.MT_ROOT_f_LO (n : Nat) : Nat := 0x300000 + 0x10 * n
abbrev R.MT_ROOT_f_HI (n : Nat) : Nat := 0x300004 + 0x10 * n
abbrev R.MT_ROOT_f_CTRL (n : Nat) : Nat := 0x300008 + 0x10 * n
abbrev R.MT_INVAL_FN : Nat := 0x300800
abbrev R.MT_INVAL_VA_LO : Nat := 0x300804
abbrev R.MT_INVAL_VA_HI : Nat := 0x300808
abbrev R.MT_INVAL_PAGES : Nat := 0x30080c
abbrev R.MT_INVAL_CTRL : Nat := 0x300810
abbrev R.MT_INVAL_STATUS : Nat := 0x300814
abbrev R.MT_PRI_TIMEOUT : Nat := 0x300820
abbrev R.MT_POD_ALLOW_p_LO (n : Nat) : Nat := 0x300830 + 0x8 * n
abbrev R.MT_POD_ALLOW_p_HI (n : Nat) : Nat := 0x300834 + 0x8 * n
abbrev R.MT_MALFORMED_COUNT : Nat := 0x300850
abbrev R.MT_PRI_REQUESTS : Nat := 0x300854
abbrev R.MT_PRI_FAILURES : Nat := 0x300858
abbrev R.MT_ATS_HELD : Nat := 0x30085c
abbrev R.HI_FN_XLATE_FAULT_0 (f : Nat) : Nat := fnWin f + 0x510
abbrev R.HI_FN_XLATE_FAULT_1 (f : Nat) : Nat := fnWin f + 0x514
abbrev R.HI_FN_XLATE_FAULT_2 (f : Nat) : Nat := fnWin f + 0x518
abbrev R.HI_FN_XLATE_FAULT_3 (f : Nat) : Nat := fnWin f + 0x51c
abbrev R.SC_CARVE : Nat := 0x400000
abbrev R.SC_CARVE_STATUS : Nat := 0x400004
abbrev R.SC_REPLACE : Nat := 0x400008
abbrev R.SC_PF_CTRL : Nat := 0x40000c
abbrev R.CE_ENG_n_CTRL (n : Nat) : Nat := 0x500000 + 0x100 * n
abbrev R.CE_ENG_n_STATUS (n : Nat) : Nat := 0x500004 + 0x100 * n
abbrev R.TX_CLUSTER_n_CTRL (n : Nat) : Nat := 0x600000 + 0x10000 * n
abbrev R.TX_CLUSTER_n_STATUS (n : Nat) : Nat := 0x600004 + 0x10000 * n
abbrev R.TX_CLUSTER_n_TILES (n : Nat) : Nat := 0x600008 + 0x10000 * n
abbrev R.SC_PENCIL_STATUS : Nat := 0x400200
abbrev R.TX_CLUSTER_n_PENCIL_TILES (n : Nat) : Nat := 0x60000c + 0x10000 * n
abbrev R.HI_FN_SHADER_TRAP_0 (f : Nat) : Nat := fnWin f + 0x520
abbrev R.HI_FN_SHADER_TRAP_1 (f : Nat) : Nat := fnWin f + 0x524
abbrev R.HI_FN_SHADER_TRAP_2 (f : Nat) : Nat := fnWin f + 0x528
abbrev R.HI_FN_SHADER_TRAP_3 (f : Nat) : Nat := fnWin f + 0x52c
abbrev R.SH_CORE_k_STATUS (n : Nat) : Nat := 0x700000 + 0x4 * n
abbrev R.TB_STATUS : Nat := 0x800000
abbrev R.TB_LAST_ERROR_0 : Nat := 0x800004
abbrev R.TB_LAST_ERROR_1 : Nat := 0x800008
abbrev R.TB_LAST_ERROR_2 : Nat := 0x80000c
abbrev R.DC_STATUS : Nat := 0x900000
abbrev R.DC_LATCH_LEAD : Nat := 0x900004
abbrev R.DC_BG_COLOUR : Nat := 0x900008
abbrev R.DC_WB_CTRL : Nat := 0x90000c
abbrev R.DC_WB_STATUS : Nat := 0x900010
abbrev R.DC_EVENT_CTRL : Nat := 0x900014
abbrev R.DC_EVENT_STATUS : Nat := 0x900018
abbrev R.DC_FRAME_COUNT_LO : Nat := 0x900020
abbrev R.DC_FRAME_COUNT_HI : Nat := 0x900024
abbrev R.DC_FRAME_STATUS_i (n : Nat) : Nat := 0x900040 + 0x4 * n
abbrev R.DC_AUX_CTRL : Nat := 0x900100
abbrev R.DC_AUX_STATUS : Nat := 0x900104
abbrev R.DC_AUX_DATA_i (n : Nat) : Nat := 0x900110 + 0x4 * n
abbrev R.BL_LINK_n_CTRL (n : Nat) : Nat := 0xa00000 + 0x100 * n
abbrev R.BL_LINK_n_STATE (n : Nat) : Nat := 0xa00004 + 0x100 * n
abbrev R.BL_LINK_n_ERR (n : Nat) : Nat := 0xa00008 + 0x100 * n
abbrev R.BL_ROUTE : Nat := 0xa00400
abbrev R.BL_POD : Nat := 0xa00404
abbrev R.BL_EVENT_CTRL : Nat := 0xa00408
abbrev R.BL_MALFORMED : Nat := 0xa0040c
abbrev R.MB_CFG : Nat := 0xb00000
abbrev R.MB_HR_REPEAT : Nat := 0xb00004
abbrev R.MB_ATTENTION : Nat := 0xb00008
abbrev R.MB_ATTENTION_EN : Nat := 0xb0000c
abbrev R.MB_HOST_ATTN : Nat := 0xb00010
abbrev R.MB_STATUS : Nat := 0xb00014
abbrev R.MB_EVENT_CTRL : Nat := 0xb00018
abbrev R.MB_CTL_CMD : Nat := 0xb00020
abbrev R.MB_CTL_COUNT : Nat := 0xb00024
abbrev R.MB_CTL_CTRL : Nat := 0xb00028
abbrev R.MB_CTL_STATUS : Nat := 0xb0002c
abbrev R.MB_CTL_DATA_i (n : Nat) : Nat := 0xb00040 + 0x4 * n
abbrev R.KA_STATUS : Nat := 0xc00000
abbrev R.KA_CELL_V : Nat := 0xc00004
abbrev R.KA_PV : Nat := 0xc00008
abbrev R.KA_TEMP : Nat := 0xc0000c
abbrev R.KA_CFG : Nat := 0xc00010
abbrev R.KA_PROT : Nat := 0xc00014
abbrev R.KA_COARSE_LO : Nat := 0xc00018
abbrev R.KA_COARSE_HI : Nat := 0xc0001c
abbrev R.KA_EPOCH : Nat := 0xc00020
abbrev R.KA_LOG_COUNT : Nat := 0xc00024
abbrev R.KA_LOG_SELECT : Nat := 0xc00028
abbrev R.KA_LOG_DATA_i (n : Nat) : Nat := 0xc00040 + 0x4 * n
abbrev R.VR_STATUS : Nat := 0xd00000
abbrev R.VR_PHASE_FAULT : Nat := 0xd00004
abbrev R.VR_PHASE_RETRY : Nat := 0xd00008
abbrev R.VR_VOLTAGE : Nat := 0xd0000c
abbrev R.VR_CFG : Nat := 0xd00010
abbrev R.VR_V_LIMITS : Nat := 0xd00014
abbrev R.VR_TMON : Nat := 0xd00018
abbrev R.VR_TOTAL_I : Nat := 0xd0001c
abbrev R.VR_PHASE_n_I (n : Nat) : Nat := 0xd00020 + 0x4 * n
abbrev R.VR_EVENT_CTRL : Nat := 0xd00040
abbrev R.PM_VF_n (n : Nat) : Nat := 0xe00000 + 0x4 * n
abbrev R.PM_CLUSTER_n_FREQ (n : Nat) : Nat := 0xe00100 + 0x4 * n
abbrev R.PM_FREQ_HELD : Nat := 0xe00140
abbrev R.PM_CEILINGS : Nat := 0xe00144
abbrev R.PM_LOSS_CEIL : Nat := 0xe00148
abbrev R.PM_THERM_CFG : Nat := 0xe00150
abbrev R.PM_THERM_GAIN : Nat := 0xe00154
abbrev R.PM_THERM_STATUS : Nat := 0xe00158
abbrev R.PM_POWER_CAP : Nat := 0xe00160
abbrev R.PM_POWER_TAU : Nat := 0xe00164
abbrev R.PM_POWER_STATUS : Nat := 0xe00168
abbrev R.PM_POWER_BURST : Nat := 0xe0016c
abbrev R.PM_STATE : Nat := 0xe00300
abbrev R.PM_RC_CFG : Nat := 0xe00304
abbrev R.PM_LAST_WAKE : Nat := 0xe00308
abbrev R.PM_CLUSTER_STOP_DELAY : Nat := 0xe0030c
abbrev R.PM_CLUSTER_STOPPED : Nat := 0xe00310
abbrev R.FL_DEVICE_FAULT : Nat := 0xf00000
abbrev R.FL_DEVICE_FAULT_DETAIL_0 : Nat := 0xf00004
abbrev R.FL_DEVICE_FAULT_DETAIL_1 : Nat := 0xf00008
abbrev R.FL_DISCARD_BUSY_i (n : Nat) : Nat := 0xf00010 + 0x4 * n
abbrev R.FL_TRACE_CTRL : Nat := 0xf00100
abbrev R.FL_TRACE_BASE_LO : Nat := 0xf00104
abbrev R.FL_TRACE_BASE_HI : Nat := 0xf00108
abbrev R.FL_TRACE_SIZE : Nat := 0xf0010c
abbrev R.FL_TRACE_SELECT_LO : Nat := 0xf00110
abbrev R.FL_TRACE_SELECT_HI : Nat := 0xf00114
abbrev R.FL_TRACE_WRITTEN : Nat := 0xf00118
abbrev R.FL_TRACE_READ : Nat := 0xf0011c
abbrev R.DC_LAYER_n_CTRL (n : Nat) : Nat := 0x900400 + 0x80 * n
abbrev R.DC_LAYER_n_SRC_POS (n : Nat) : Nat := 0x900404 + 0x80 * n
abbrev R.DC_LAYER_n_SRC_SIZE (n : Nat) : Nat := 0x900408 + 0x80 * n
abbrev R.DC_LAYER_n_DST_POS (n : Nat) : Nat := 0x90040c + 0x80 * n
abbrev R.DC_LAYER_n_DST_SIZE (n : Nat) : Nat := 0x900410 + 0x80 * n
abbrev R.DC_LAYER_n_ALPHA (n : Nat) : Nat := 0x900414 + 0x80 * n
abbrev R.DC_LAYER_n_CONST (n : Nat) : Nat := 0x900418 + 0x80 * n
/-- `DC_LAYER_n_CSC_k` (Table 14.7). -/
abbrev R.DC_LAYER_n_CSC_k (n k : Nat) : Nat := 0x900420 + 0x80 * n + 4 * k
abbrev R.DC_LAYER_n_CSC_IN_OFF (n : Nat) : Nat := 0x900444 + 0x80 * n
abbrev R.DC_LAYER_n_CSC_OUT_OFF (n : Nat) : Nat := 0x900448 + 0x80 * n

abbrev F.CP_BOOT_STATUS.DONE : Fld := (0, 0)
abbrev F.CP_BOOT_STATUS.IMAGE_SOURCE : Fld := (2, 1)
abbrev F.CP_BOOT_STATUS.IMAGE_OUTCOME : Fld := (5, 3)
abbrev F.CP_BOOT_STATUS.FLASH_PRESENT : Fld := (6, 6)
abbrev F.CP_BOOT_STATUS.FLASH_QUAD : Fld := (7, 7)
abbrev F.CP_BOOT_STATUS.POD_ID : Fld := (9, 8)
abbrev F.CP_BOOT_STATUS.ECC_EN : Fld := (10, 10)
abbrev F.CP_BOOT_STATUS.NB_ACTIVE : Fld := (11, 11)
abbrev F.CP_STAGE_CTRL.STAGE_EN : Fld := (0, 0)
abbrev F.CP_CONFIG_RESULT.STATUS : Fld := (15, 0)
abbrev F.CP_CONFIG_RESULT.REJECTED_COUNT : Fld := (31, 16)
abbrev F.CP_IMAGE_SERIAL.SERIAL : Fld := (31, 0)
abbrev F.CP_IMAGE_VERSION.MINOR : Fld := (15, 0)
abbrev F.CP_IMAGE_VERSION.MAJOR : Fld := (31, 16)
abbrev F.CP_OTP_STATUS.SLOT_PROGRAMMED : Fld := (0, 0)
abbrev F.CP_OTP_STATUS.READ_ERROR : Fld := (1, 1)
abbrev F.CP_OTP_STATUS.PROG_BUSY : Fld := (2, 2)
abbrev F.CP_OTP_STATUS.PROG_FAIL : Fld := (3, 3)
abbrev F.CP_OTP_DIGEST_n.DIGEST : Fld := (31, 0)
abbrev F.CP_OTP_PROG_DATA_n.DATA : Fld := (31, 0)
abbrev F.CP_OTP_PROG_CTRL.START : Fld := (0, 0)
abbrev F.CP_OTP_PROG_CTRL.UNLOCK : Fld := (31, 16)
abbrev F.HI_RING_BASE_LO.ADDR : Fld := (31, 0)
abbrev F.HI_RING_BASE_HI.ADDR : Fld := (15, 0)
abbrev F.HI_RING_SIZE.LOG2 : Fld := (4, 0)
abbrev F.HI_RING_HEAD.COUNT : Fld := (31, 0)
abbrev F.HI_RING_TAIL.COUNT : Fld := (31, 0)
abbrev F.HI_DOORBELL.TAIL : Fld := (31, 0)
abbrev F.HI_REPLY_BASE_LO.ADDR : Fld := (31, 0)
abbrev F.HI_REPLY_BASE_HI.ADDR : Fld := (15, 0)
abbrev F.HI_REPLY_SIZE.LOG2 : Fld := (4, 0)
abbrev F.HI_REPLY_TAIL.COUNT : Fld := (31, 0)
abbrev F.HI_REPLY_HEAD.COUNT : Fld := (31, 0)
abbrev F.HI_FENCE_BASE_LO.ADDR : Fld := (31, 0)
abbrev F.HI_FENCE_BASE_HI.ADDR : Fld := (15, 0)
abbrev F.HI_MSIX_FENCE_MAP_n.VECTOR_0 : Fld := (3, 0)
abbrev F.HI_MSIX_FENCE_MAP_n.VECTOR_1 : Fld := (11, 8)
abbrev F.HI_MSIX_FENCE_MAP_n.VECTOR_2 : Fld := (19, 16)
abbrev F.HI_MSIX_FENCE_MAP_n.VECTOR_3 : Fld := (27, 24)
abbrev F.HI_MSIX_FENCE_MAP_n.EN_0 : Fld := (7, 7)
abbrev F.HI_MSIX_FENCE_MAP_n.EN_1 : Fld := (15, 15)
abbrev F.HI_MSIX_FENCE_MAP_n.EN_2 : Fld := (23, 23)
abbrev F.HI_MSIX_FENCE_MAP_n.EN_3 : Fld := (31, 31)
abbrev F.HI_MSIX_EVENT_MAP.HALT_VEC : Fld := (3, 0)
abbrev F.HI_MSIX_EVENT_MAP.HALT_EN : Fld := (7, 7)
abbrev F.HI_MSIX_EVENT_MAP.REPLY_VEC : Fld := (11, 8)
abbrev F.HI_MSIX_EVENT_MAP.REPLY_EN : Fld := (15, 15)
abbrev F.HI_MSIX_EVENT_MAP.FULL_VEC : Fld := (19, 16)
abbrev F.HI_MSIX_EVENT_MAP.FULL_EN : Fld := (23, 23)
abbrev F.HI_MSIX_EVENT_MAP.DBERR_VEC : Fld := (27, 24)
abbrev F.HI_MSIX_EVENT_MAP.DBERR_EN : Fld := (31, 31)
abbrev F.HI_FN_CTRL.RING_EN : Fld := (0, 0)
abbrev F.HI_FN_CTRL.STOP : Fld := (1, 1)
abbrev F.HI_FN_CTRL.RING_RESET : Fld := (2, 2)
abbrev F.HI_FN_STATUS.ENABLED : Fld := (0, 0)
abbrev F.HI_FN_STATUS.STOPPED : Fld := (1, 1)
abbrev F.HI_FN_STATUS.HALTED : Fld := (2, 2)
abbrev F.HI_FN_STATUS.IDLE : Fld := (3, 3)
abbrev F.HI_FN_STATUS.REPLY_FULL : Fld := (4, 4)
abbrev F.HI_FN_STATUS.DOORBELL_ERR : Fld := (5, 5)
abbrev F.HI_FN_STATUS.ENABLE_ERR : Fld := (6, 6)
abbrev F.HI_FN_STATUS.HALT_STATUS : Fld := (31, 16)
abbrev F.HI_FN_ENABLE_STATUS.STATUS : Fld := (15, 0)
abbrev F.HI_WRITE_REJECT.COUNT : Fld := (31, 0)
abbrev F.HI_APERTURE_BASE.ADDR : Fld := (31, 26)
abbrev F.HI_APERTURE_BASE_HI.ADDR : Fld := (5, 0)
abbrev F.HI_PCIE_LINK.SPEED : Fld := (3, 0)
abbrev F.HI_PCIE_LINK.WIDTH : Fld := (8, 4)
abbrev F.HI_FN_TABLE_f_STATUS.STATUS : Fld := (31, 0)
abbrev F.CP_LAST_REFUSAL_0.STATUS : Fld := (15, 0)
abbrev F.CP_LAST_REFUSAL_0.OPCODE : Fld := (23, 16)
abbrev F.CP_LAST_REFUSAL_0.FUNCTION : Fld := (30, 24)
abbrev F.CP_LAST_REFUSAL_0.VALID : Fld := (31, 31)
abbrev F.CP_LAST_REFUSAL_1.POSITION : Fld := (31, 0)
abbrev F.TT_QUANTUM.QUANTUM : Fld := (23, 0)
abbrev F.TT_STANDBY.COUNT : Fld := (2, 0)
abbrev F.TT_STANDBY.PENDING : Fld := (3, 3)
abbrev F.TT_AGE_2.WAIT : Fld := (23, 0)
abbrev F.TT_AGE_3.WAIT : Fld := (23, 0)
abbrev F.TT_QUEUED_c.JOBS : Fld := (15, 0)
abbrev F.TT_QUEUED_c.RUNNING : Fld := (31, 16)
abbrev F.TT_LATE_COUNT.COUNT : Fld := (31, 0)
abbrev F.TT_CLUSTER_BUSY.BUSY : Fld := (15, 0)
abbrev F.TT_CLUSTER_BUSY.IDLE_READY : Fld := (31, 16)
abbrev F.MT_ROOT_f_LO.ADDR : Fld := (31, 12)
abbrev F.MT_ROOT_f_HI.ADDR : Fld := (5, 0)
abbrev F.MT_ROOT_f_CTRL.EN : Fld := (0, 0)
abbrev F.MT_ROOT_f_CTRL.L1_LOG2 : Fld := (8, 4)
abbrev F.MT_INVAL_FN.FUNCTION : Fld := (6, 0)
abbrev F.MT_INVAL_FN.ALL : Fld := (7, 7)
abbrev F.MT_INVAL_VA_LO.ADDR : Fld := (31, 21)
abbrev F.MT_INVAL_VA_HI.ADDR : Fld := (15, 0)
abbrev F.MT_INVAL_PAGES.COUNT : Fld := (27, 0)
abbrev F.MT_INVAL_CTRL.START : Fld := (0, 0)
abbrev F.MT_INVAL_STATUS.BUSY : Fld := (0, 0)
abbrev F.MT_INVAL_STATUS.HELD : Fld := (1, 1)
abbrev F.MT_PRI_TIMEOUT.MS : Fld := (9, 0)
abbrev F.MT_POD_ALLOW_p_LO.WINDOWS : Fld := (31, 0)
abbrev F.MT_POD_ALLOW_p_HI.WINDOWS : Fld := (31, 0)
abbrev F.MT_MALFORMED_COUNT.COUNT : Fld := (31, 0)
abbrev F.MT_PRI_REQUESTS.COUNT : Fld := (31, 0)
abbrev F.MT_PRI_FAILURES.COUNT : Fld := (31, 0)
abbrev F.MT_ATS_HELD.COUNT : Fld := (5, 0)
abbrev F.HI_FN_XLATE_FAULT_0.ADDR_LO : Fld := (31, 0)
abbrev F.HI_FN_XLATE_FAULT_1.ADDR_HI : Fld := (15, 0)
abbrev F.HI_FN_XLATE_FAULT_1.DST : Fld := (16, 16)
abbrev F.HI_FN_XLATE_FAULT_1.VALID : Fld := (31, 31)
abbrev F.HI_FN_XLATE_FAULT_2.STATUS : Fld := (15, 0)
abbrev F.HI_FN_XLATE_FAULT_3.POSITION : Fld := (31, 0)
abbrev F.SC_CARVE.SCRATCH_WAYS : Fld := (3, 0)
abbrev F.SC_CARVE.PENCIL_WAYS : Fld := (11, 8)
abbrev F.SC_CARVE_STATUS.BUSY : Fld := (0, 0)
abbrev F.SC_CARVE_STATUS.SCRATCH_WAYS : Fld := (7, 4)
abbrev F.SC_CARVE_STATUS.PENCIL_WAYS : Fld := (11, 8)
abbrev F.SC_CARVE_STATUS.BLOCKS_USED : Fld := (20, 12)
abbrev F.SC_REPLACE.RANDOM : Fld := (15, 0)
abbrev F.SC_PF_CTRL.EN_CLUSTER : Fld := (0, 0)
abbrev F.SC_PF_CTRL.EN_COPY : Fld := (1, 1)
abbrev F.SC_PF_CTRL.TRAIN : Fld := (6, 4)
abbrev F.SC_PF_CTRL.DEPTH : Fld := (13, 8)
abbrev F.SC_PF_CTRL.QUEUE_LIMIT : Fld := (23, 16)
abbrev F.CE_ENG_n_CTRL.ANY_EXCLUDE : Fld := (0, 0)
abbrev F.CE_ENG_n_CTRL.RATE_CAP : Fld := (13, 8)
abbrev F.CE_ENG_n_CTRL.PENDING : Fld := (16, 16)
abbrev F.CE_ENG_n_STATUS.QUEUED : Fld := (6, 0)
abbrev F.CE_ENG_n_STATUS.RUNNING : Fld := (7, 7)
abbrev F.CE_ENG_n_STATUS.HELD : Fld := (9, 8)
abbrev F.CE_ENG_n_STATUS.FUNCTION : Fld := (22, 16)
abbrev F.TX_CLUSTER_n_CTRL.TRACE_TILES : Fld := (0, 0)
abbrev F.TX_CLUSTER_n_CTRL.SLATE_SCRUB : Fld := (8, 8)
abbrev F.TX_CLUSTER_n_CTRL.PENDING : Fld := (16, 16)
abbrev F.TX_CLUSTER_n_STATUS.ARRAY_BUSY : Fld := (0, 0)
abbrev F.TX_CLUSTER_n_STATUS.VECTOR_BUSY : Fld := (1, 1)
abbrev F.TX_CLUSTER_n_STATUS.OP : Fld := (15, 4)
abbrev F.TX_CLUSTER_n_STATUS.FUNCTION : Fld := (22, 16)
abbrev F.TX_CLUSTER_n_TILES.COUNT : Fld := (31, 0)
abbrev F.SC_PENCIL_STATUS.GRANULES : Fld := (12, 0)
abbrev F.SC_PENCIL_STATUS.WAITING : Fld := (31, 16)
abbrev F.TX_CLUSTER_n_PENCIL_TILES.COUNT : Fld := (31, 0)
abbrev F.HI_FN_SHADER_TRAP_0.CAUSE : Fld := (3, 0)
abbrev F.HI_FN_SHADER_TRAP_0.OP : Fld := (19, 8)
abbrev F.HI_FN_SHADER_TRAP_0.PROGRAM_ID : Fld := (31, 20)
abbrev F.HI_FN_SHADER_TRAP_1.PC : Fld := (14, 0)
abbrev F.HI_FN_SHADER_TRAP_1.LANE : Fld := (20, 16)
abbrev F.HI_FN_SHADER_TRAP_1.WAVE : Fld := (23, 21)
abbrev F.HI_FN_SHADER_TRAP_1.CORE : Fld := (25, 24)
abbrev F.HI_FN_SHADER_TRAP_1.CLUSTER : Fld := (29, 26)
abbrev F.HI_FN_SHADER_TRAP_1.EARLY : Fld := (30, 30)
abbrev F.HI_FN_SHADER_TRAP_1.VALID : Fld := (31, 31)
abbrev F.HI_FN_SHADER_TRAP_2.DETAIL : Fld := (31, 0)
abbrev F.HI_FN_SHADER_TRAP_3.POSITION : Fld := (31, 0)
abbrev F.SH_CORE_k_STATUS.WAVES : Fld := (3, 0)
abbrev F.SH_CORE_k_STATUS.GROUPS : Fld := (7, 4)
abbrev F.SH_CORE_k_STATUS.FUNCTION : Fld := (14, 8)
abbrev F.SH_CORE_k_STATUS.OP : Fld := (26, 15)
abbrev F.TB_STATUS.QUEUED : Fld := (4, 0)
abbrev F.TB_STATUS.BUSY : Fld := (5, 5)
abbrev F.TB_STATUS.SHADING : Fld := (6, 6)
abbrev F.TB_STATUS.FUNCTION : Fld := (14, 8)
abbrev F.TB_STATUS.PASS : Fld := (31, 16)
abbrev F.TB_LAST_ERROR_0.STATUS : Fld := (15, 0)
abbrev F.TB_LAST_ERROR_0.FUNCTION : Fld := (22, 16)
abbrev F.TB_LAST_ERROR_0.VALID : Fld := (31, 31)
abbrev F.TB_LAST_ERROR_1.RECORD : Fld := (16, 0)
abbrev F.TB_LAST_ERROR_2.POSITION : Fld := (31, 0)
abbrev F.DC_STATUS.SOURCE : Fld := (1, 0)
abbrev F.DC_STATUS.DP_ACTIVE : Fld := (2, 2)
abbrev F.DC_STATUS.HPD : Fld := (3, 3)
abbrev F.DC_STATUS.CONFIG_BUSY : Fld := (4, 4)
abbrev F.DC_STATUS.PENDING : Fld := (5, 5)
abbrev F.DC_LATCH_LEAD.US : Fld := (10, 0)
abbrev F.DC_BG_COLOUR.RGB : Fld := (29, 0)
abbrev F.DC_WB_CTRL.BUFFERS : Fld := (2, 0)
abbrev F.DC_WB_CTRL.FORMAT : Fld := (4, 4)
abbrev F.DC_WB_STATUS.LAST_SLOT : Fld := (1, 0)
abbrev F.DC_EVENT_CTRL.VECTOR : Fld := (3, 0)
abbrev F.DC_EVENT_CTRL.EN : Fld := (4, 4)
abbrev F.DC_EVENT_STATUS.FRAME : Fld := (0, 0)
abbrev F.DC_EVENT_STATUS.HPD_LOST : Fld := (1, 1)
abbrev F.DC_EVENT_STATUS.TRAIN_FAIL : Fld := (2, 2)
abbrev F.DC_EVENT_STATUS.UNDERRUN : Fld := (3, 3)
abbrev F.DC_EVENT_STATUS.INVALID : Fld := (4, 4)
abbrev F.DC_FRAME_COUNT_LO.COUNT : Fld := (31, 0)
abbrev F.DC_FRAME_COUNT_HI.COUNT : Fld := (31, 0)
abbrev F.DC_FRAME_STATUS_i.DW : Fld := (31, 0)
abbrev F.DC_AUX_CTRL.ADDR : Fld := (19, 0)
abbrev F.DC_AUX_CTRL.LEN_M1 : Fld := (23, 20)
abbrev F.DC_AUX_CTRL.CMD : Fld := (25, 24)
abbrev F.DC_AUX_CTRL.MOT : Fld := (26, 26)
abbrev F.DC_AUX_CTRL.START : Fld := (31, 31)
abbrev F.DC_AUX_STATUS.BUSY : Fld := (0, 0)
abbrev F.DC_AUX_STATUS.REPLY : Fld := (2, 1)
abbrev F.DC_AUX_STATUS.COUNT : Fld := (7, 3)
abbrev F.DC_AUX_DATA_i.DATA : Fld := (31, 0)
abbrev F.BL_LINK_n_CTRL.EN : Fld := (0, 0)
abbrev F.BL_LINK_n_CTRL.AUTO_RETRY : Fld := (1, 1)
abbrev F.BL_LINK_n_CTRL.RETRAIN : Fld := (2, 2)
abbrev F.BL_LINK_n_CTRL.MAX_WIDTH : Fld := (4, 3)
abbrev F.BL_LINK_n_CTRL.PENDING : Fld := (8, 8)
abbrev F.BL_LINK_n_STATE.STATE : Fld := (2, 0)
abbrev F.BL_LINK_n_STATE.WIDTH : Fld := (4, 3)
abbrev F.BL_LINK_n_STATE.PEER_POD : Fld := (6, 5)
abbrev F.BL_LINK_n_STATE.PEER_PORT : Fld := (8, 7)
abbrev F.BL_LINK_n_STATE.REVERSED : Fld := (9, 9)
abbrev F.BL_LINK_n_STATE.LANES_LOCKED : Fld := (17, 10)
abbrev F.BL_LINK_n_ERR.REPLAYS : Fld := (7, 0)
abbrev F.BL_LINK_n_ERR.WARN : Fld := (8, 8)
abbrev F.BL_LINK_n_ERR.RETRAINED : Fld := (9, 9)
abbrev F.BL_LINK_n_ERR.DOWN : Fld := (10, 10)
abbrev F.BL_LINK_n_ERR.CONFLICT : Fld := (11, 11)
abbrev F.BL_ROUTE.PORT_0 : Fld := (1, 0)
abbrev F.BL_ROUTE.PORT_1 : Fld := (9, 8)
abbrev F.BL_ROUTE.PORT_2 : Fld := (17, 16)
abbrev F.BL_ROUTE.PORT_3 : Fld := (25, 24)
abbrev F.BL_ROUTE.VIA_0 : Fld := (3, 2)
abbrev F.BL_ROUTE.VIA_1 : Fld := (11, 10)
abbrev F.BL_ROUTE.VIA_2 : Fld := (19, 18)
abbrev F.BL_ROUTE.VIA_3 : Fld := (27, 26)
abbrev F.BL_ROUTE.RELAYED_0 : Fld := (4, 4)
abbrev F.BL_ROUTE.RELAYED_1 : Fld := (12, 12)
abbrev F.BL_ROUTE.RELAYED_2 : Fld := (20, 20)
abbrev F.BL_ROUTE.RELAYED_3 : Fld := (28, 28)
abbrev F.BL_ROUTE.REACH_0 : Fld := (5, 5)
abbrev F.BL_ROUTE.REACH_1 : Fld := (13, 13)
abbrev F.BL_ROUTE.REACH_2 : Fld := (21, 21)
abbrev F.BL_ROUTE.REACH_3 : Fld := (29, 29)
abbrev F.BL_POD.MEMBERS : Fld := (3, 0)
abbrev F.BL_POD.INCARNATION : Fld := (31, 16)
abbrev F.BL_EVENT_CTRL.VECTOR : Fld := (3, 0)
abbrev F.BL_EVENT_CTRL.EN : Fld := (4, 4)
abbrev F.BL_MALFORMED.COUNT : Fld := (31, 0)
abbrev F.MB_CFG.SLEEP_MODE : Fld := (0, 0)
abbrev F.MB_CFG.PEC_REQUIRED : Fld := (1, 1)
abbrev F.MB_CFG.HR_EN : Fld := (2, 2)
abbrev F.MB_CFG.REG_WR_EN : Fld := (3, 3)
abbrev F.MB_CFG.CTL_EN : Fld := (4, 4)
abbrev F.MB_CFG.CTL_SPEED : Fld := (6, 5)
abbrev F.MB_CFG.RETRIES : Fld := (8, 7)
abbrev F.MB_CFG.RETRY_DELAY : Fld := (12, 9)
abbrev F.MB_CFG.ADDR_BASE : Fld := (22, 16)
abbrev F.MB_HR_REPEAT.MS : Fld := (15, 0)
abbrev F.MB_ATTENTION.SOURCES : Fld := (9, 0)
abbrev F.MB_ATTENTION_EN.EN : Fld := (9, 0)
abbrev F.MB_HOST_ATTN.SET : Fld := (0, 0)
abbrev F.MB_STATUS.ADDRESS : Fld := (6, 0)
abbrev F.MB_STATUS.HR_PENDING : Fld := (7, 7)
abbrev F.MB_STATUS.IN_TRANSACTION : Fld := (8, 8)
abbrev F.MB_EVENT_CTRL.VECTOR : Fld := (3, 0)
abbrev F.MB_EVENT_CTRL.EN : Fld := (4, 4)
abbrev F.MB_CTL_CMD.TARGET_ADDR : Fld := (6, 0)
abbrev F.MB_CTL_CMD.CODE : Fld := (15, 8)
abbrev F.MB_CTL_CMD.PROTOCOL : Fld := (19, 16)
abbrev F.MB_CTL_CMD.PEC : Fld := (20, 20)
abbrev F.MB_CTL_CMD.WR_COUNT : Fld := (29, 24)
abbrev F.MB_CTL_COUNT.RD_COUNT : Fld := (5, 0)
abbrev F.MB_CTL_CTRL.START : Fld := (0, 0)
abbrev F.MB_CTL_STATUS.STATUS : Fld := (15, 0)
abbrev F.MB_CTL_STATUS.BUSY : Fld := (16, 16)
abbrev F.MB_CTL_STATUS.PEC_BAD : Fld := (17, 17)
abbrev F.MB_CTL_STATUS.TIMEOUT : Fld := (18, 18)
abbrev F.MB_CTL_STATUS.TRIES : Fld := (21, 19)
abbrev F.MB_CTL_STATUS.RD_LEN : Fld := (27, 22)
abbrev F.MB_CTL_STATUS.DONE_EVT : Fld := (31, 31)
abbrev F.MB_CTL_DATA_i.DATA : Fld := (31, 0)
abbrev F.KA_STATUS.SOURCE : Fld := (1, 0)
abbrev F.KA_STATUS.LOAD_EN : Fld := (2, 2)
abbrev F.KA_STATUS.CASE_0 : Fld := (3, 3)
abbrev F.KA_STATUS.CASE_1 : Fld := (4, 4)
abbrev F.KA_STATUS.HARV_STATE : Fld := (7, 5)
abbrev F.KA_STATUS.CELL_CONNECTED : Fld := (8, 8)
abbrev F.KA_STATUS.CHARGING : Fld := (9, 9)
abbrev F.KA_STATUS.CELL_FULL : Fld := (10, 10)
abbrev F.KA_STATUS.XTAL_FAIL : Fld := (11, 11)
abbrev F.KA_CELL_V.CELL_MV : Fld := (15, 0)
abbrev F.KA_CELL_V.PRI_MV : Fld := (31, 16)
abbrev F.KA_PV.VOC_MV : Fld := (15, 0)
abbrev F.KA_PV.TARGET_MV : Fld := (31, 16)
abbrev F.KA_TEMP.CELL_T : Fld := (15, 0)
abbrev F.KA_TEMP.NTC_ABSENT : Fld := (16, 16)
abbrev F.KA_CFG.FOCV_RATIO : Fld := (6, 0)
abbrev F.KA_CFG.CHARGE_CURRENT : Fld := (15, 8)
abbrev F.KA_CFG.CASE_WAKE_EN : Fld := (16, 16)
abbrev F.KA_CFG.HARV_EN : Fld := (17, 17)
abbrev F.KA_PROT.OV : Fld := (0, 0)
abbrev F.KA_PROT.UV : Fld := (1, 1)
abbrev F.KA_PROT.OC : Fld := (2, 2)
abbrev F.KA_PROT.OC_LATCH : Fld := (3, 3)
abbrev F.KA_PROT.TEMP : Fld := (4, 4)
abbrev F.KA_COARSE_LO.COUNT : Fld := (31, 0)
abbrev F.KA_COARSE_HI.COUNT : Fld := (15, 0)
abbrev F.KA_EPOCH.EPOCH : Fld := (15, 0)
abbrev F.KA_EPOCH.INCARNATION : Fld := (31, 16)
abbrev F.KA_LOG_COUNT.COUNT : Fld := (11, 0)
abbrev F.KA_LOG_COUNT.NEXT_SEQ : Fld := (31, 16)
abbrev F.KA_LOG_SELECT.INDEX : Fld := (10, 0)
abbrev F.KA_LOG_DATA_i.DATA : Fld := (31, 0)
abbrev F.VR_STATUS.STATE : Fld := (1, 0)
abbrev F.VR_STATUS.LOST : Fld := (11, 8)
abbrev F.VR_STATUS.SWITCHING : Fld := (23, 16)
abbrev F.VR_PHASE_FAULT.OPEN : Fld := (7, 0)
abbrev F.VR_PHASE_FAULT.SENSE : Fld := (15, 8)
abbrev F.VR_PHASE_FAULT.EVT : Fld := (16, 16)
abbrev F.VR_PHASE_RETRY.PHASES : Fld := (7, 0)
abbrev F.VR_VOLTAGE.TARGET_MV : Fld := (9, 0)
abbrev F.VR_VOLTAGE.MEAS_MV : Fld := (25, 16)
abbrev F.VR_CFG.SLEW : Fld := (5, 0)
abbrev F.VR_CFG.ILIM : Fld := (13, 8)
abbrev F.VR_CFG.DROOP_MV : Fld := (22, 16)
abbrev F.VR_CFG.SHED_EN : Fld := (23, 23)
abbrev F.VR_CFG.OPEN_DI : Fld := (28, 24)
abbrev F.VR_V_LIMITS.V_MAX : Fld := (6, 0)
abbrev F.VR_V_LIMITS.V_FLOOR : Fld := (14, 8)
abbrev F.VR_TMON.TEMP : Fld := (15, 0)
abbrev F.VR_TMON.TMON_WARN : Fld := (23, 16)
abbrev F.VR_TOTAL_I.CURRENT : Fld := (11, 0)
abbrev F.VR_PHASE_n_I.CURRENT : Fld := (9, 0)
abbrev F.VR_EVENT_CTRL.VECTOR : Fld := (3, 0)
abbrev F.VR_EVENT_CTRL.EN : Fld := (4, 4)
abbrev F.PM_VF_n.CODE : Fld := (6, 0)
abbrev F.PM_CLUSTER_n_FREQ.REQ : Fld := (5, 0)
abbrev F.PM_CLUSTER_n_FREQ.CUR : Fld := (13, 8)
abbrev F.PM_CLUSTER_n_FREQ.LIMIT : Fld := (18, 16)
abbrev F.PM_FREQ_HELD.HELD : Fld := (15, 0)
abbrev F.PM_CEILINGS.THERMAL : Fld := (5, 0)
abbrev F.PM_CEILINGS.POWER : Fld := (13, 8)
abbrev F.PM_CEILINGS.LOSS : Fld := (21, 16)
abbrev F.PM_LOSS_CEIL.ONE : Fld := (5, 0)
abbrev F.PM_LOSS_CEIL.TWO : Fld := (13, 8)
abbrev F.PM_LOSS_CEIL.THREE : Fld := (21, 16)
abbrev F.PM_THERM_CFG.SET_C : Fld := (7, 0)
abbrev F.PM_THERM_CFG.TRIP_C : Fld := (15, 8)
abbrev F.PM_THERM_GAIN.KP : Fld := (15, 0)
abbrev F.PM_THERM_GAIN.KI : Fld := (31, 16)
abbrev F.PM_THERM_STATUS.T_HOT : Fld := (15, 0)
abbrev F.PM_THERM_STATUS.SENSOR : Fld := (20, 16)
abbrev F.PM_THERM_STATUS.THROTTLING : Fld := (21, 21)
abbrev F.PM_THERM_STATUS.INTEG : Fld := (31, 22)
abbrev F.PM_POWER_CAP.SUST_W : Fld := (7, 0)
abbrev F.PM_POWER_CAP.BURST_W : Fld := (15, 8)
abbrev F.PM_POWER_CAP.OTHER_W : Fld := (23, 16)
abbrev F.PM_POWER_TAU.SUST_TAU_MS : Fld := (13, 0)
abbrev F.PM_POWER_STATUS.P_INST : Fld := (15, 0)
abbrev F.PM_POWER_STATUS.P_SUST : Fld := (31, 16)
abbrev F.PM_POWER_BURST.P_BURST : Fld := (15, 0)
abbrev F.PM_STATE.STATE : Fld := (2, 0)
abbrev F.PM_STATE.IN_ROLL_CALL : Fld := (3, 3)
abbrev F.PM_STATE.COORDINATOR : Fld := (5, 4)
abbrev F.PM_STATE.ROUND : Fld := (31, 16)
abbrev F.PM_RC_CFG.TIMEOUT_US : Fld := (7, 0)
abbrev F.PM_RC_CFG.ALLOW_SLEEP : Fld := (8, 8)
abbrev F.PM_RC_CFG.ALLOW_DEEP : Fld := (9, 9)
abbrev F.PM_LAST_WAKE.SOURCE : Fld := (2, 0)
abbrev F.PM_LAST_WAKE.LATCHED : Fld := (3, 3)
abbrev F.PM_LAST_WAKE.EXIT_US : Fld := (31, 16)
abbrev F.PM_CLUSTER_STOP_DELAY.US : Fld := (15, 0)
abbrev F.PM_CLUSTER_STOPPED.STOPPED : Fld := (15, 0)
abbrev F.FL_DEVICE_FAULT.CAUSE : Fld := (3, 0)
abbrev F.FL_DEVICE_FAULT.WEDGED : Fld := (4, 4)
abbrev F.FL_DEVICE_FAULT.REPLIES_LOST : Fld := (5, 5)
abbrev F.FL_DEVICE_FAULT.ISLAND : Fld := (15, 8)
abbrev F.FL_DEVICE_FAULT.VALID : Fld := (31, 31)
abbrev F.FL_DEVICE_FAULT_DETAIL_0.DETAIL : Fld := (31, 0)
abbrev F.FL_DEVICE_FAULT_DETAIL_1.DETAIL : Fld := (31, 0)
abbrev F.FL_DISCARD_BUSY_i.BUSY : Fld := (31, 0)
abbrev F.FL_TRACE_CTRL.EN : Fld := (0, 0)
abbrev F.FL_TRACE_CTRL.WRAP : Fld := (1, 1)
abbrev F.FL_TRACE_CTRL.FN_FILTER : Fld := (2, 2)
abbrev F.FL_TRACE_CTRL.FUNCTION : Fld := (9, 3)
abbrev F.FL_TRACE_CTRL.TAG_FILTER : Fld := (10, 10)
abbrev F.FL_TRACE_CTRL.ERR : Fld := (11, 11)
abbrev F.FL_TRACE_CTRL.TAG : Fld := (31, 16)
abbrev F.FL_TRACE_BASE_LO.ADDR : Fld := (31, 12)
abbrev F.FL_TRACE_BASE_HI.ADDR : Fld := (5, 0)
abbrev F.FL_TRACE_SIZE.LOG2 : Fld := (4, 0)
abbrev F.FL_TRACE_SELECT_LO.POINTS : Fld := (31, 0)
abbrev F.FL_TRACE_SELECT_HI.POINTS : Fld := (31, 0)
abbrev F.FL_TRACE_WRITTEN.COUNT : Fld := (31, 0)
abbrev F.FL_TRACE_READ.COUNT : Fld := (31, 0)
abbrev F.DC_LAYER_n_CTRL.EN : Fld := (0, 0)
abbrev F.DC_LAYER_n_CTRL.PER_FRAME : Fld := (1, 1)
abbrev F.DC_LAYER_n_CTRL.POLICY : Fld := (3, 2)
abbrev F.DC_LAYER_n_CTRL.CSC_EN : Fld := (4, 4)
abbrev F.DC_LAYER_n_CTRL.FORMAT : Fld := (15, 8)
abbrev F.DC_LAYER_n_CTRL.OWNER : Fld := (22, 16)
abbrev F.DC_LAYER_n_CTRL.PENDING : Fld := (24, 24)
abbrev F.DC_LAYER_n_SRC_POS.SRC_X : Fld := (15, 0)
abbrev F.DC_LAYER_n_SRC_POS.SRC_Y : Fld := (31, 16)
abbrev F.DC_LAYER_n_SRC_SIZE.SRC_W : Fld := (15, 0)
abbrev F.DC_LAYER_n_SRC_SIZE.SRC_H : Fld := (31, 16)
abbrev F.DC_LAYER_n_DST_POS.DST_X : Fld := (15, 0)
abbrev F.DC_LAYER_n_DST_POS.DST_Y : Fld := (31, 16)
abbrev F.DC_LAYER_n_DST_SIZE.DST_W : Fld := (15, 0)
abbrev F.DC_LAYER_n_DST_SIZE.DST_H : Fld := (31, 16)
abbrev F.DC_LAYER_n_ALPHA.ALPHA : Fld := (9, 0)
abbrev F.DC_LAYER_n_CONST.CONST : Fld := (29, 0)
abbrev F.DC_LAYER_n_CSC_k.M : Fld := (16, 0)
abbrev F.DC_LAYER_n_CSC_IN_OFF.A : Fld := (29, 0)
abbrev F.DC_LAYER_n_CSC_OUT_OFF.B : Fld := (29, 0)
abbrev F.DC_HCOEF.TAP_LO : Fld := (11, 0)
abbrev F.DC_HCOEF.TAP_HI : Fld := (27, 16)
abbrev F.DC_VCOEF.TAP_LO : Fld := (11, 0)
abbrev F.DC_VCOEF.TAP_HI : Fld := (27, 16)

/-- Registers with prefix CP. -/
def regRowsCP : List RegRow :=
  [⟨0x10f000, 0, 1, false, [⟨0, 0, .roH, 0⟩, ⟨2, 1, .roH, 0⟩, ⟨5, 3, .roH, 0⟩, ⟨6, 6, .roH, 0⟩, ⟨7, 7, .roH, 0⟩, ⟨9, 8, .ro, 0⟩, ⟨10, 10, .ro, 0⟩, ⟨11, 11, .roH, 0⟩]⟩,
   ⟨0x10f004, 0, 1, false, [⟨0, 0, .rwL, 0⟩]⟩,
   ⟨0x10f008, 0, 1, false, [⟨15, 0, .roH, 0⟩, ⟨31, 16, .roH, 0⟩]⟩,
   ⟨0x10f00c, 0, 1, false, [⟨31, 0, .roH, 0⟩]⟩,
   ⟨0x10f010, 0, 1, false, [⟨15, 0, .roH, 0⟩, ⟨31, 16, .roH, 0⟩]⟩,
   ⟨0x10f014, 0, 1, false, [⟨0, 0, .roH, 0⟩, ⟨1, 1, .roH, 0⟩, ⟨2, 2, .roH, 0⟩, ⟨3, 3, .w1c, 0⟩]⟩,
   ⟨0x10f020, 4, 8, false, [⟨31, 0, .roH, 0⟩]⟩,
   ⟨0x10f040, 4, 8, false, [⟨31, 0, .rwL, 0⟩]⟩,
   ⟨0x10f060, 0, 1, false, [⟨0, 0, .wo, 0⟩, ⟨31, 16, .wo, 0⟩]⟩,
   ⟨0x100000, 0, 1, false, [⟨15, 0, .roH, 0⟩, ⟨23, 16, .roH, 0⟩, ⟨30, 24, .roH, 0⟩, ⟨31, 31, .w1c, 0⟩]⟩,
   ⟨0x100004, 0, 1, false, [⟨31, 0, .roH, 0⟩]⟩]

/-- Registers with prefix HI. -/
def regRowsHI : List RegRow :=
  [⟨0x0, 0, 1, true, [⟨31, 0, .rwS, 0⟩]⟩,
   ⟨0x4, 0, 1, true, [⟨15, 0, .rwS, 0⟩]⟩,
   ⟨0x8, 0, 1, true, [⟨4, 0, .rwS, 6⟩]⟩,
   ⟨0xc, 0, 1, true, [⟨31, 0, .roH, 0⟩]⟩,
   ⟨0x10, 0, 1, true, [⟨31, 0, .roH, 0⟩]⟩,
   ⟨0x100, 0, 1, true, [⟨31, 0, .wo, 0⟩]⟩,
   ⟨0x200, 0, 1, true, [⟨31, 0, .rwS, 0⟩]⟩,
   ⟨0x204, 0, 1, true, [⟨15, 0, .rwS, 0⟩]⟩,
   ⟨0x208, 0, 1, true, [⟨4, 0, .rwS, 6⟩]⟩,
   ⟨0x20c, 0, 1, true, [⟨31, 0, .roH, 0⟩]⟩,
   ⟨0x210, 0, 1, true, [⟨31, 0, .rwL, 0⟩]⟩,
   ⟨0x300, 0, 1, true, [⟨31, 0, .rwS, 0⟩]⟩,
   ⟨0x304, 0, 1, true, [⟨15, 0, .rwS, 0⟩]⟩,
   ⟨0x400, 4, 4, true, [⟨3, 0, .rwL, 0⟩, ⟨7, 7, .rwL, 0⟩, ⟨11, 8, .rwL, 0⟩, ⟨15, 15, .rwL, 0⟩, ⟨19, 16, .rwL, 0⟩, ⟨23, 23, .rwL, 0⟩, ⟨27, 24, .rwL, 0⟩, ⟨31, 31, .rwL, 0⟩]⟩,
   ⟨0x410, 0, 1, true, [⟨3, 0, .rwL, 0⟩, ⟨7, 7, .rwL, 0⟩, ⟨11, 8, .rwL, 0⟩, ⟨15, 15, .rwL, 0⟩, ⟨19, 16, .rwL, 0⟩, ⟨23, 23, .rwL, 0⟩, ⟨27, 24, .rwL, 0⟩, ⟨31, 31, .rwL, 0⟩]⟩,
   ⟨0x500, 0, 1, true, [⟨0, 0, .rwL, 0⟩, ⟨1, 1, .rwL, 0⟩, ⟨2, 2, .wo, 0⟩]⟩,
   ⟨0x504, 0, 1, true, [⟨0, 0, .roH, 0⟩, ⟨1, 1, .roH, 0⟩, ⟨2, 2, .roH, 0⟩, ⟨3, 3, .roH, 1⟩, ⟨4, 4, .roH, 0⟩, ⟨5, 5, .w1c, 0⟩, ⟨6, 6, .w1c, 0⟩, ⟨31, 16, .roH, 0⟩]⟩,
   ⟨0x508, 0, 1, true, [⟨15, 0, .roH, 0⟩]⟩,
   ⟨0x10000, 0, 1, false, [⟨31, 0, .roH, 0⟩]⟩,
   ⟨0x10008, 0, 1, false, [⟨31, 26, .rwL, 0⟩]⟩,
   ⟨0x1000c, 0, 1, false, [⟨5, 0, .rwL, 0⟩]⟩,
   ⟨0x10010, 0, 1, false, [⟨3, 0, .roH, 0⟩, ⟨8, 4, .roH, 0⟩]⟩,
   ⟨0x80000, 0x100, 128, false, [⟨31, 0, .roH, 0⟩]⟩,
   ⟨0x510, 0, 1, true, [⟨31, 0, .roH, 0⟩]⟩,
   ⟨0x514, 0, 1, true, [⟨15, 0, .roH, 0⟩, ⟨16, 16, .roH, 0⟩, ⟨31, 31, .w1c, 0⟩]⟩,
   ⟨0x518, 0, 1, true, [⟨15, 0, .roH, 0⟩]⟩,
   ⟨0x51c, 0, 1, true, [⟨31, 0, .roH, 0⟩]⟩,
   ⟨0x520, 0, 1, true, [⟨3, 0, .roH, 0⟩, ⟨19, 8, .roH, 0⟩, ⟨31, 20, .roH, 0⟩]⟩,
   ⟨0x524, 0, 1, true, [⟨14, 0, .roH, 0⟩, ⟨20, 16, .roH, 0⟩, ⟨23, 21, .roH, 0⟩, ⟨25, 24, .roH, 0⟩, ⟨29, 26, .roH, 0⟩, ⟨30, 30, .roH, 0⟩, ⟨31, 31, .w1c, 0⟩]⟩,
   ⟨0x528, 0, 1, true, [⟨31, 0, .roH, 0⟩]⟩,
   ⟨0x52c, 0, 1, true, [⟨31, 0, .roH, 0⟩]⟩]

/-- Registers with prefix TT. -/
def regRowsTT : List RegRow :=
  [⟨0x200000, 0, 1, false, [⟨23, 0, .rwB, 0x3e8⟩]⟩,
   ⟨0x200004, 0, 1, false, [⟨2, 0, .rwB, 0⟩, ⟨3, 3, .roH, 0⟩]⟩,
   ⟨0x200008, 0, 1, false, [⟨23, 0, .rwB, 0x186a0⟩]⟩,
   ⟨0x20000c, 0, 1, false, [⟨23, 0, .rwB, 0x61a80⟩]⟩,
   ⟨0x200010, 4, 4, false, [⟨15, 0, .roH, 0⟩, ⟨31, 16, .roH, 0⟩]⟩,
   ⟨0x200020, 0, 1, false, [⟨31, 0, .roH, 0⟩]⟩,
   ⟨0x200024, 0, 1, false, [⟨15, 0, .roH, 0⟩, ⟨31, 16, .roH, 0⟩]⟩]

/-- Registers with prefix MT. -/
def regRowsMT : List RegRow :=
  [⟨0x300000, 0x10, 128, false, [⟨31, 12, .rwS, 0⟩]⟩,
   ⟨0x300004, 0x10, 128, false, [⟨5, 0, .rwS, 0⟩]⟩,
   ⟨0x300008, 0x10, 128, false, [⟨0, 0, .rwS, 0⟩, ⟨8, 4, .rwS, 9⟩]⟩,
   ⟨0x300800, 0, 1, false, [⟨6, 0, .rwS, 0⟩, ⟨7, 7, .rwS, 0⟩]⟩,
   ⟨0x300804, 0, 1, false, [⟨31, 21, .rwS, 0⟩]⟩,
   ⟨0x300808, 0, 1, false, [⟨15, 0, .rwS, 0⟩]⟩,
   ⟨0x30080c, 0, 1, false, [⟨27, 0, .rwS, 1⟩]⟩,
   ⟨0x300810, 0, 1, false, [⟨0, 0, .wo, 0⟩]⟩,
   ⟨0x300814, 0, 1, false, [⟨0, 0, .roH, 0⟩, ⟨1, 1, .roH, 0⟩]⟩,
   ⟨0x300820, 0, 1, false, [⟨9, 0, .rwL, 0x32⟩]⟩,
   ⟨0x300830, 8, 4, false, [⟨31, 0, .rwL, 0xffffffff⟩]⟩,
   ⟨0x300834, 8, 4, false, [⟨31, 0, .rwL, 0xffffffff⟩]⟩,
   ⟨0x300850, 0, 1, false, [⟨31, 0, .roH, 0⟩]⟩,
   ⟨0x300854, 0, 1, false, [⟨31, 0, .roH, 0⟩]⟩,
   ⟨0x300858, 0, 1, false, [⟨31, 0, .roH, 0⟩]⟩,
   ⟨0x30085c, 0, 1, false, [⟨5, 0, .roH, 0⟩]⟩]

/-- Registers with prefix SC. -/
def regRowsSC : List RegRow :=
  [⟨0x400000, 0, 1, false, [⟨3, 0, .rwS, 0⟩, ⟨11, 8, .rwS, 0⟩]⟩,
   ⟨0x400004, 0, 1, false, [⟨0, 0, .roH, 0⟩, ⟨7, 4, .roH, 0⟩, ⟨11, 8, .roH, 0⟩, ⟨20, 12, .roH, 0⟩]⟩,
   ⟨0x400008, 0, 1, false, [⟨15, 0, .rwL, 0⟩]⟩,
   ⟨0x40000c, 0, 1, false, [⟨0, 0, .rwL, 1⟩, ⟨1, 1, .rwL, 1⟩, ⟨6, 4, .rwL, 3⟩, ⟨13, 8, .rwL, 8⟩, ⟨23, 16, .rwL, 0x60⟩]⟩,
   ⟨0x400200, 0, 1, false, [⟨12, 0, .roH, 0⟩, ⟨31, 16, .roH, 0⟩]⟩]

/-- Registers with prefix CE. -/
def regRowsCE : List RegRow :=
  [⟨0x500000, 0x100, 4, false, [⟨0, 0, .rwB, 0⟩, ⟨13, 8, .rwB, 0⟩, ⟨16, 16, .roH, 0⟩]⟩,
   ⟨0x500004, 0x100, 4, false, [⟨6, 0, .roH, 0⟩, ⟨7, 7, .roH, 0⟩, ⟨9, 8, .roH, 0⟩, ⟨22, 16, .roH, 0⟩]⟩]

/-- Registers with prefix TX. -/
def regRowsTX : List RegRow :=
  [⟨0x600000, 0x10000, 16, false, [⟨0, 0, .rwB, 0⟩, ⟨8, 8, .rwS, 0⟩, ⟨16, 16, .roH, 0⟩]⟩,
   ⟨0x600004, 0x10000, 16, false, [⟨0, 0, .roH, 0⟩, ⟨1, 1, .roH, 0⟩, ⟨15, 4, .roH, 0⟩, ⟨22, 16, .roH, 0⟩]⟩,
   ⟨0x600008, 0x10000, 16, false, [⟨31, 0, .roH, 0⟩]⟩,
   ⟨0x60000c, 0x10000, 16, false, [⟨31, 0, .roH, 0⟩]⟩]

/-- Registers with prefix SH. -/
def regRowsSH : List RegRow :=
  [⟨0x700000, 4, 64, false, [⟨3, 0, .roH, 0⟩, ⟨7, 4, .roH, 0⟩, ⟨14, 8, .roH, 0⟩, ⟨26, 15, .roH, 0⟩]⟩]

/-- Registers with prefix TB. -/
def regRowsTB : List RegRow :=
  [⟨0x800000, 0, 1, false, [⟨4, 0, .roH, 0⟩, ⟨5, 5, .roH, 0⟩, ⟨6, 6, .roH, 0⟩, ⟨14, 8, .roH, 0⟩, ⟨31, 16, .roH, 0⟩]⟩,
   ⟨0x800004, 0, 1, false, [⟨15, 0, .roH, 0⟩, ⟨22, 16, .roH, 0⟩, ⟨31, 31, .w1c, 0⟩]⟩,
   ⟨0x800008, 0, 1, false, [⟨16, 0, .roH, 0⟩]⟩,
   ⟨0x80000c, 0, 1, false, [⟨31, 0, .roH, 0⟩]⟩]

/-- Registers with prefix DC. -/
def regRowsDC : List RegRow :=
  [⟨0x900000, 0, 1, false, [⟨1, 0, .roH, 0⟩, ⟨2, 2, .roH, 0⟩, ⟨3, 3, .roH, 0⟩, ⟨4, 4, .roH, 0⟩, ⟨5, 5, .roH, 0⟩]⟩,
   ⟨0x900004, 0, 1, false, [⟨10, 0, .rwB, 0xc8⟩]⟩,
   ⟨0x900008, 0, 1, false, [⟨29, 0, .rwB, 0⟩]⟩,
   ⟨0x90000c, 0, 1, false, [⟨2, 0, .rwS, 1⟩, ⟨4, 4, .rwS, 0⟩]⟩,
   ⟨0x900010, 0, 1, false, [⟨1, 0, .roH, 0⟩]⟩,
   ⟨0x900014, 0, 1, false, [⟨3, 0, .rwL, 0⟩, ⟨4, 4, .rwL, 0⟩]⟩,
   ⟨0x900018, 0, 1, false, [⟨0, 0, .w1c, 0⟩, ⟨1, 1, .w1c, 0⟩, ⟨2, 2, .w1c, 0⟩, ⟨3, 3, .w1c, 0⟩, ⟨4, 4, .w1c, 0⟩]⟩,
   ⟨0x900020, 0, 1, false, [⟨31, 0, .roH, 0⟩]⟩,
   ⟨0x900024, 0, 1, false, [⟨31, 0, .roH, 0⟩]⟩,
   ⟨0x900040, 4, 16, false, [⟨31, 0, .roH, 0⟩]⟩,
   ⟨0x900100, 0, 1, false, [⟨19, 0, .rwL, 0⟩, ⟨23, 20, .rwL, 0⟩, ⟨25, 24, .rwL, 0⟩, ⟨26, 26, .rwL, 0⟩, ⟨31, 31, .wo, 0⟩]⟩,
   ⟨0x900104, 0, 1, false, [⟨0, 0, .roH, 0⟩, ⟨2, 1, .roH, 0⟩, ⟨7, 3, .roH, 0⟩]⟩,
   ⟨0x900110, 4, 4, false, [⟨31, 0, .rwL, 0⟩]⟩,
   ⟨0x900400, 0x80, 4, false, [⟨0, 0, .rwB, 0⟩, ⟨1, 1, .rwB, 0⟩, ⟨3, 2, .rwB, 0⟩, ⟨4, 4, .rwB, 1⟩, ⟨15, 8, .rwB, 0x10⟩, ⟨22, 16, .rwB, 0⟩, ⟨24, 24, .roH, 0⟩]⟩,
   ⟨0x900600, 0x80, 4, false, [⟨0, 0, .rwB, 0⟩, ⟨1, 1, .rwB, 0⟩, ⟨3, 2, .rwB, 0⟩, ⟨4, 4, .ro, 0⟩, ⟨15, 8, .rwB, 1⟩, ⟨22, 16, .rwB, 0⟩, ⟨24, 24, .roH, 0⟩]⟩,
   ⟨0x900404, 0x80, 4, false, [⟨15, 0, .rwB, 0⟩, ⟨31, 16, .rwB, 0⟩]⟩,
   ⟨0x900604, 0x80, 4, false, [⟨15, 0, .rwB, 0⟩, ⟨31, 16, .rwB, 0⟩]⟩,
   ⟨0x900408, 0x80, 4, false, [⟨15, 0, .rwB, 0⟩, ⟨31, 16, .rwB, 0⟩]⟩,
   ⟨0x900608, 0x80, 4, false, [⟨15, 0, .rwB, 0⟩, ⟨31, 16, .rwB, 0⟩]⟩,
   ⟨0x90040c, 0x80, 4, false, [⟨15, 0, .rwB, 0⟩, ⟨31, 16, .rwB, 0⟩]⟩,
   ⟨0x90060c, 0x80, 4, false, [⟨15, 0, .rwB, 0⟩, ⟨31, 16, .rwB, 0⟩]⟩,
   ⟨0x900410, 0x80, 4, false, [⟨15, 0, .rwB, 0⟩, ⟨31, 16, .rwB, 0⟩]⟩,
   ⟨0x900610, 0x80, 4, false, [⟨15, 0, .ro, 0⟩, ⟨31, 16, .ro, 0⟩]⟩,
   ⟨0x900414, 0x80, 4, false, [⟨9, 0, .rwB, 0x3ff⟩]⟩,
   ⟨0x900614, 0x80, 4, false, [⟨9, 0, .rwB, 0x3ff⟩]⟩,
   ⟨0x900418, 0x80, 4, false, [⟨29, 0, .rwB, 0⟩]⟩,
   ⟨0x900618, 0x80, 4, false, [⟨29, 0, .rwB, 0⟩]⟩,
   ⟨0x900420, 4, 9, false, [⟨16, 0, .rwB, 0⟩]⟩,
   ⟨0x9004a0, 4, 9, false, [⟨16, 0, .rwB, 0⟩]⟩,
   ⟨0x900520, 4, 9, false, [⟨16, 0, .rwB, 0⟩]⟩,
   ⟨0x9005a0, 4, 9, false, [⟨16, 0, .rwB, 0⟩]⟩,
   ⟨0x900444, 0x80, 4, false, [⟨29, 0, .rwB, 0x200803c0⟩]⟩,
   ⟨0x900448, 0x80, 4, false, [⟨29, 0, .rwB, 0⟩]⟩,
   ⟨0x908000, 4, 256, false, [⟨11, 0, .rwB, 0⟩, ⟨27, 16, .rwB, 0⟩]⟩,
   ⟨0x908400, 4, 192, false, [⟨11, 0, .rwB, 0⟩, ⟨27, 16, .rwB, 0⟩]⟩,
   ⟨0x909000, 4, 256, false, [⟨11, 0, .rwB, 0⟩, ⟨27, 16, .rwB, 0⟩]⟩,
   ⟨0x909400, 4, 192, false, [⟨11, 0, .rwB, 0⟩, ⟨27, 16, .rwB, 0⟩]⟩,
   ⟨0x90a000, 4, 256, false, [⟨11, 0, .rwB, 0⟩, ⟨27, 16, .rwB, 0⟩]⟩,
   ⟨0x90a400, 4, 192, false, [⟨11, 0, .rwB, 0⟩, ⟨27, 16, .rwB, 0⟩]⟩,
   ⟨0x90b000, 4, 256, false, [⟨11, 0, .rwB, 0⟩, ⟨27, 16, .rwB, 0⟩]⟩,
   ⟨0x90b400, 4, 192, false, [⟨11, 0, .rwB, 0⟩, ⟨27, 16, .rwB, 0⟩]⟩]

/-- Registers with prefix BL. -/
def regRowsBL : List RegRow :=
  [⟨0xa00000, 0x100, 3, false, [⟨0, 0, .rwL, 1⟩, ⟨1, 1, .rwL, 1⟩, ⟨2, 2, .wo, 0⟩, ⟨4, 3, .rwB, 3⟩, ⟨8, 8, .roH, 0⟩]⟩,
   ⟨0xa00004, 0x100, 3, false, [⟨2, 0, .roH, 1⟩, ⟨4, 3, .roH, 0⟩, ⟨6, 5, .roH, 0⟩, ⟨8, 7, .roH, 0⟩, ⟨9, 9, .roH, 0⟩, ⟨17, 10, .roH, 0⟩]⟩,
   ⟨0xa00008, 0x100, 3, false, [⟨7, 0, .roH, 0⟩, ⟨8, 8, .w1c, 0⟩, ⟨9, 9, .w1c, 0⟩, ⟨10, 10, .w1c, 0⟩, ⟨11, 11, .w1c, 0⟩]⟩,
   ⟨0xa00400, 0, 1, false, [⟨1, 0, .roH, 0⟩, ⟨3, 2, .roH, 0⟩, ⟨4, 4, .roH, 0⟩, ⟨5, 5, .roH, 0⟩, ⟨9, 8, .roH, 0⟩, ⟨11, 10, .roH, 0⟩, ⟨12, 12, .roH, 0⟩, ⟨13, 13, .roH, 0⟩, ⟨17, 16, .roH, 0⟩, ⟨19, 18, .roH, 0⟩, ⟨20, 20, .roH, 0⟩, ⟨21, 21, .roH, 0⟩, ⟨25, 24, .roH, 0⟩, ⟨27, 26, .roH, 0⟩, ⟨28, 28, .roH, 0⟩, ⟨29, 29, .roH, 0⟩]⟩,
   ⟨0xa00404, 0, 1, false, [⟨3, 0, .roH, 0⟩, ⟨31, 16, .roH, 0⟩]⟩,
   ⟨0xa00408, 0, 1, false, [⟨3, 0, .rwL, 0⟩, ⟨4, 4, .rwL, 0⟩]⟩,
   ⟨0xa0040c, 0, 1, false, [⟨31, 0, .roH, 0⟩]⟩]

/-- Registers with prefix MB. -/
def regRowsMB : List RegRow :=
  [⟨0xb00000, 0, 1, false, [⟨0, 0, .rwS, 0⟩, ⟨1, 1, .rwS, 0⟩, ⟨2, 2, .rwS, 0⟩, ⟨3, 3, .rwS, 0⟩, ⟨4, 4, .rwS, 0⟩, ⟨6, 5, .rwS, 0⟩, ⟨8, 7, .rwS, 1⟩, ⟨12, 9, .rwS, 2⟩, ⟨22, 16, .rwS, 0x4c⟩]⟩,
   ⟨0xb00004, 0, 1, false, [⟨15, 0, .rwL, 0x64⟩]⟩,
   ⟨0xb00008, 0, 1, false, [⟨9, 0, .w1c, 0⟩]⟩,
   ⟨0xb0000c, 0, 1, false, [⟨9, 0, .rwL, 0x3ff⟩]⟩,
   ⟨0xb00010, 0, 1, false, [⟨0, 0, .wo, 0⟩]⟩,
   ⟨0xb00014, 0, 1, false, [⟨6, 0, .roH, 0x4c⟩, ⟨7, 7, .roH, 0⟩, ⟨8, 8, .roH, 0⟩]⟩,
   ⟨0xb00018, 0, 1, false, [⟨3, 0, .rwL, 0⟩, ⟨4, 4, .rwL, 0⟩]⟩,
   ⟨0xb00020, 0, 1, false, [⟨6, 0, .rwS, 0⟩, ⟨15, 8, .rwS, 0⟩, ⟨19, 16, .rwS, 0⟩, ⟨20, 20, .rwS, 0⟩, ⟨29, 24, .rwS, 0⟩]⟩,
   ⟨0xb00024, 0, 1, false, [⟨5, 0, .rwS, 0⟩]⟩,
   ⟨0xb00028, 0, 1, false, [⟨0, 0, .wo, 0⟩]⟩,
   ⟨0xb0002c, 0, 1, false, [⟨15, 0, .roH, 0⟩, ⟨16, 16, .roH, 0⟩, ⟨17, 17, .roH, 0⟩, ⟨18, 18, .roH, 0⟩, ⟨21, 19, .roH, 0⟩, ⟨27, 22, .roH, 0⟩, ⟨31, 31, .w1c, 0⟩]⟩,
   ⟨0xb00040, 4, 8, false, [⟨31, 0, .rwS, 0⟩]⟩]

/-- Registers with prefix KA. -/
def regRowsKA : List RegRow :=
  [⟨0xc00000, 0, 1, false, [⟨1, 0, .roH, 0⟩, ⟨2, 2, .roH, 0⟩, ⟨3, 3, .roH, 0⟩, ⟨4, 4, .roH, 0⟩, ⟨7, 5, .roH, 0⟩, ⟨8, 8, .roH, 0⟩, ⟨9, 9, .roH, 0⟩, ⟨10, 10, .roH, 0⟩, ⟨11, 11, .roH, 0⟩]⟩,
   ⟨0xc00004, 0, 1, false, [⟨15, 0, .roH, 0⟩, ⟨31, 16, .roH, 0⟩]⟩,
   ⟨0xc00008, 0, 1, false, [⟨15, 0, .roH, 0⟩, ⟨31, 16, .roH, 0⟩]⟩,
   ⟨0xc0000c, 0, 1, false, [⟨15, 0, .roH, 0⟩, ⟨16, 16, .roH, 0⟩]⟩,
   ⟨0xc00010, 0, 1, false, [⟨6, 0, .rwL, 0x50⟩, ⟨15, 8, .rwL, 0xa⟩, ⟨16, 16, .rwL, 1⟩, ⟨17, 17, .rwL, 1⟩]⟩,
   ⟨0xc00014, 0, 1, false, [⟨0, 0, .w1c, 0⟩, ⟨1, 1, .w1c, 0⟩, ⟨2, 2, .w1c, 0⟩, ⟨3, 3, .w1c, 0⟩, ⟨4, 4, .w1c, 0⟩]⟩,
   ⟨0xc00018, 0, 1, false, [⟨31, 0, .roH, 0⟩]⟩,
   ⟨0xc0001c, 0, 1, false, [⟨15, 0, .roH, 0⟩]⟩,
   ⟨0xc00020, 0, 1, false, [⟨15, 0, .roH, 0⟩, ⟨31, 16, .roH, 0⟩]⟩,
   ⟨0xc00024, 0, 1, false, [⟨11, 0, .roH, 1⟩, ⟨31, 16, .roH, 1⟩]⟩,
   ⟨0xc00028, 0, 1, false, [⟨10, 0, .rwL, 0⟩]⟩,
   ⟨0xc00040, 4, 8, false, [⟨31, 0, .roH, 0⟩]⟩]

/-- Registers with prefix VR. -/
def regRowsVR : List RegRow :=
  [⟨0xd00000, 0, 1, false, [⟨1, 0, .roH, 0⟩, ⟨11, 8, .roH, 0⟩, ⟨23, 16, .roH, 0⟩]⟩,
   ⟨0xd00004, 0, 1, false, [⟨7, 0, .roH, 0⟩, ⟨15, 8, .roH, 0⟩, ⟨16, 16, .w1c, 0⟩]⟩,
   ⟨0xd00008, 0, 1, false, [⟨7, 0, .wo, 0⟩]⟩,
   ⟨0xd0000c, 0, 1, false, [⟨9, 0, .roH, 0⟩, ⟨25, 16, .roH, 0⟩]⟩,
   ⟨0xd00010, 0, 1, false, [⟨5, 0, .rwL, 0xa⟩, ⟨13, 8, .rwL, 0x19⟩, ⟨22, 16, .rwL, 0x32⟩, ⟨23, 23, .rwL, 1⟩, ⟨28, 24, .rwL, 0xa⟩]⟩,
   ⟨0xd00014, 0, 1, false, [⟨6, 0, .rwL, 0x46⟩, ⟨14, 8, .rwL, 0⟩]⟩,
   ⟨0xd00018, 0, 1, false, [⟨15, 0, .roH, 0⟩, ⟨23, 16, .rwL, 0x6e⟩]⟩,
   ⟨0xd0001c, 0, 1, false, [⟨11, 0, .roH, 0⟩]⟩,
   ⟨0xd00020, 4, 8, false, [⟨9, 0, .roH, 0⟩]⟩,
   ⟨0xd00040, 0, 1, false, [⟨3, 0, .rwL, 0⟩, ⟨4, 4, .rwL, 0⟩]⟩]

/-- Registers with prefix PM. -/
def regRowsPM : List RegRow :=
  [⟨0xe00000, 4, 49, false, [⟨6, 0, .rwL, 0⟩]⟩,
   ⟨0xe00100, 4, 16, false, [⟨5, 0, .rwL, 0x1b⟩, ⟨13, 8, .roH, 0x1b⟩, ⟨18, 16, .roH, 0⟩]⟩,
   ⟨0xe00140, 0, 1, false, [⟨15, 0, .roH, 0⟩]⟩,
   ⟨0xe00144, 0, 1, false, [⟨5, 0, .roH, 0x30⟩, ⟨13, 8, .roH, 0x30⟩, ⟨21, 16, .roH, 0x30⟩]⟩,
   ⟨0xe00148, 0, 1, false, [⟨5, 0, .rwL, 0x20⟩, ⟨13, 8, .rwL, 0x10⟩, ⟨21, 16, .rwL, 0⟩]⟩,
   ⟨0xe00150, 0, 1, false, [⟨7, 0, .rwL, 0x64⟩, ⟨15, 8, .rwL, 0x73⟩]⟩,
   ⟨0xe00154, 0, 1, false, [⟨15, 0, .rwL, 0x2800⟩, ⟨31, 16, .rwL, 0x400⟩]⟩,
   ⟨0xe00158, 0, 1, false, [⟨15, 0, .roH, 0⟩, ⟨20, 16, .roH, 0⟩, ⟨21, 21, .roH, 0⟩, ⟨31, 22, .roH, 0⟩]⟩,
   ⟨0xe00160, 0, 1, false, [⟨7, 0, .rwL, 0x5f⟩, ⟨15, 8, .rwL, 0x5f⟩, ⟨23, 16, .rwL, 0xc⟩]⟩,
   ⟨0xe00164, 0, 1, false, [⟨13, 0, .rwL, 0x3e8⟩]⟩,
   ⟨0xe00168, 0, 1, false, [⟨15, 0, .roH, 0⟩, ⟨31, 16, .roH, 0⟩]⟩,
   ⟨0xe0016c, 0, 1, false, [⟨15, 0, .roH, 0⟩]⟩,
   ⟨0xe00300, 0, 1, false, [⟨2, 0, .roH, 0⟩, ⟨3, 3, .roH, 0⟩, ⟨5, 4, .roH, 0⟩, ⟨31, 16, .roH, 0⟩]⟩,
   ⟨0xe00304, 0, 1, false, [⟨7, 0, .rwL, 0x64⟩, ⟨8, 8, .rwL, 1⟩, ⟨9, 9, .rwL, 1⟩]⟩,
   ⟨0xe00308, 0, 1, false, [⟨2, 0, .roH, 0⟩, ⟨3, 3, .roH, 0⟩, ⟨31, 16, .roH, 0⟩]⟩,
   ⟨0xe0030c, 0, 1, false, [⟨15, 0, .rwL, 0x7d0⟩]⟩,
   ⟨0xe00310, 0, 1, false, [⟨15, 0, .roH, 0xffff⟩]⟩]

/-- Registers with prefix FL. -/
def regRowsFL : List RegRow :=
  [⟨0xf00000, 0, 1, false, [⟨3, 0, .roH, 0⟩, ⟨4, 4, .roH, 0⟩, ⟨5, 5, .w1c, 0⟩, ⟨15, 8, .roH, 0⟩, ⟨31, 31, .w1c, 0⟩]⟩,
   ⟨0xf00004, 0, 1, false, [⟨31, 0, .roH, 0⟩]⟩,
   ⟨0xf00008, 0, 1, false, [⟨31, 0, .roH, 0⟩]⟩,
   ⟨0xf00010, 4, 4, false, [⟨31, 0, .roH, 0⟩]⟩,
   ⟨0xf00100, 0, 1, false, [⟨0, 0, .rwL, 0⟩, ⟨1, 1, .rwS, 0⟩, ⟨2, 2, .rwL, 0⟩, ⟨9, 3, .rwL, 0⟩, ⟨10, 10, .rwL, 0⟩, ⟨11, 11, .w1c, 0⟩, ⟨31, 16, .rwL, 0⟩]⟩,
   ⟨0xf00104, 0, 1, false, [⟨31, 12, .rwS, 0⟩]⟩,
   ⟨0xf00108, 0, 1, false, [⟨5, 0, .rwS, 0⟩]⟩,
   ⟨0xf0010c, 0, 1, false, [⟨4, 0, .rwS, 0xa⟩]⟩,
   ⟨0xf00110, 0, 1, false, [⟨31, 0, .rwL, 0⟩]⟩,
   ⟨0xf00114, 0, 1, false, [⟨31, 0, .rwL, 0⟩]⟩,
   ⟨0xf00118, 0, 1, false, [⟨31, 0, .roH, 0⟩]⟩,
   ⟨0xf0011c, 0, 1, false, [⟨31, 0, .rwL, 0⟩]⟩]

/-- Every register of Table 21.6. -/
def regRows : List RegRow :=
  regRowsCP ++ regRowsHI ++ regRowsTT ++ regRowsMT ++ regRowsSC ++ regRowsCE ++ regRowsTX ++ regRowsSH ++ regRowsTB ++ regRowsDC ++ regRowsBL ++ regRowsMB ++ regRowsKA ++ regRowsVR ++ regRowsPM ++ regRowsFL

/-- Offset within a function window of a window key, and the PF BAR0 offset of every other key. -/
def regOff (key : Nat) : Nat := if key ≥ 0x1000000 then (key - 0x1000000) % 0x10000 else key

/-- The function whose window a key names; the PF for keys below 0x1_0000 (R75). -/
def regFn (key : Nat) : Nat := if key ≥ 0x1000000 then (key - 0x1000000) / 0x10000 else 0

/-- Whether a row holds an offset. -/
def RegRow.has (r : RegRow) (off : Nat) : Bool :=
  if r.count = 1 then off == r.base
  else decide (r.base ≤ off) && decide ((off - r.base) % r.stride = 0) && decide ((off - r.base) / r.stride < r.count)

/-- The register at a key, where Table 21.6 lists one. A key above PF BAR0 reaches window registers only (R75). -/
def regRow? (key : Nat) : Option RegRow :=
  regRows.find? (fun r => r.has (regOff key) && (key < 0x1000000 || r.window))

/-- The fields of a register; none where no register is listed (R552). -/
def regFields (key : Nat) : List FieldRow := ((regRow? key).map (·.fields)).getD []

/-- Reset matrix of Table 14.8. -/
def cscReset : List Nat := [0x4ABD, 0, 0x7312, 0x4ABD, 0x1F250, 0x1DDCB, 0x4ABD, 0x8798, 0]

/-- Bilinear reset values of the scaler coefficients (14.3, Table 14.9): word j of phase p, `mid` the first of the two
taps that are not 0. -/
def coefReset (mid p j : Nat) : Nat :=
  let tap (t : Nat) : Nat := if t = mid then (64 - p) * 16 else if t = mid + 1 then p * 16 else 0
  tap (2 * j) + tap (2 * j + 1) * 2 ^ 16

/-- Value of a register built from its fields' reset values. -/
def fieldsReset : List FieldRow → Nat
  | [] => 0
  | r :: rs => r.reset * 2 ^ r.lo + fieldsReset rs

/-- The reset value of the register at a key (Table 21.6). Strap, fuse and store resets are read from the state. -/
def regResetNat (key : Nat) : Nat :=
  if 0xE00000 ≤ key && key < 0xE000C4 then ceilDiv (70 * ((key - 0xE00000) / 4)) 48
  else if 0x908000 ≤ key && key < 0x90C000 then
    let o := (key - 0x908000) % 0x1000
    if o < 0x400 then coefReset 3 (o / 16) (o % 16 / 4)
    else if o < 0x700 then coefReset 2 ((o - 0x400) / 12) ((o - 0x400) % 12 / 4) else 0
  else if 0x900420 ≤ key && key < 0x900600 && (key - 0x900420) % 0x80 < 0x24 then
    (cscReset[(key - 0x900420) % 0x80 / 4]?).getD 0
  else fieldsReset (regFields key)

/-- The reset value as a register word. -/
def regReset (key : Nat) : W32 := BitVec.ofNat 32 (regResetNat key)

/-- Ranges of 64-bit counters (Tables 3.11, 7.5, 8.8, 11.4, 12.20, 13.8, 14.10, 15.14, 15.15, 16.10, 18.7, 19.11, 20.9):
base, stride between groups, groups, counters in a group. -/
def counterRanges : List (Nat × Nat × Nat × Nat) :=
  [(0x400100, 0, 1, 10), (0x400210, 0, 1, 8), (0x500040, 0x100, 4, 8), (0x701000, 0, 1, 8), (0x800100, 0, 1, 7),
   (0x900200, 0, 1, 8), (0xA00040, 0x100, 3, 8), (0xA00500, 0, 1, 6), (0xB00100, 0, 1, 11), (0xE00200, 0, 1, 8),
   (0xE00380, 0, 1, 9), (0xF00400, 0, 1, 10)]

/-- Whether a 4-aligned offset lies in a counter range. -/
def inCounterRange (off : Nat) (r : Nat × Nat × Nat × Nat) : Bool :=
  if r.2.2.1 = 1 then decide (r.1 ≤ off) && decide (off < r.1 + 8 * r.2.2.2)
  else decide (r.1 ≤ off) && decide ((off - r.1) / r.2.1 < r.2.2.1) && decide ((off - r.1) % r.2.1 < 8 * r.2.2.2)

/-- Whether a key is half of a 64-bit counter; its low half's key is 8-aligned. -/
def isCounter (key : Nat) : Bool :=
  let o := regOff key
  if key ≥ 0x1000000 || key < 0x10000 then decide (0x1000 ≤ o) && decide (o < 0x1080)
  else counterRanges.any (inCounterRange o)

/-- Key of a function counter (Table 3.11). -/
abbrev C.FN (f off : Nat) : Nat := fnWin f + off

end Sys2Proof.Machine
end

