-- ==== Sys2Proof/Machine/Tab.lean ====
section
/-! DEFINITION. Sparse tables: a list of (key, value) pairs with strictly rising keys and no entry equal to what an
unlisted key reads as. Memories, register files, counters and indexed units of the device are held in this one form. -/

namespace Sys2Proof.Machine

/-- A sparse table. -/
abbrev Tab (α : Type) := List (Nat × α)

/-- The listed value at a key. -/
def Tab.find {α : Type} : Tab α → Nat → Option α
  | [], _ => none
  | (k, v) :: t, i => if k = i then some v else Tab.find t i

/-- The value at a key, `d` where none is listed. -/
def Tab.get {α : Type} (d : α) (t : Tab α) (i : Nat) : α := (Tab.find t i).getD d

/-- The table without an entry at a key. -/
def Tab.erase {α : Type} : Tab α → Nat → Tab α
  | [], _ => []
  | (k, v) :: t, i => if k = i then Tab.erase t i else (k, v) :: Tab.erase t i

/-- The table with an entry put in key order, in place of one already there. -/
def Tab.insert {α : Type} : Tab α → Nat → α → Tab α
  | [], i, x => [(i, x)]
  | (k, v) :: t, i, x =>
    if i < k then (i, x) :: (k, v) :: t
    else if k = i then (i, x) :: t
    else (k, v) :: Tab.insert t i x

/-- Write a key: a value equal to the default takes the entry out, so that equal tables are equal data. -/
def Tab.set {α : Type} [DecidableEq α] (d : α) (t : Tab α) (i : Nat) (x : α) : Tab α :=
  if x = d then Tab.erase t i else Tab.insert t i x

/-- Apply a function at a key. -/
def Tab.modify {α : Type} [DecidableEq α] (d : α) (t : Tab α) (i : Nat) (g : α → α) : Tab α :=
  Tab.set d t i (g (Tab.get d t i))

/-- Every key is at least `lo` and the keys rise strictly. -/
def Tab.sortedFrom {α : Type} (lo : Nat) : Tab α → Bool
  | [] => true
  | (k, _) :: t => decide (lo ≤ k) && Tab.sortedFrom (k + 1) t

/-- The canonical form: keys strictly rising, no entry equal to the default. -/
def Tab.wf {α : Type} [DecidableEq α] (d : α) (t : Tab α) : Bool :=
  Tab.sortedFrom 0 t && t.all (fun e => !decide (e.2 = d))

end Sys2Proof.Machine
end

