-- ==== Sys2Proof/Machine/Types.lean ====
section
/-! DEFINITION. The records State is made of, by unit: function objects and packets (chapters 3, 4), programs and jobs
(5, 10, 11), translation (6), shared cache (7), copy engines (8). Plain data throughout. -/

namespace Sys2Proof.Machine

/-! ## Functions, packets and reports (chapters 3, 4 and 20) -/

/-- Where a fetched packet group stands (4.3). -/
inductive PktPhase where
  /-- fetched and accepted by the common checks, not dispatched -/
  | fetched
  /-- handed to its engine -/
  | dispatched
  /-- work ended; the completion report is still to be written (R92) -/
  | complete
  deriving DecidableEq, Repr

/-- One packet group in flight: from the fetch of its header until its report is written (20.2). -/
structure Packet where
  /-- ring count of the header packet (`POSITION`) -/
  pos : Nat
  /-- the doublewords of the header packet and then of its extension packets -/
  words : List W32
  phase : PktPhase
  /-- status the work ended with -/
  status : Nat
  /-- RESULT word (Table 4.4) -/
  result : Nat
  /-- fine tick of the dispatch -/
  tDispatch : Nat
  /-- fine tick of the start of work, where it has started -/
  tStart : Option Nat
  /-- refused at common check 5: no fence write (R106) -/
  noFence : Bool
  /-- the packet's entry in a queue of held reports was counted (R86) -/
  held : Bool
  /-- the reply entry has been written, the fence not yet (R92) -/
  replied : Bool
  /-- the discard of R532 took the packet -/
  discarded : Bool
  /-- next attempt of a wait refused by the peer, or remote request outstanding (R115, R407) -/
  remoteWait : Bool
  /-- the LOAD_PROGRAM it waited for was refused (R112) -/
  loadRefused : Bool
  /-- place in the order of dispatch, over all rings (R110) -/
  order : Nat
  deriving DecidableEq, Repr

/-- One MSI-X vector: message address, message data and mask bit (PCIe base specification). -/
structure Vector where
  addr : Nat
  data : W32
  masked : Bool
  deriving DecidableEq, Repr

/-- Reset of an MSI-X vector: masked (PCIe base specification; PRESUMED, log entry 56). -/
def Vector.reset : Vector := ⟨0, 0, true⟩

/-- The quota of a function (Table 4.15). Budgets are in microseconds, sizes in KiB. -/
structure Quota where
  clusters : Nat
  slate : Nat
  scratch : Nat
  pencil : Nat
  classLimit : W32
  share : Nat
  budgetCap : Nat
  deriving DecidableEq, Repr

/-- Quota of the PF at reset: everything (Table 2.2); no class limit (DESIGN CHOICE, log entry 53), budget cap 50,000 µs (R146). -/
def Quota.pf : Quota := ⟨16, 16384, 16384, 16384, 0xFFFFFFFF, 0, 50000⟩

/-- Quota of a VF at reset: none until QUOTA_SET (Table 2.2). -/
def Quota.vf : Quota := ⟨0, 0, 0, 0, 0, 0, 50000⟩

/-- A function's discard in progress (R532): the packets it took and the reply entries it dropped. -/
structure Discard where
  taken : Nat
  dropped : Nat
  /-- reports it has to write: taken packets and held reports -/
  reports : Nat
  /-- part of a device-scope discard (R530) -/
  device : Bool
  /-- waiting for the island restart of R537 -/
  waitRestart : Bool
  /-- a forced Sleep entry follows: reply entries that find no room are dropped (R536) -/
  drop : Bool
  deriving DecidableEq, Repr

/-- Advanced Error Reporting of a function (R73, Table 3.1): the Uncorrectable Error Status bits, the First Error Pointer and the
Header Log of the first error (PCIe base specification). -/
structure Aer where
  status : Nat
  first : Option Nat
  header : Nat
  deriving DecidableEq, Repr

/-- No error logged. -/
def Aer.reset : Aer := ⟨0, none, 0⟩

/-- Log an error: its status bit sets; the first one's number and header are kept until its bit clears. -/
def Aer.log (a : Aer) (bit header : Nat) : Aer :=
  { status := Nat.lor a.status (2 ^ bit)
    first := if a.first.isSome then a.first else some bit
    header := if a.first.isSome then a.header else header }

/-- Clear status bits. -/
def Aer.clear (a : Aer) (mask : Nat) : Aer :=
  let left := Nat.xor a.status (Nat.land a.status mask)
  { a with status := left, first := a.first.filter (fun b => nbit left b) }

/-- What the PCIe link is in (R71, Table 19.1). -/
inductive LinkPm where
  | l0 | l1 | l12
  deriving DecidableEq, Repr

/-- The endpoint's configuration that Table 3.1 lists beside that of its functions, and the link's power state. -/
structure Pcie where
  /-- Enable Relaxed Ordering -/
  roEn : Bool
  /-- Max_Payload_Size and Max_Read_Request_Size: 128 bytes times 2 to this power -/
  maxPayload : Nat
  maxRead : Nat
  /-- 10-Bit Tag Requester Enable -/
  tag10 : Bool
  /-- Completion Timeout Value and Disable -/
  ctoValue : Nat
  ctoDisable : Bool
  /-- ASPM L1, and the ASPM L1.1 and L1.2 substates -/
  aspmL1 : Bool
  aspmL11 : Bool
  aspmL12 : Bool
  /-- LTR Mechanism Enable -/
  ltrEn : Bool
  link : LinkPm
  deriving DecidableEq, Repr

/-- Reset of that configuration (PCIe base specification; PRESUMED, log entry 96). -/
def Pcie.reset : Pcie :=
  { roEn := true, maxPayload := 0, maxRead := 2, tag10 := false, ctoValue := 0, ctoDisable := false, aspmL1 := false, aspmL11 := false
    aspmL12 := false, ltrEn := false, link := .l0 }

/-! Table 3.1's constants: Device IDs and class code, TotalVFs, First VF Offset and VF Stride; Invalidate Queue Depth and Outstanding
Page Request Capacity (Table 6.4). -/

def deviceId (f : Nat) : Nat := if f = 0 then 0x1640 else 0x1641
def classCode : Nat := 0x120000
def totalVfs : Nat := 127
def firstVfOffset : Nat := 1
def vfStride : Nat := 1
/-- Routing ID of a function, from the PF's (3.2). -/
def routingId (pf f : Nat) : Nat := pf + (if f = 0 then 0 else firstVfOffset + (f - 1) * vfStride)
def invalidateQueueDepth : Nat := 32
def pageRequestCapacity : Nat := 2048

/-- What a function owns beside its window registers. -/
structure Fn where
  packets : List Packet
  /-- per-slot fence record (R90) -/
  fenceRec : Tab Nat
  /-- remote-fence shadow of each slot: last 64-bit form this device wrote to it (R406) -/
  shadow : Tab Nat
  msix : Tab Vector
  /-- MSI-X pending bits -/
  pba : Nat
  msixEn : Bool
  fnMask : Bool
  atsEn : Bool
  /-- RING_RESET accepted during a discard and waiting for its end (R535) -/
  resetWaiting : Bool
  discard : Option Discard
  quota : Quota
  /-- log2 of the Smallest Translation Unit (Table 6.4) -/
  stu : Nat
  aer : Aer
  deriving DecidableEq, Repr

/-- Reset of a VF's objects. -/
def Fn.reset : Fn :=
  { packets := [], fenceRec := [], shadow := [], msix := [], pba := 0, msixEn := false, fnMask := false, atsEn := false,
    resetWaiting := false, discard := none, quota := Quota.vf, stu := 12, aer := Aer.reset }

/-! ## Programs and jobs (chapters 5, 10 and 11) -/

/-- Operand declaration (Table 10.2). -/
structure OperandDecl where
  index : Nat
  output : Bool
  minLen : Nat
  deriving DecidableEq, Repr

/-- Region declaration (Table 10.4). -/
structure RegionDecl where
  region : Nat
  bank : Nat
  size : Nat
  deriving DecidableEq, Repr

/-- Stage table entry (Table 11.1). -/
structure StageDecl where
  prov : Bool
  predHost : Bool
  resolves : Bool
  predicate : Nat
  resolvePred : Nat
  earlyClusters : Nat
  earlyAfter : Nat
  resolveRef : List W32
  deriving DecidableEq, Repr

/-- State of one region of a loaded program (8.4). Updates are named by their packet's position. -/
structure RegionState where
  version : Nat
  running : Option Nat
  pend : Option Nat
  deriving DecidableEq, Repr

/-- A region right after LOAD_PROGRAM: version 0, both slots empty. -/
def RegionState.reset : RegionState := ⟨0, none, none⟩

/-- One sequence slot of a stepped program (5.7): pending steps by packet position, oldest first. -/
structure Seq where
  joined : Bool
  steps : List Nat
  /-- steps the sequence has run -/
  run : Nat
  /-- STEP_LEAVE waiting for the earlier steps -/
  leaving : Option Nat
  deriving DecidableEq, Repr

/-- A free sequence slot. -/
def Seq.reset : Seq := ⟨false, [], 0, none⟩

/-- A loaded program: its header, its tables and what admission granted it (10.1, 5.1, 7.4, 11.4). -/
structure Prog where
  fn : Nat
  id : Nat
  imgAddr : Nat
  imgLen : Nat
  /-- C, S, X, P, Q, B_step, B_run and NOMINAL_US of Table 5.1 -/
  c : Nat
  slate : Nat
  scratch : Nat
  pencil : Nat
  seqSlots : Nat
  stepBatch : Nat
  runBatch : Nat
  nominal : Nat
  stateAddr : Nat
  stateBytes : Nat
  operands : List OperandDecl
  residents : List (Nat × Nat)
  regions : List RegionDecl
  stages : List StageDecl
  /-- operator descriptors, W0 to W63 each -/
  ops : List (List W32)
  /-- shader code words, 64 bits each -/
  code : List W64
  /-- program-area blocks granted (R197) and pencil blocks granted (11.4), in ascending order -/
  blocks : List Nat
  pblocks : List Nat
  /-- E_p (R132) and the run time of the last step job (R133), in µs -/
  est : Nat
  tLast : Nat
  seqs : Tab Seq
  rgn : Tab RegionState
  deriving DecidableEq, Repr

/-- One operand binding (Table 4.8). -/
structure Binding where
  addr : Nat
  len : Nat
  index : Nat
  output : Bool
  perElem : Bool
  deriving DecidableEq, Repr

/-- How a stage-element of a provisional stage stands (Table 11.2). -/
inductive SeEnd where
  | undecided | inking | inked | erased | skipped | ran
  deriving DecidableEq, Repr

/-- One stage-element: its ending, its pencilled bytes by destination (virtual address; scratch offset) and flags. -/
structure StageElem where
  ending : SeEnd
  /-- left to R280: its predicate was known to be true when the stage started early (Table 11.2) -/
  late : Bool
  /-- pencilled bytes bound for virtual addresses, then for program scratch, each with the operator that wrote it last -/
  pva : Tab (Option (Nat × Byte))
  pscr : Tab (Option (Nat × Byte))
  /-- pencilled `SATURATED` flag (R250, R251) -/
  sat : Bool
  /-- tensor tiles computed in pencil -/
  tiles : Nat
  /-- a shader trap held in pencil (R319): cause, op, instruction, and bits [25:16] of the record, the cluster above them and
  the detail above that -/
  trap : Option (Nat × Nat × Nat × Nat)
  deriving DecidableEq, Repr

/-- A stage-element nothing has touched. -/
def StageElem.reset : StageElem := ⟨.undecided, false, [], [], false, 0, none⟩

/-- One element of a job: a RUN_JOB, one element of a RUN_BATCH, or one step of a step job. -/
structure Elem where
  /-- position of the packet the element belongs to -/
  pos : Nat
  /-- RUN_BATCH element index or SEQ_SLOT -/
  idx : Nat
  binds : List Binding
  seed : Nat
  prov : Bool
  /-- predicates resolved so far (R277) -/
  preds : Tab (Option Bool)
  stages : Tab StageElem
  /-- submitted class, entry time and start deadline of the packet -/
  sub : Nat
  tEntry : Nat
  deadline : Nat
  /-- a step job of the program has started since entry without the step (R153) -/
  passed : Bool
  /-- an output conversion or accumulation saturated, firm or inked (R250) -/
  sat : Bool
  deriving DecidableEq, Repr

/-- How a stage of a job stands. -/
inductive StagePhase where
  | waiting | early | earlyDone | firm | ended
  deriving DecidableEq, Repr

/-- One stage of a running job: how many of its operators are done, and what early work holds (R279, R281, R287). -/
structure StageRun where
  phase : StagePhase
  nextOp : Nat
  clusters : List Nat
  granules : List Nat
  claimWaiting : Bool
  deriving DecidableEq, Repr

/-- A stage not yet begun. -/
def StageRun.reset : StageRun := ⟨.waiting, 0, [], [], false⟩

/-- A job in Timetable, queued or running (5.2 to 5.7). Times are fine ticks. -/
structure Job where
  fn : Nat
  prog : Nat
  /-- dispatch order among all jobs -/
  order : Nat
  step : Bool
  batch : Bool
  elems : List Elem
  submitted : Nat
  cls : Nat
  startCls : Nat
  budget : Nat
  deadline : Nat
  tEntry : Nat
  tPromo : Nat
  /-- a selection pass has gone by since entry without starting the job (R153) -/
  passed : Bool
  charge : Nat
  regionBind : List (Nat × Nat)
  /-- selected by a pass: clusters granted -/
  selected : Bool
  running : Bool
  tStart : Nat
  clusters : List Nat
  stages : Tab StageRun
  /-- bytes of operands that the elements of a batch share: one more than the highest element that has written the byte (R271) -/
  owner : Tab Nat
  /-- the job has been ended before its stages, with a status; it leaves its clusters once no WR_ACK is outstanding (R293, R405) -/
  cut : Option Nat
  deriving DecidableEq, Repr

/-- One step waiting in a sequence: what a step job will need of its STEP_JOIN packet. -/
structure StepWait where
  fn : Nat
  prog : Nat
  slot : Nat
  pos : Nat
  order : Nat
  cls : Nat
  budget : Nat
  tEntry : Nat
  tPromo : Nat
  elem : Elem
  deriving DecidableEq, Repr

/-- Timetable: queued and running jobs, pending steps, deficits, ring pointers (chapter 5). -/
structure Timetable where
  jobs : List Job
  steps : List StepWait
  nextOrder : Nat
  /-- D(c, f) at key 128 * c + f -/
  deficit : Tab Int
  /-- visited marks at key 128 * c + f -/
  visited : Tab Bool
  pointer : Tab Nat
  /-- jobs ended by a fault or a reset: the pass of R143 is still to run -/
  passDue : Bool
  deriving DecidableEq, Repr

/-! ## Translation (chapter 6) -/

/-- One leaf in a TLB: virtual page, log2 of its size, and the table entry (R592). -/
structure TlbEntry where
  fn : Nat
  va : Nat
  log2 : Nat
  entry : Nat
  deriving DecidableEq, Repr

/-- One ATC entry (Table 6.3): untranslated range, translation and permissions. -/
structure AtcEntry where
  fn : Nat
  addr : Nat
  log2 : Nat
  target : Nat
  r : Bool
  w : Bool
  deriving DecidableEq, Repr

/-- An ATS Invalidate Request whose completion is still to be sent (R173). -/
structure AtsInval where
  fn : Nat
  addr : Nat
  log2 : Nat
  tag : Nat
  /-- held while a running job uses the range -/
  held : Bool
  /-- the jobs that use it, by their order: the range's entries serve only them -/
  jobs : List Nat
  deriving DecidableEq, Repr

/-- An outstanding Translation Request for a 4 KiB-aligned range (R162). `engine` is the copy engine that waits, 4 for a job, 5 for the
renderer, 6 for the command processor, 7 for the compositor. -/
structure AtsReq where
  fn : Nat
  addr : Nat
  len : Nat
  /-- the range's 4 KiB pages for which no completion has arrived yet -/
  left : List Nat
  engine : Nat
  pos : Nat
  /-- virtual address of the access that waits, and whether it writes -/
  va : Nat
  write : Bool
  deriving DecidableEq, Repr

/-- A page request group (R176 to R183). -/
structure PrgGroup where
  index : Nat
  fn : Nat
  engine : Nat
  pos : Nat
  pages : List Nat
  /-- first byte that the copy tile needs in the device page (R181) -/
  va : Nat
  write : Bool
  /-- pages for later groups; while `pages` is empty nothing is outstanding and the next group waits to be sent (R177) -/
  more : List Nat
  /-- timed out or orphaned: a late response is counted and frees the index (R183) -/
  dead : Bool
  deriving DecidableEq, Repr

/-- The translation unit. -/
structure Xlate where
  /-- shared TLB: most recently used first, at set number (R592) -/
  shared : Tab (List TlbEntry)
  /-- cluster TLBs at key n, copy TLBs at key 16 + engine -/
  local_ : Tab (List TlbEntry)
  /-- level-1 table pointers -/
  walk : List TlbEntry
  atc : List AtcEntry
  invals : List AtsInval
  reqs : List AtsReq
  groups : List PrgGroup
  nextGroup : Nat
  /-- the invalidation started through MT_INVAL_CTRL: function, all, first address, bytes -/
  inval : Option (Nat × Bool × Nat × Nat)
  deriving DecidableEq, Repr

/-! ## Shared cache (chapter 7) -/

/-- One way of a set: the line it holds. -/
structure Way where
  line : Nat
  dirty : Bool
  prefetched : Bool
  deriving DecidableEq, Repr

/-- One stride detector (R191). `issued` lists the lines prefetched since the stride last changed (R192). -/
structure Detector where
  key : Nat
  last : Nat
  stride : Int
  conf : Nat
  used : Nat
  issued : List Nat
  deriving DecidableEq, Repr

/-- The shared-cache directory and the scratch it carves out. -/
structure Cache where
  /-- valid ways at key 16 * (1024 * slice + set) + way -/
  dir : Tab (Option Way)
  /-- the ways of a set, at key 1024 * slice + set, most recent first: a cache way's rank is its place among the cache ways (R189) -/
  order : Tab (List Nat)
  /-- LFSR of each slice (R189) -/
  lfsr : Tab Nat
  /-- detectors by requester: cluster n, or 16 + copy engine -/
  det : Tab (List Detector)
  clock : Nat
  /-- device scratch bytes by device scratch offset (R194); a byte not listed is 0, or free where its block is undefined -/
  scratch : Tab (Option Byte)
  /-- blocks whose content a discard left undefined (R200), with the first free value they read as -/
  undef : Tab (Option Nat)
  /-- W_S and W_P in force -/
  wS : Nat
  wP : Nat
  /-- W_S and W_P of a transition in progress (R202) -/
  transition : Option (Nat × Nat)
  /-- memory lines known to hold an uncorrectable error, or none; of any other line that is open (R590) -/
  ecc : Tab (Option Bool)
  /-- an access has met such an error: its device-scope fault is still to be raised -/
  met : Option Nat
  deriving DecidableEq, Repr

/-! ## Copy engines (chapter 8) -/

/-- What a running or held transfer is doing. -/
inductive XferPhase where
  /-- bytes can move -/
  | moving
  /-- a compression's trial pass is over, its outcome is to be judged (R217) -/
  | trialDone
  /-- waiting for a Translation Completion -/
  | waitAts
  /-- copy tile held on a page request group (R176) -/
  | heldPri
  /-- waiting for responses of a pod peer -/
  | waitRemote
  /-- every byte moved -/
  | done
  /-- ended with a status -/
  | failed
  deriving DecidableEq, Repr

/-- One transfer at an engine. `cursor` counts the bytes moved, rows after rows. -/
structure Xfer where
  fn : Nat
  pos : Nat
  phase : XferPhase
  cursor : Nat
  /-- compression: emit pass under way, and the compressed bytes -/
  emit : Bool
  data : List Byte
  /-- source bytes a codec pass has read -/
  src : List Byte
  /-- host pages a page request group has succeeded for (Table 6.6) -/
  asked : List Nat
  status : Nat
  result : Nat
  deriving DecidableEq, Repr

/-- One copy engine (R206 to R208). -/
structure Engine where
  queue : List (Nat × Nat)
  running : Option Xfer
  held : List Xfer
  deriving DecidableEq, Repr

/-- An engine with nothing to do. -/
def Engine.reset : Engine := ⟨[], none, []⟩

/-! ## Clock, start-up, Logbook, trace and what leaves the device -/

/-- The clocks. `now` counts 10 ns steps of the model; `sub` is the fraction of a coarse tick run, in 1/390,625. -/
structure Clock where
  now : Nat
  fine : W64
  fineRun : Bool
  coarse : BitVec 48
  sub : Nat
  epoch : BitVec 16
  deriving DecidableEq, Repr

/-- How the handling of a configuration image stands (2.4 to 2.6). -/
inductive ImgPhase where
  /-- nothing handled since the last start -/
  | none
  /-- the image has been read and waits for its checks -/
  | loaded
  /-- every check passed: records are being applied -/
  | applying
  /-- applied, refused or found absent -/
  | settled
  deriving DecidableEq, Repr

/-- A noticeboard item's place (Table 2.3). -/
structure NbItem where
  row : Nat
  col : Nat
  hide : Bool
  deriving DecidableEq, Repr

/-- Start-up: straps, flash, image and OTP (chapter 2). -/
structure Boot where
  supplies : Bool
  podId : Nat
  ecc : Bool
  /-- fitted memory, GiB (16, 32 or 64) -/
  fitted : Nat
  perst : Bool
  cfgReady : Bool
  trained : Bool
  img : List Byte
  imgHost : Bool
  imgPhase : ImgPhase
  imgCursor : Nat
  /-- records of the image applied so far and records ignored under R65 -/
  imgRejected : Nat
  /-- the CONFIG_APPLY packet (of the PF) whose image is being handled -/
  applyPos : Option Nat
  /-- OTP digest slot, its lock fuse, and whether an interrupted programming left it unknown (R69) -/
  otp : List Byte
  otpLocked : Bool
  otpUnknown : Bool
  otpBusy : Bool
  /-- writes of PF BAR0 ignored before DONE (R36) -/
  earlyWrites : Nat
  /-- staging buffer bytes that are not 0 (R61) -/
  staging : Tab Byte
  /-- noticeboard layout: items by code, then texts in image order (R49, R50) -/
  nbItems : Tab (Option NbItem)
  nbTexts : List (Nat × Nat × List Byte)
  /-- the lines each item showed at the last refresh, by item code (R46) -/
  nbShown : List (Nat × List (List Byte))
  deriving DecidableEq, Repr

/-- A Logbook record before Caretaker appends it (Table 17.5). `fine` is the tick it was made at, where the tick ran. -/
structure LogRec where
  event : Nat
  fine : Option Nat
  origin : Nat
  fn : Nat
  detail : List Byte
  deriving DecidableEq, Repr

/-- The Logbook: appended records, newest first, and the records waiting for a coarse-tick edge (17.6). -/
structure Logbook where
  recs : List (List Byte)
  nextSeq : Nat
  lastFine : Nat
  /-- Caretaker's own -/
  own : List LogRec
  /-- records of the other islands, in the order they were produced: the first 8 are in the control ↔ keep-alive crossing, the
  rest wait in their producers (R24, `Crossing.accepted`, `Crossing.heldBack`) -/
  cross : List LogRec
  deriving DecidableEq, Repr

/-- What the device sends out: the model's own record of it, oldest first (log entry 6). -/
inductive OutEv where
  /-- an MSI-X message: function, vector, address and data; it never carries the relaxed-ordering attribute (R74) -/
  | msix (f vec addr : Nat) (data : W32)
  /-- the latency tolerance reported, snoop and no-snoop, in µs (R72) -/
  | ltr (snoop noSnoop : Nat)
  /-- the PCIe link enters a power state (R71) -/
  | linkPm (state : LinkPm)
  /-- an ATS Translation Request of a function for an untranslated range -/
  | atsRequest (f addr len : Nat)
  /-- an ATS Invalidate Completion -/
  | atsInvalDone (f tag : Nat)
  /-- one Page Request: function, group index, page, write, last of its group -/
  | pageRequest (f index page : Nat) (write last : Bool)
  /-- data returned to a BAR read or a management read -/
  | readData (data : List Byte)
  /-- the completion of a PF BAR2 read of `len` bytes that met an uncorrectable error: its EP bit is set, and its lanes read 0xFF -/
  | poisoned (len : Nat)
  /-- bytes put on the lanes of a Berar Link port -/
  | link (port : Nat) (bytes : List Byte)
  /-- PRBS31 (ITU-T O.150) on every lane of a Berar Link port for some milliseconds (R378) -/
  | prbs31 (port ms : Nat)
  /-- a frame on the main link: its count, 10 bits per component or 8, and the words of its pixels row by row -/
  | video (frame : Nat) (bpc10 : Bool) (px : List (List Nat))
  /-- the noticeboard's output: width, height, Hz, pixel clock in kHz, bits per component, and the page's characters (R44) -/
  | notice (width height hz kHz bpc : Nat) (page : List (Nat × Byte))
  /-- an AUX transaction of the host's: command, address, length, and the bytes of a write -/
  | aux (cmd addr : Nat) (mot : Bool) (len : Nat) (data : List Byte)
  /-- the two-wire port driving the bus: what, and bytes -/
  | twoWire (what : Nat) (bytes : List Byte)
  deriving DecidableEq, Repr

/-! ## Berar Link (chapter 15) -/

/-- Where a port's training stands (R378). -/
inductive TrainPhase where
  | idle | detect | equalise | config
  deriving DecidableEq, Repr

/-- A payload flit in the replay buffer: its SEQ and its valid slots' bytes (R385). -/
structure Flit where
  seq : Nat
  slots : List Byte
  deriving DecidableEq, Repr

/-- One Berar Link port beside its registers. -/
structure Port where
  train : TrainPhase
  /-- the training under way is a half-width retrain (R380) -/
  half : Bool
  /-- width cap of the training under way, 1 x2, 2 x4, 3 x8 -/
  cap : Nat
  /-- first lane locked set the order: straight or reversed -/
  reversed : Option Bool
  /-- physical lanes whose polarity is inverted -/
  inverted : Nat
  /-- lowest group of the agreed width (R379) -/
  group : Nat
  txSeq : Nat
  rxSeq : Nat
  /-- unacknowledged payload flits, oldest first -/
  replay : List Flit
  /-- a NAK has been sent for the flit now expected (R386) -/
  nakSent : Bool
  /-- messages waiting for credits or for the port, in the order given to it -/
  queue : List (List Byte)
  /-- class 3 goes before class 1 next (R394) -/
  turn3 : Bool
  /-- credits held at the next hop, last CREDIT_RET count seen, and slots freed here, by class -/
  credits : Tab Nat
  lastRet : Tab Nat
  freed : Tab Nat
  /-- slots received and not yet assembled into a message -/
  rxSlots : List Byte
  /-- whole messages received and not yet performed -/
  inbox : List (List Byte)
  /-- actions of Table 15.5 already taken in this window -/
  did8 : Bool
  did32 : Bool
  did128 : Bool
  /-- scrambler state of each logical lane, transmit side (R383) -/
  scr : Tab Nat
  /-- fine tick of the entry to the present state -/
  since : Nat
  /-- parked in Sleep or Deep Sleep (Table 19.1) -/
  parked : Bool
  /-- equalisation saved at an entry to Deep Sleep: the next training leaves out EQUALISE (Table 19.8) -/
  savedEq : Bool
  deriving DecidableEq, Repr

/-- A port at reset. -/
def Port.reset : Port :=
  { train := .idle, half := false, cap := 3, reversed := none, inverted := 0, group := 0, txSeq := 0, rxSeq := 0, replay := []
    nakSent := false, queue := [], turn3 := false, credits := [], lastRet := [], freed := [], rxSlots := [], inbox := []
    did8 := false, did32 := false, did128 := false, scr := [], since := 0, parked := false, savedEq := false }

/-- A fence watch registered for a peer (R407). -/
structure Watch where
  pod : Nat
  tag : Nat
  fn : Nat
  slot : Nat
  errMode : Bool
  value : Nat
  deriving DecidableEq, Repr

/-- Who waits for a remote response. -/
inductive Owner where
  /-- a copy engine's transfer -/
  | copy (engine : Nat)
  /-- a job, its vector unit or a shader program -/
  | job
  /-- the tile renderer -/
  | draw
  /-- SIGNAL_FENCE, WAIT_FENCE or LINK_SEND -/
  | packet
  deriving DecidableEq, Repr

/-- A request awaiting a peer's response, or its place on a port (R402). -/
structure RemoteReq where
  pod : Nat
  tag : Nat
  type : Nat
  owner : Owner
  /-- the engine that reads or writes, as the translation caches number it -/
  who : Nat
  fn : Nat
  pos : Nat
  /-- peer address, length in bytes, and the virtual address that led there -/
  addr : Nat
  len : Nat
  va : Nat
  /-- the message itself; `TAG` and `E2E_SEQ` are 0 until it is sent -/
  msg : List Byte
  /-- it has been sent, and the port it left by -/
  sent : Bool
  port : Nat
  deriving DecidableEq, Repr

/-- A read that a peer still answers, though no work waits for it any more: the length of its data (Table 15.8). -/
structure GoneRead where
  pod : Nat
  tag : Nat
  len : Nat
  deriving DecidableEq, Repr

/-- A message kept on its way through a relay (R415): its destination, the relay, and its bytes. -/
structure HeldMsg where
  dst : Nat
  via : Nat
  msg : List Byte
  deriving DecidableEq, Repr

/-- The link island. -/
structure Link where
  ports : Tab Port
  /-- pods each peer listed in its latest ROUTE_STATE, and its INCARNATION -/
  peerDirect : Tab Nat
  peerInc : Tab (Option Nat)
  /-- next E2E_SEQ sent and expected, at key 4 * pod + class (R414) -/
  txE2E : Tab Nat
  rxE2E : Tab Nat
  /-- relayed messages no STREAM_ACK covers yet, and those that wait for one to be released (R415) -/
  relayed : List HeldMsg
  backlog : List HeldMsg
  watches : List Watch
  reqs : List RemoteReq
  gone : List GoneRead
  nextTag : Nat
  /-- remote data that has arrived for the access that asked for it, by engine, function, pod and address (`podKey`) -/
  cache : Tab (Option Byte)
  deriving DecidableEq, Repr

/-! ## Shader cores, renderer and compositor (chapters 12, 13, 14) -/

/-- An entry of a wave's mask stack: a loop's or an IF's, with its outer and aux masks (12.6). -/
structure MaskEntry where
  loop : Bool
  outer : Nat
  aux : Nat
  deriving DecidableEq, Repr

/-- One wave of a shader group (12.1 to 12.3). Masks hold lane l in bit l; vector register v of lane l has key 32 * v + l. -/
structure Wave where
  core : Nat
  slot : Nat
  fn : Nat
  pos : Nat
  stage : Nat
  op : Nat
  /-- place of the element in its job -/
  elem : Nat
  group : Nat
  /-- wave number within the group -/
  num : Nat
  pc : Nat
  active : Nat
  vregs : Tab W32
  sregs : Tab W32
  /-- p1 to p7; p0 always holds -/
  preds : Tab Nat
  masks : List MaskEntry
  /-- return index and mask stack depth at the CALL -/
  calls : List (Nat × Nat)
  /-- BARs executed, and whether the wave is held at one -/
  bars : Nat
  atBar : Bool
  deriving DecidableEq, Repr

/-- A group running on a core: its local area (R299). -/
structure ShGroup where
  core : Nat
  fn : Nat
  pos : Nat
  stage : Nat
  op : Nat
  elem : Nat
  group : Nat
  local_ : Tab Byte
  deriving DecidableEq, Repr

/-- A tensor message waiting at or in a cluster's tensor array (12.9), sent by the wave in a slot of a core, for its group. -/
structure TMsg where
  core : Nat
  slot : Nat
  fn : Nat
  pos : Nat
  stage : Nat
  op : Nat
  elem : Nat
  group : Nat
  words : List W32
  deriving DecidableEq, Repr

/-- A SHADER operator under way for one element: the clusters it holds, groups started by each rank, groups ended, and its
status flags. -/
structure ShOp where
  fn : Nat
  pos : Nat
  stage : Nat
  op : Nat
  elem : Nat
  clusters : List Nat
  started : Tab Nat
  ended : Nat
  flags : Nat
  deriving DecidableEq, Repr

/-- A rectangle of pixels, its right and lower limits exclusive. -/
structure PxRect where
  x0 : Int
  y0 : Int
  x1 : Int
  y1 : Int
  deriving DecidableEq, Repr

/-- A supplied glyph atlas: address, row stride, width and height (Table 13.3). -/
structure Atlas where
  addr : Nat
  stride : Nat
  width : Nat
  height : Nat
  deriving DecidableEq, Repr

/-- A reference in a bin: record index, clip slot, atlas slot (Table 13.5). -/
structure BinRef where
  record : Nat
  clip : Nat
  atlas : Nat
  deriving DecidableEq, Repr

/-- What a pixel tile's bin holds: references in order, and its last chunk. -/
structure Bin where
  refs : List BinRef
  chunk : Nat
  deriving DecidableEq, Repr

/-- The DRAW_LIST being rendered (13.1): the record it reads next, its pass, the state table of 13.3 with the slots in force, the
bins of the pass, the chunks given out, and the pixel tiles written by earlier passes. -/
structure Draw where
  fn : Nat
  pos : Nat
  cursor : Nat
  pass : Nat
  clear : Option W32
  clips : List PxRect
  atlases : List Atlas
  clip : Nat
  atlas : Nat
  bins : Tab Bin
  used : Nat
  wrote : List Nat
  tiles : Nat
  deriving DecidableEq, Repr

/-- The tile renderer. -/
structure Renderer where
  queue : List (Nat × Nat)
  cur : Option Draw
  deriving DecidableEq, Repr

/-- One flip: the packet and the buffer it names (14.5). -/
structure Flip where
  fn : Nat
  pos : Nat
  plane0 : Nat
  plane1 : Nat
  stride0 : Nat
  stride1 : Nat
  deriving DecidableEq, Repr

/-- A layer's pending slot and bound buffer. -/
structure Layer where
  pend : Option Flip
  bound : Option Flip
  deriving DecidableEq, Repr

/-- A layer with nothing pending or bound. -/
def Layer.reset : Layer := ⟨none, none⟩

/-- A display configuration: its source (0 noticeboard, 1 compositor, 2 none) and, under the compositor, DW4 to DW13 of the
DISPLAY_CONFIG (Table 4.11). -/
structure DispCfg where
  source : Nat
  dw : List W32
  deriving DecidableEq, Repr

/-- How a DISPLAY_CONFIG in progress stands (R373). -/
inductive CfgPhase where
  /-- the frame in progress runs to its end -/
  | waitEnd
  /-- the link trains -/
  | train
  /-- the next frame start brings it into force -/
  | ready
  deriving DecidableEq, Repr

/-- What the link trains for. -/
inductive TrainFor where
  /-- the noticeboard (R44) -/
  | notice
  /-- the DISPLAY_CONFIG in progress (R373) -/
  | config
  /-- the configuration in force, whose output resumes at the next frame start (R368, R374) -/
  | resume
  deriving DecidableEq, Repr

/-- What a latch decided for the next frame (R347, R363, R364): outcomes, whether the frame is withheld, whether SKIP_FRAME fell
back, the flips bound, and the RW-B values that take effect with the frame. -/
structure LatchRes where
  outcomes : List Nat
  withheld : Bool
  fallback : Bool
  flips : List Flip
  regs : Tab W32
  deriving DecidableEq, Repr

/-- The frame in progress. -/
structure Frame where
  count : Nat
  tick : Nat
  epoch : Nat
  dpOut : Bool
  hpdLost : Bool
  latch : LatchRes
  /-- the buffers bound at this frame's latch: the latch of the next frame falls before this one ends (R347, R365) -/
  bufs : List (Nat × Flip)
  deriving DecidableEq, Repr

/-- A host AUX request (R369): it waits, not yet sent, while the device itself trains. -/
structure AuxReq where
  cmd : Nat
  addr : Nat
  mot : Bool
  len : Nat
  data : List Byte
  sent : Bool
  deriving DecidableEq, Repr

/-- The compositor and the DisplayPort transmitter (chapter 14). -/
structure Display where
  layers : Tab Layer
  /-- HPD level, and lanes and rate codes the sink's DPCD gave -/
  hpd : Bool
  sink : Nat × Nat
  /-- the noticeboard has been started (R45) -/
  nbStarted : Bool
  cfg : DispCfg
  /-- positions (in the PF's ring) of the DISPLAY_CONFIGs that wait, and the one in progress -/
  cfgQ : List Nat
  cfgCur : Option (Nat × CfgPhase)
  train : Option TrainFor
  linkUp : Bool
  /-- lanes and rate code of the last training that succeeded -/
  linkAt : Nat × Nat
  aux : Option AuxReq
  latched : Option LatchRes
  frame : Option Frame
  count : Nat
  nextSlot : Nat
  deriving DecidableEq, Repr

/-- The display after reset: the noticeboard is the source (Table 2.2), nothing started. -/
def Display.reset : Display :=
  { layers := [], hpd := false, sink := (0, 0), nbStarted := false, cfg := ⟨0, []⟩, cfgQ := [], cfgCur := none, train := none
    linkUp := false, linkAt := (0, 0), aux := none, latched := none, frame := none, count := 0, nextSlot := 0 }

/-- A trace record in the trace buffer (Table 20.4). -/
structure Trace where
  seq : Nat
  buffered : List (List Byte)
  deriving DecidableEq, Repr

/-- Run state of an island (R21). A stopping island has closed its inbound crossings and serves what they had accepted. -/
inductive Run where
  | running | stopping | stopped | starting
  deriving DecidableEq, Repr

/-- The crossings of Table 1.2; `n` a cluster, `ch` a memory channel, `p` a link port, `e` a copy engine. -/
inductive Crossing where
  | hostControl
  | hostFabric
  | controlCluster (n : Nat)
  | clusterFabric (n : Nat)
  | fabricMemory (ch : Nat)
  | fabricLink (p : Nat)
  | fabricCopy (e : Nat)
  | fabricDisplay
  | controlCopy
  | controlDisplay
  | controlLink
  | controlMemory
  | controlKeep
  deriving DecidableEq, Repr

/-- Entries a crossing holds in each direction (R18, Table 1.2). -/
def Crossing.depth : Crossing → Nat
  | .hostControl => 32
  | .hostFabric => 128
  | .controlCluster _ => 8
  | .clusterFabric _ => 64
  | .fabricMemory _ => 128
  | .fabricLink _ => 96
  | .fabricCopy _ => 48
  | .fabricDisplay => 96
  | .controlCopy => 8
  | .controlDisplay => 8
  | .controlLink => 8
  | .controlMemory => 8
  | .controlKeep => 8

/-- Of the entries given to one direction of a crossing, oldest first, those it has accepted (R18). -/
def Crossing.accepted {α : Type} (c : Crossing) (entries : List α) : List α := entries.take c.depth

/-- Those the senders still hold, because the crossing is full (R20). -/
def Crossing.heldBack {α : Type} (c : Crossing) (entries : List α) : List α := entries.drop c.depth

/-! ## Caretaker, two-wire port, core rail, power states, test port (chapters 16 to 19 and 22) -/

/-- Caretaker beside its registers and the Logbook (chapter 17). -/
structure Care where
  /-- VKA stands at 1.8 V or more -/
  alive : Bool
  /-- the epoch store: value and validity of slots 0 and 1 (R471) -/
  slot0 : Nat × Bool
  slot1 : Nat × Bool
  /-- incarnation bits [7:0] (R472) -/
  incLow : Nat
  /-- high-water mark H of the fine tick (R473) -/
  hwm : Nat
  /-- debounce of each case input: the level last sampled and how many equal samples in a row (R468) -/
  deb0 : Bool × Nat
  deb1 : Bool × Nat
  /-- protections acting now (Table 17.4) -/
  ov : Bool
  uv : Bool
  oc : Bool
  tempInh : Bool
  /-- coarse ticks of the over-current acts that count towards a latch -/
  ocActs : List Nat
  deriving DecidableEq, Repr

/-- A controller transaction in progress (16.4). -/
structure CtlTx where
  tries : Nat
  /-- status the last attempt ended with, where a retry waits (R437) -/
  lastStatus : Nat
  retryWaiting : Bool
  deriving DecidableEq, Repr

/-- The two-wire port beside its registers (chapter 16). -/
structure Mgmt where
  lastReported : Nat
  regAddr : Nat
  logIndex : Nat
  /-- step count of the last accepted LOG_NOTE -/
  noteAt : Option Nat
  /-- attention bits that became set since the last hand-raise (R446) -/
  hrNew : Nat
  ctl : Option CtlTx
  deriving DecidableEq, Repr

/-- The core rail and the thermal and power loops beside their registers (chapter 18). -/
structure Rail where
  /-- acknowledged rail voltage, mV (R484) -/
  ackMv : Nat
  /-- when a rise of the rail was last acknowledged (R480) -/
  riseAt : Option Nat
  /-- integ, in 1/4,096 MHz (R496) -/
  integ : Nat
  /-- A_b and A_s, W (R496) -/
  avgB : Rat
  avgS : Rat
  sinceRise : Nat
  /-- the loss count whose ceiling is in force: it rises with L at once and falls at a control step (R489, R492) -/
  lossL : Nat
  /-- energy not yet counted in whole millijoules, in nJ (Table 18.7) -/
  energy : Nat
  /-- the limit of R494 -/
  tmonLimit : Bool
  /-- islands whose clock is stretched, by ORIGIN code (R495) -/
  stretched : List Nat
  /-- junction readings at the last control step, 1/16 °C: hottest cluster, fabric, control -/
  tCluster : Int
  tFabric : Int
  tControl : Int
  deriving DecidableEq, Repr

/-- Whether a cluster that holds no job is stopped, starting or idle (19.2). -/
inductive ClusterSt where
  | stopped | starting | idle
  deriving DecidableEq, Repr

/-- Where the device stands between Run and a sleep state (19.5). Run and Idle differ by work alone (R505). -/
inductive PwrPhase where
  | awake
  /-- entering a state (2 or 3); forced by a fault or not -/
  | entering (target : Nat) (forced : Bool)
  | asleep (target : Nat) (forced : Bool)
  /-- leaving a state because of a wake source, latched or not; the entry had been forced or not -/
  | exiting (left src : Nat) (latched forced : Bool)
  deriving DecidableEq, Repr

/-- A POWER_REQUEST waiting for a round (R514). -/
structure PwrReq where
  pos : Nat
  target : Nat
  asked : Bool
  /-- committed: reported after the return to Run (R518) -/
  committed : Bool
  deriving DecidableEq, Repr

/-- Power states and the roll call (chapter 19). -/
structure Power where
  phase : PwrPhase
  wake : Option Nat
  /-- state the device left for the present access (Table 16.4, STATE [7:5]) -/
  leftFor : Nat
  /-- steps since the exit began -/
  exitFrom : Nat
  reqs : List PwrReq
  /-- asks waiting at the coordinator, oldest first: pod and target -/
  asks : List (Nat × Nat)
  /-- the round this device is in: target, and whether it has answered ACCEPT -/
  round : Option (Nat × Bool)
  /-- pod that proposed that round; its coordinator until the round ends, whatever pods come or go meanwhile -/
  leader : Nat
  /-- at the coordinator: pods that still have to answer -/
  waitFor : List Nat
  /-- round number of the last commit -/
  lastCommit : Nat
  deriving DecidableEq, Repr

/-- The JTAG port (22.5): instruction 0 BYPASS, 1 SAMPLE/PRELOAD, 2 EXTEST, 3 CLAMP, 4 HIGHZ; the boundary register. -/
structure Jtag where
  ir : Nat
  boundary : Nat
  deriving DecidableEq, Repr

end Sys2Proof.Machine
end

