-- ==== Sys2Proof/Machine/State.lean ====
section
/-! DEFINITION. The state of the HK1640 as plain data, the ways a step can stop, and the state after reset. -/

namespace Sys2Proof.Machine

/-- Faults of the model. The spec gives every command an effect in every state, so nothing raises this one: it stands for
a state that reset and the commands cannot produce (safe). -/
inductive Fault where
  /-- raised by nothing (safe) -/
  | unreachable
  deriving DecidableEq, Repr

/-- Refusals of the model. -/
inductive Refusal where
  /-- a row of the opcode table without a meaning yet, by mnemonic: raised by Dispatch (safe) -/
  | notModelled (mnemonic : String)
  deriving DecidableEq, Repr

/-- The device, and the queue of commands waiting for it. -/
structure State where
  /-- commands waiting, first in first out -/
  pending : List Instr
  clk : Clock
  /-- register words that differ from their reset values: last value written or set by hardware -/
  regs : Tab W32
  /-- RW-B registers whose value in force differs from reset (R11) -/
  force : Tab W32
  /-- RW-B registers written since their block's last boundary (`PENDING`) -/
  dirty : List Nat
  /-- read latches of the host and of the management port (R589) -/
  hostLatch : Tab W32
  mgmtLatch : Tab W32
  /-- 64-bit counters by the key of their low half -/
  ctr : Tab Nat
  /-- local device memory, byte by local address: the bytes written; any other byte holds undefined content (R590, log entry 1) -/
  mem : List Host.Cell
  /-- starts, restarts and losses of supplies so far: unwritten memory holds other content after each (R590) -/
  ramGen : Nat
  /-- host memory the device has written; elsewhere it holds what the host put there -/
  hmem : Tab (Option Byte)
  /-- bytes of host memory whose last write carried the relaxed-ordering attribute (R74) -/
  hrelaxed : Tab Bool
  /-- uses of free values so far -/
  freeCtr : Nat
  fns : Tab Fn
  tt : Timetable
  progs : List Prog
  xl : Xlate
  cache : Cache
  eng : Tab Engine
  boot : Boot
  log : Logbook
  trace : Trace
  /-- number of VFs enabled (0 while VF Enable is 0), PRI Enable and Outstanding Page Request Allocation of the PF -/
  vfs : Nat
  priEn : Bool
  priAlloc : Nat
  /-- the endpoint's other configuration and the link's power state (Table 3.1, R71, R72) -/
  pcie : Pcie
  islands : Tab Run
  link : Link
  waves : List Wave
  groups : List ShGroup
  /-- tensor messages of all clusters, in arrival order -/
  tmsgs : List TMsg
  shOps : List ShOp
  rend : Renderer
  disp : Display
  care : Care
  mgmt : Mgmt
  rail : Rail
  clusters : Tab ClusterSt
  pwr : Power
  jtag : Jtag
  /-- host memory-request TLPs held in Sleep and Deep Sleep, oldest first (R509) -/
  heldTlps : List Instr
  /-- packets dispatched so far -/
  dispatched : Nat
  /-- accesses that wait on the sending side for an island that does not run, oldest first (R21) -/
  waiting : List Instr
  /-- what has left the device -/
  out : List OutEv
  deriving DecidableEq, Repr

/-- Caretaker after the first cold start: the factory store of R471 held epoch 0 in slot 0 and 65,535 in slot 1, and the
cold start wrote epoch 1 to slot 1. -/
def Care.reset : Care :=
  { alive := true, slot0 := (0, true), slot1 := (1, true), incLow := 0, hwm := 0, deb0 := (false, 0), deb1 := (false, 0)
    ov := false, uv := false, oc := false, tempInh := false, ocActs := [] }

/-- The two-wire port at reset. -/
def Mgmt.reset : Mgmt :=
  { lastReported := 0, regAddr := 0, logIndex := 0, noteAt := none, hrNew := 0, ctl := none }

/-- The loops at a start (R496): integ 0, both averages at `OTHER_W`'s reset value. -/
def Rail.reset : Rail :=
  { ackMv := 0, riseAt := none, integ := 0, avgB := 12, avgS := 12, sinceRise := 0, lossL := 0, energy := 0, tmonLimit := false, stretched := []
    tCluster := 0, tFabric := 0, tControl := 0 }

/-- Run, no round. -/
def Power.reset : Power :=
  { phase := .awake, wake := none, leftFor := 0, exitFrom := 0, reqs := [], asks := [], round := none, leader := 0, waitFor := []
    lastCommit := 0 }

/-- The COLD_START record of the first cold start (R456, Table 17.5): epoch 1, coarse tick 0, source 0. Its VKA figure is
the 2.4 V at which R456 makes it (DESIGN CHOICE, log entry 9). -/
def coldStartRec : List Byte :=
  let body := bytesLE 2 0x0001 ++ bytesLE 2 1 ++ bytesLE 6 0 ++ bytesLE 2 0 ++ bytesLE 8 0 ++ [0, 0xFF] ++
    (bytesLE 1 0 ++ bytesLE 2 2400 ++ bytesLE 5 0) ++ [1]
  body ++ [crc8 0 body]

/-- The state after reset: supplies not yet valid, the values of Table 21.6, memory with nothing listed. -/
def State.reset : State :=
  { pending := []
    clk := { now := 0, fine := 0, fineRun := false, coarse := 0, sub := 0, epoch := 1 }
    regs := [], force := [], dirty := [], hostLatch := [], mgmtLatch := [], ctr := []
    mem := [], ramGen := 0, hmem := [], hrelaxed := [], freeCtr := 0
    fns := []
    tt := { jobs := [], steps := [], nextOrder := 0, deficit := [], visited := [], pointer := [], passDue := false }
    progs := []
    xl := { shared := [], local_ := [], walk := [], atc := [], invals := [], reqs := [], groups := [], nextGroup := 0, inval := none }
    cache := { dir := [], order := [], lfsr := [], det := [], clock := 0, scratch := [], undef := [], wS := 0, wP := 0, transition := none
               ecc := [], met := none }
    eng := []
    boot := { supplies := false, podId := 0, ecc := false, fitted := 16, perst := true, cfgReady := false, trained := false
              img := [], imgHost := false, imgPhase := .none, imgCursor := 0, imgRejected := 0, applyPos := none
              otp := [], otpLocked := false, otpUnknown := false, otpBusy := false, earlyWrites := 0, staging := []
              nbItems := [], nbTexts := [], nbShown := [] }
    log := { recs := [coldStartRec], nextSeq := 1, lastFine := 0, own := [], cross := [] }
    trace := { seq := 0, buffered := [] }
    vfs := 0, priEn := false, priAlloc := 0, pcie := Pcie.reset
    islands := []
    link := { ports := [], peerDirect := [], peerInc := [], txE2E := [], rxE2E := [], relayed := [], backlog := [], watches := [], reqs := []
              gone := [], nextTag := 0, cache := [] }
    waves := [], groups := [], tmsgs := [], shOps := []
    rend := { queue := [], cur := none }
    disp := Display.reset
    care := Care.reset
    mgmt := Mgmt.reset
    rail := Rail.reset
    clusters := []
    pwr := Power.reset
    jtag := ⟨0, 0⟩
    heldTlps := [], dispatched := 0, waiting := []
    out := [] }

end Sys2Proof.Machine
end

