-- ==== Sys2Proof/Machine/Ops.lean ====
section
/-! DEFINITION. Named operations over registers, counters, memories, functions, the Logbook, MSI-X and the trace unit:
every unit of the model goes through these. -/

namespace Sys2Proof.Machine

/-! ### Registers (0.5, R7 to R13) -/

/-- The word a register holds: the last value written or set by hardware, its reset value where none has been. -/
def rd (s : State) (k : Nat) : W32 := (Tab.find s.regs k).getD (regReset k)

/-- Hold a word in a register. -/
def wr (s : State) (k : Nat) (v : W32) : State :=
  { s with regs := if v = regReset k then Tab.erase s.regs k else Tab.insert s.regs k v }

/-- A field of a held register. -/
def rf (s : State) (k : Nat) (fd : Fld) : Nat := fld (rd s k) fd.1 fd.2

/-- A one-bit field of a held register. -/
def rb (s : State) (k : Nat) (fd : Fld) : Bool := rf s k fd == 1

/-- Set a field of a held register. -/
def sf (s : State) (k : Nat) (fd : Fld) (v : Nat) : State := wr s k (setFld (rd s k) fd.1 fd.2 v)

/-- The word in force of a register with RW-B fields (R11). -/
def inForce (s : State) (k : Nat) : W32 := (Tab.find s.force k).getD (regReset k)

/-- A field in force. -/
def ff (s : State) (k : Nat) (fd : Fld) : Nat := fld (inForce s k) fd.1 fd.2

/-- At a boundary the last value written to each of the block's registers takes effect and `PENDING` clears (R11). -/
def applyRwb (s : State) (inBlock : Nat → Bool) : State :=
  let ks := s.dirty.filter inBlock
  { s with
    force := ks.foldl (fun t k => if rd s k = regReset k then Tab.erase t k else Tab.insert t k (rd s k)) s.force
    dirty := s.dirty.filter (fun k => !inBlock k) }

/-- Whether a register of a block awaits its boundary: the block's `PENDING` bit (R11). -/
def rwbPending (s : State) (inBlock : Nat → Bool) : Bool := s.dirty.any inBlock

/-! ### Counters -/

/-- A 64-bit counter. -/
def ctrGet (s : State) (k : Nat) : Nat := Tab.get 0 s.ctr k

/-- Count n events; a counter saturates at its largest value. -/
def bumpBy (s : State) (k n : Nat) : State := { s with ctr := Tab.set 0 s.ctr k (satAdd top64 (ctrGet s k) n) }

/-- Count one event. -/
def bump (s : State) (k : Nat) : State := bumpBy s k 1

/-- Count one event in a saturating 32-bit count register. -/
def bump32 (s : State) (k : Nat) : State := wr s k (BitVec.ofNat 32 (satAdd top32 (rd s k).toNat 1))

/-- One rejected access (`HI_WRITE_REJECT`, Table 3.12). -/
def writeReject (s : State) : State := bump32 s R.HI_WRITE_REJECT

/-- Start-up is complete (R35). -/
def bootDone (s : State) : Bool := rb s R.CP_BOOT_STATUS F.CP_BOOT_STATUS.DONE

/-! ### Free values -/

/-- Use a free value: the state with the counter advanced, and the value. -/
def freshNat (s : State) : State × Nat := ({ s with freeCtr := s.freeCtr + 1 }, Config.freeNat s.freeCtr)

/-- n undefined bytes, from the counter's value c on. -/
def freeBytes (c n : Nat) : List Byte := (List.range n).map (fun i => BitVec.ofNat 8 (Config.freeNat (c + i)))

/-! ### Memories -/

/-- A byte of local memory: the byte last written, or, where nothing has written it, undefined content (R590). -/
def lget (s : State) (a : Nat) : Byte := (Tab.find s.mem a).getD (Config.ramByte s.ramGen a)

/-- Write a byte of local memory. -/
def lset (s : State) (a : Nat) (b : Byte) : State := { s with mem := Tab.insert s.mem a b }

/-- n bytes of local memory from an address on. -/
def readL (s : State) (a : Nat) : Nat → List Byte
  | 0 => []
  | n + 1 => lget s a :: readL s (a + 1) n

/-- Write bytes to local memory from an address on. -/
def writeL (s : State) (a : Nat) : List Byte → State
  | [] => s
  | b :: bs => writeL (lset s a b) (a + 1) bs

/-- A byte of host memory, as the device reads it. -/
def hget (s : State) (a : Nat) : Byte := (Tab.get none s.hmem a).getD (Config.hostByte s.freeCtr a)

/-- n bytes of host memory. -/
def readH (s : State) (a : Nat) : Nat → List Byte
  | 0 => []
  | n + 1 => hget s a :: readH s (a + 1) n

/-- Write bytes to host memory, with the relaxed-ordering attribute or without it (R74). -/
def writeH (s : State) (relaxed : Bool) (a : Nat) : List Byte → State
  | [] => s
  | b :: bs => writeH { s with hmem := Tab.set none s.hmem a (some b), hrelaxed := Tab.set false s.hrelaxed a relaxed } relaxed (a + 1) bs

/-- Whether a requester's writes carry the relaxed-ordering attribute: results and copy data do, where Device Control enables it; ring
objects (requester 20: reply entries and fences) never do (R74). -/
def relaxes (s : State) (who : Nat) : Bool := who != 20 && s.pcie.roEn

/-- Mapped capacity in bytes: inline ECC reserves 1/16 (R27). -/
def capBytes (s : State) : Nat :=
  if s.boot.ecc then s.boot.fitted * 0x3C000000 else s.boot.fitted * 0x40000000

/-- The device makes no further write to any memory once WEDGED is set (R537). -/
def wedgedNow (s : State) : Bool := rb s R.FL_DEVICE_FAULT F.FL_DEVICE_FAULT.WEDGED

/-! ### Functions -/

/-- The objects of a function before anything touches them. -/
def Fn.dflt (f : Nat) : Fn := if f = 0 then { Fn.reset with quota := Quota.pf } else Fn.reset

/-- The objects of a function. -/
def getFn (s : State) (f : Nat) : Fn := Tab.get (Fn.dflt f) s.fns f

/-- Put the objects of a function. -/
def setFn (s : State) (f : Nat) (x : Fn) : State := { s with fns := Tab.set (Fn.dflt f) s.fns f x }

/-- Change the objects of a function. -/
def modFn (s : State) (f : Nat) (g : Fn → Fn) : State := setFn s f (g (getFn s f))

/-- Whether a function exists: the PF always, VF k while VF Enable covers it (3.2). -/
def fnExists (s : State) (f : Nat) : Bool := decide (f ≤ s.vfs)

def fnEnabled (s : State) (f : Nat) : Bool := rb s (R.HI_FN_STATUS f) F.HI_FN_STATUS.ENABLED
def fnHalted (s : State) (f : Nat) : Bool := rb s (R.HI_FN_STATUS f) F.HI_FN_STATUS.HALTED

/-- Packets fetched and parsed, and the last tail accepted (3.4). -/
def ringHead (s : State) (f : Nat) : Nat := (rd s (R.HI_RING_HEAD f)).toNat
def ringTail (s : State) (f : Nat) : Nat := (rd s (R.HI_RING_TAIL f)).toNat

/-- log2 of the ring's and of the reply ring's slots. -/
def ringLog2 (s : State) (f : Nat) : Nat := rf s (R.HI_RING_SIZE f) F.HI_RING_SIZE.LOG2
def replyLog2 (s : State) (f : Nat) : Nat := rf s (R.HI_REPLY_SIZE f) F.HI_REPLY_SIZE.LOG2

/-- Virtual addresses of the ring objects (Table 3.3). -/
def ringBase (s : State) (f : Nat) : Nat :=
  (rd s (R.HI_RING_BASE_LO f)).toNat + rf s (R.HI_RING_BASE_HI f) F.HI_RING_BASE_HI.ADDR * 2 ^ 32
def replyBase (s : State) (f : Nat) : Nat :=
  (rd s (R.HI_REPLY_BASE_LO f)).toNat + rf s (R.HI_REPLY_BASE_HI f) F.HI_REPLY_BASE_HI.ADDR * 2 ^ 32
def fenceBase (s : State) (f : Nat) : Nat :=
  (rd s (R.HI_FENCE_BASE_LO f)).toNat + rf s (R.HI_FENCE_BASE_HI f) F.HI_FENCE_BASE_HI.ADDR * 2 ^ 32

/-- `IDLE`: head equals tail and no work in flight (Table 3.9). -/
def fnIdle (s : State) (f : Nat) : Bool := ringHead s f == ringTail s f && (getFn s f).packets.isEmpty

/-- A packet in flight, by position. -/
def getPkt (s : State) (f pos : Nat) : Option Packet := (getFn s f).packets.find? (fun p => p.pos == pos)

/-- Change a packet in flight. -/
def modPkt (s : State) (f pos : Nat) (g : Packet → Packet) : State :=
  modFn s f (fun x => { x with packets := x.packets.map (fun p => if p.pos = pos then g p else p) })

/-- A doubleword of a packet group; words beyond it read 0. -/
def Packet.dw (p : Packet) (i : Nat) : W32 := (p.words[i]?).getD 0

/-- A field of a packet's doubleword. -/
def Packet.bits (p : Packet) (i hi lo : Nat) : Nat := fld (p.dw i) hi lo

/-- An address field: two doublewords, [47:32] in the low half of the second (4.1). -/
def Packet.addr (p : Packet) (i : Nat) : Nat := (p.dw i).toNat + p.bits (i + 1) 15 0 * 2 ^ 32

/-! ### The fine tick and the Logbook (17.5, 17.6) -/

/-- The fine tick as a number. -/
def fineNow (s : State) : Nat := s.clk.fine.toNat

/-- A record of another island goes to the control-to-keep-alive crossing, or waits behind those that fill it (R24). -/
def logX (s : State) (event origin fn : Nat) (detail : List Byte) : State :=
  { s with log := { s.log with
      cross := s.log.cross ++ [⟨event, if s.clk.fineRun then some (fineNow s) else none, origin, fn, detail⟩] } }

/-- A record of Caretaker's own. -/
def logK (s : State) (event : Nat) (detail : List Byte) : State :=
  { s with log := { s.log with
      own := s.log.own ++ [⟨event, if s.clk.fineRun then some (fineNow s) else none, 0, 0xFF, detail⟩] } }

/-- A WRITE_REJECT (R10): counted, and recorded with the register's offset in the writer's BAR0 and the writer.
Its ORIGIN is 1, control (DEDUCED, log entry 88). -/
def rejectWrite (s : State) (off writer fn : Nat) : State :=
  logX (writeReject s) 0x0201 1 fn (bytesLE 4 off ++ bytesLE 1 writer)

/-- Write the fields of a register under their access codes (R7, R8, R10 to R12): the state, and whether a write to an RW-S
field was rejected because its block is busy. -/
def storeFields (s : State) (k : Nat) (v : W32) (busy : Bool) : State × Bool :=
  let old := rd s k
  let fs := regFields k
  let new := fs.foldl (fun w (r : FieldRow) =>
    match r.acc with
    | .rwS => if busy then w else setFld w r.hi r.lo (fld v r.hi r.lo)
    | .rwB => setFld w r.hi r.lo (fld v r.hi r.lo)
    | .rwL => setFld w r.hi r.lo (fld v r.hi r.lo)
    | .w1c => setFld w r.hi r.lo (Nat.land (fld old r.hi r.lo) (2 ^ (r.hi + 1 - r.lo) - 1 - fld v r.hi r.lo))
    | _ => w) old
  let s := wr s k new
  let s := if fs.any (fun r => r.acc == .rwB) && !s.dirty.contains k then { s with dirty := s.dirty ++ [k] } else s
  (s, busy && fs.any (fun r => r.acc == .rwS && fld v r.hi r.lo != fld old r.hi r.lo))

/-- Who writes a register: a function's host, an image record, or the management port (Table 17.8). -/
inductive Writer where
  | host (f : Nat)
  | image
  | mgmt
  deriving DecidableEq, Repr

/-- Write a register's fields; a rejected write is counted and recorded (R10). -/
def storeReg (s : State) (who : Writer) (k : Nat) (v : W32) (busy : Bool) : State :=
  let r := storeFields s k v busy
  if !r.2 then r.1
  else match who with
    | .host f => rejectWrite r.1 (regOff k) 0 f
    | .image => rejectWrite { r.1 with boot := { r.1.boot with imgRejected := r.1.boot.imgRejected + 1 } } (regOff k) 1 0xFF
    | .mgmt => rejectWrite r.1 (regOff k) 2 0xFF

/-- A register of the HI block or of a function window (Table 21.3). -/
def inHi (k : Nat) : Bool := decide (k < 0x100000) || decide (0x1000000 ≤ k)

/-- Before `DONE` a write outside the HI block is ignored and counted (R36), to an unlisted offset too (log entry 94). -/
def gate (k : Nat) (g : State → State) (s : State) : State :=
  if !bootDone s && !inHi k then writeReject { s with boot := { s.boot with earlyWrites := s.boot.earlyWrites + 1 } } else g s

/-! ### Status codes (Table 21.5) -/

abbrev St.DONE : Nat := 0x0000
abbrev St.BAD_OPCODE : Nat := 0x0101
abbrev St.BAD_LENGTH : Nat := 0x0102
abbrev St.BAD_PARAM : Nat := 0x0103
abbrev St.SUPERSEDED : Nat := 0x0104
abbrev St.NOT_PERMITTED : Nat := 0x0105
abbrev St.REFUSED_RESOURCES : Nat := 0x0201
abbrev St.REFUSED_DEADLINE : Nat := 0x0202
abbrev St.REFUSED_RESERVATION : Nat := 0x0203
abbrev St.BUDGET_EXCEEDED : Nat := 0x0204
abbrev St.UNPINNED_OPERAND : Nat := 0x0301
abbrev St.PAGE_FAULT_UNRESOLVED : Nat := 0x0302
abbrev St.TRANSLATION_TIMEOUT : Nat := 0x0303
abbrev St.CODEC_ILLEGAL_CODE : Nat := 0x0401
abbrev St.CODEC_DISTANCE_BEYOND_HISTORY : Nat := 0x0402
abbrev St.CODEC_LENGTH_OVERRUN : Nat := 0x0403
abbrev St.CODEC_NO_GAIN : Nat := 0x0404
abbrev St.CODEC_OUTPUT_FULL : Nat := 0x0405
abbrev St.CODEC_TRUNCATED_INPUT : Nat := 0x0406
abbrev St.DONE_SATURATED : Nat := 0x0501
abbrev St.SHADER_TRAP : Nat := 0x0502
abbrev St.PENCIL_ERASED : Nat := 0x0601
abbrev St.PENCIL_UNRESOLVED : Nat := 0x0602
abbrev St.DISPLAY_NOT_READY : Nat := 0x0901
abbrev St.LINK_LOST : Nat := 0x0A01
abbrev St.ROUTE_NONE : Nat := 0x0A02
abbrev St.REMOTE_REFUSED : Nat := 0x0A03
abbrev St.CONFIG_VERSION_REFUSED : Nat := 0x0C01
abbrev St.CONFIG_DIGEST_REFUSED : Nat := 0x0C02
abbrev St.DISCARDED_BY_FAULT : Nat := 0x0F01
abbrev St.DEVICE_FAULT : Nat := 0x0F02

/-! ### Header fields (Table 4.1) -/

def Packet.opcode (p : Packet) : Nat := p.bits 0 7 0
def Packet.cls (p : Packet) : Nat := p.bits 0 9 8
def Packet.fFence (p : Packet) : Bool := p.bits 0 10 10 == 1
def Packet.fReply (p : Packet) : Bool := p.bits 0 11 11 == 1
def Packet.fBarrier (p : Packet) : Bool := p.bits 0 12 12 == 1
def Packet.fProv (p : Packet) : Bool := p.bits 0 13 13 == 1
def Packet.tag (p : Packet) : Nat := p.bits 0 31 16
def Packet.slot (p : Packet) : Nat := p.bits 1 8 0
def Packet.ext (p : Packet) : Nat := p.bits 1 31 16
def Packet.fence (p : Packet) : Nat := (p.dw 2).toNat + (p.dw 3).toNat * 2 ^ 32

/-- The packet will write its fence slot. -/
def Packet.fences (p : Packet) : Bool := p.fFence && !p.noFence

/-! ### Ends and reports of packets -/

/-- The work of a packet ends with a status and a RESULT word; its report is still to be written. -/
def finishPkt (s : State) (f pos status result : Nat) : State :=
  modPkt s f pos (fun p => if p.phase = .complete then p
    else { p with phase := .complete, status := status, result := result % 2 ^ 32 })

/-- A packet's report must wait for an earlier packet: of the same tag (R93), of the same slot (R91), or any while the
function's discard writes its reports in ring order (R540). -/
def reportWaits (x : Fn) (p : Packet) : Bool :=
  (x.packets.takeWhile (fun q => q.pos != p.pos)).any (fun q =>
    q.tag == p.tag || (q.fences && p.fences && q.slot == p.slot) || x.discard.isSome)

end Sys2Proof.Machine
end

