-- ==== Sys2Proof/Machine/Cache.lean ====
section
/-! DEFINITION. The shared cache's directory (chapter 7): slices, sets and ways, replacement, stride prefetch, scratch and
the carve-out. The directory decides counters, write-backs and which line an ECC error strikes; the bytes themselves are in
`State.mem` (R185: there is one path to local memory) and in `Cache.scratch`. -/

namespace Sys2Proof.Machine

/-- Slice and set of a line address (R186). -/
def lineSlice (l : Nat) : Nat :=
  Nat.xor (Nat.xor (nbits l 3 0) (nbits l 7 4)) (Nat.xor (nbits l 11 8) (nbits l 15 12))
def lineSet (l : Nat) : Nat := nbits l 13 4

/-- Memory channel of a local address (R591). -/
def memChannel (a : Nat) : Nat := nbits a 9 7

/-- Key of a way in the directory. -/
def wayKey (slice set way : Nat) : Nat := 16 * (1024 * slice + set) + way

/-- Ways of a slice that take fills: not scratch, not becoming scratch, not the open staging buffer (7.2, R202, R61). -/
def cacheWays (s : State) (slice : Nat) : List Nat :=
  let w := max s.cache.wS ((s.cache.transition.map (·.1)).getD 0)
  (List.range 16).filter (fun i =>
    decide (w ≤ i) && !(slice == 0 && decide (8 ≤ i) && rb s R.CP_STAGE_CTRL F.CP_STAGE_CTRL.STAGE_EN))

/-- A way's line, where it is valid. -/
def dirGet (s : State) (slice set way : Nat) : Option Way := Tab.get none s.cache.dir (wayKey slice set way)

/-- Put a way. -/
def dirSet (s : State) (slice set way : Nat) (x : Option Way) : State :=
  { s with cache := { s.cache with dir := Tab.set none s.cache.dir (wayKey slice set way) x } }

/-- The way that holds a line. -/
def dirFind (s : State) (l : Nat) : Option (Nat × Way) :=
  (List.range 16).findSome? (fun w =>
    match dirGet s (lineSlice l) (lineSet l) w with
    | some x => if x.line = l then some (w, x) else none
    | none => none)

/-- Whether a line is present in the shared cache. -/
def linePresent (s : State) (l : Nat) : Bool := (dirFind s l).isSome

/-- The ways of a set from the most to the least recently used: in ascending order before any use (log entry 106). -/
def setOrder (s : State) (slice set : Nat) : List Nat := Tab.get (List.range 16) s.cache.order (1024 * slice + set)

/-- Put a way before the cache way that then stands k-th among the cache ways of a list, counted from 0, or last. -/
def putAt (ways : List Nat) (way : Nat) : Nat → List Nat → List Nat
  | _, [] => [way]
  | k, x :: l =>
    if ways.contains x then
      match k with
      | 0 => way :: x :: l
      | k + 1 => x :: putAt ways way k l
    else x :: putAt ways way k l

/-- A cache way takes a rank, from 1 on; the ways between its old rank and the new one move by one (R189). -/
def rankMove (s : State) (slice set way rank : Nat) : State :=
  let l := putAt (cacheWays s slice) way (rank - 1) ((setOrder s slice set).filter (· != way))
  { s with cache := { s.cache with order := Tab.set (List.range 16) s.cache.order (1024 * slice + set) l } }

/-- A cache way's rank, from 1 to W_C. -/
def wayRank (s : State) (slice set way : Nat) : Nat :=
  ((setOrder s slice set).filter (fun w => (cacheWays s slice).contains w)).findIdx (· == way) + 1

/-- Next state of a slice's LFSR, polynomial x^16 + x^15 + x^13 + x^4 + 1 (R189; the shift direction is log entry 8). -/
def cacheLfsrNext (v : Nat) : Nat :=
  (v * 2 + b2n (xor (xor (nbit v 15) (nbit v 14)) (xor (nbit v 12) (nbit v 3)))) % 65536

/-- LFSR of a slice; seeded with slice + 1. -/
def cacheLfsr (s : State) (slice : Nat) : Nat := Tab.get (slice + 1) s.cache.lfsr slice

/-- Way that a fill of a set takes: the lowest-numbered invalid cache way, else the policy's victim (R189). -/
def victimWay (s : State) (slice set : Nat) (ways : List Nat) : Option Nat :=
  match ways.find? (fun w => (dirGet s slice set w).isNone) with
  | some w => some w
  | none =>
    if nbit (rd s R.SC_REPLACE).toNat slice then ways[cacheLfsr s slice % ways.length]?
    else ways.find? (fun w => wayRank s slice set w == ways.length)

/-- Fill a line: the LFSR advances, the victim is written back where dirty, and the line takes its rank (R189). -/
def cacheFill (s : State) (l : Nat) (dirty prefetched : Bool) : State :=
  let slice := lineSlice l
  let set := lineSet l
  let ways := cacheWays s slice
  let s := { s with cache := { s.cache with lfsr := Tab.set (slice + 1) s.cache.lfsr slice (cacheLfsrNext (cacheLfsr s slice)) } }
  match victimWay s slice set ways with
  | none => s
  | some w =>
    let s := match dirGet s slice set w with
      | some x => if x.dirty then bump s 0x400110 else s
      | none => s
    let s := dirSet s slice set w (some ⟨l, dirty, prefetched⟩)
    rankMove s slice set w (if prefetched then (ways.length + 1) / 2 else 1)

/-- How an access meets a line: it reads it, writes part of it, or writes the whole of it. -/
inductive Touch where
  | read
  | part
  | whole
  deriving DecidableEq, Repr

/-- A memory line holds an uncorrectable error, so far as is known; where nothing is, that is open (R590). Without inline ECC nothing is
detected. -/
def lineErr (s : State) (l : Nat) : Bool := s.boot.ecc && (Tab.get none s.cache.ecc l).getD (Config.ramErr s.ramGen l)

/-- What is known of a memory line's error. -/
def setLineErr (s : State) (l : Nat) (v : Bool) : State :=
  if s.boot.ecc then { s with cache := { s.cache with ecc := Tab.insert s.cache.ecc l (some v) } } else s

/-- One demand access of an engine to a line (R187, R189, R205, R590). A hit takes rank 1. A miss that reads memory (a read, or the read
before a partial-line write) meets an error there; else it fills, where the access allocates and the slice has a cache way. A whole-line
write reads no memory and clears any error. -/
def cacheAccess (s : State) (allocates : Bool) (t : Touch) (l : Nat) : State :=
  let s := if t = .whole then setLineErr s l false else s
  match dirFind s l with
  | some (w, x) =>
    let s := bump s 0x400100
    let s := if x.prefetched then bump s 0x400128 else s
    let s := dirSet s (lineSlice l) (lineSet l) w (some { x with dirty := x.dirty || t != .read, prefetched := false })
    rankMove s (lineSlice l) (lineSet l) w 1
  | none =>
    let fills := allocates && !(cacheWays s (lineSlice l)).isEmpty
    let s := bump s (if fills then 0x400108 else 0x400118)
    if t != .whole && lineErr s l then
      { setLineErr s l true with cache := { (setLineErr s l true).cache with met := some (s.cache.met.getD (l * 128)) } }
    else if fills then cacheFill s l (t != .read) false
    else s

/-! ### Stride prefetch (R191 to R193) -/

/-- `QUEUE_LIMIT` in force (Table 7.4). -/
def queueLimit (s : State) : Nat := min 128 (max 16 (rf s R.SC_PF_CTRL F.SC_PF_CTRL.QUEUE_LIMIT))

/-- A prefetch fill from memory: an uncorrectable error there discards it and is counted (R193). -/
def prefetchFill (s : State) (l : Nat) : State :=
  if lineErr s l then bump (setLineErr s l true) 0x400148 else bump (cacheFill s l false true) 0x400120

/-- Prefetch line `l` for a detector of region `key`, where no condition of R192 skips it. It is dropped where the crossing of its channel
holds `QUEUE_LIMIT` entries or more: how many it holds is a free value within its depth (log entry 87). -/
def prefetchOne (s : State) (key : Nat) (l : Nat) : State :=
  if linePresent s l || l / 16384 != key || decide (capBytes s ≤ l * 128) || (cacheWays s (lineSlice l)).isEmpty then s
  else
    let r := freshNat s
    if queueLimit s ≤ r.2 % ((Crossing.fabricMemory (memChannel (l * 128))).depth + 1) then bump r.1 0x400130 else prefetchFill r.1 l

/-- Lines a trained detector asks for after a read of line L, nearest first, leaving out those already issued (R192). -/
def prefetchLines (d : Detector) (l depth : Nat) : List Nat :=
  ((List.range depth).map (fun k => (l : Int) + (k + 1) * d.stride)).filterMap
    (fun i => if i < 0 || d.issued.contains i.toNat then none else some i.toNat)

/-- A detector after a demand read of line L (R191). -/
def Detector.train (d : Detector) (l now : Nat) : Detector :=
  let delta : Int := (l : Int) - d.last
  if delta = 0 then { d with used := now }
  else if delta.natAbs > 64 then { d with stride := 0, conf := 0, issued := [], last := l, used := now }
  else if delta = d.stride then { d with conf := min (d.conf + 1) 7, last := l, used := now }
  else { d with stride := delta, conf := 1, issued := [], last := l, used := now }

/-- The detector to give a new region: a free one, else the least recently used of the four. -/
def detReplace (ds : List Detector) (d : Detector) : List Detector :=
  if ds.length < 4 then ds ++ [d]
  else
    let oldest := ds.foldl (fun m x => min m x.used) d.used
    match ds.findIdx? (fun x => x.used == oldest) with
    | some i => ds.set i d
    | none => ds

/-- Train a requester's detectors on a demand read of a line, and issue what a trained one asks for (R191). -/
def prefetchTrain (s : State) (req : Nat) (l : Nat) : State :=
  let en := if req < 16 then rb s R.SC_PF_CTRL F.SC_PF_CTRL.EN_CLUSTER else rb s R.SC_PF_CTRL F.SC_PF_CTRL.EN_COPY
  if !en then s
  else
    let key := l / 16384
    let now := s.cache.clock + 1
    let ds := Tab.get [] s.cache.det req
    let d := match ds.find? (fun d => d.key == key) with
      | some d => d.train l now
      | none => ⟨key, l, 0, 0, now, []⟩
    let trainAt := max 2 (rf s R.SC_PF_CTRL F.SC_PF_CTRL.TRAIN)
    let depth := min 32 (max 1 (rf s R.SC_PF_CTRL F.SC_PF_CTRL.DEPTH))
    let ls := if trainAt ≤ d.conf then prefetchLines d l depth else []
    let d := { d with issued := d.issued ++ ls }
    let ds := if ds.any (fun x => x.key == key) then ds.map (fun x => if x.key = key then d else x) else detReplace ds d
    let s := { s with cache := { s.cache with clock := now, det := Tab.set [] s.cache.det req ds } }
    ls.foldl (fun s l => prefetchOne s key l) s

/-- Line addresses a byte range touches, in ascending order. -/
def linesOf (a n : Nat) : List Nat :=
  if n = 0 then [] else (List.range ((a + n - 1) / 128 + 1 - a / 128)).map (fun i => a / 128 + i)

/-- The cache's part in reading a range of local memory: one demand read of each line, in ascending order. `req` is the
requester whose detectors train; none for the host, peers, display and renderer. -/
def touchRead (s : State) (req : Option Nat) (allocates : Bool) (a n : Nat) : State :=
  (linesOf a n).foldl (fun s l =>
    let s := cacheAccess s allocates .read l
    match req with
    | some r => prefetchTrain s r l
    | none => s) s

/-- The cache's part in writing a range of local memory: each line whole or in part (R187). -/
def touchWrite (s : State) (allocates : Bool) (a n : Nat) : State :=
  (linesOf a n).foldl (fun s l => cacheAccess s allocates (if a ≤ l * 128 ∧ l * 128 + 128 ≤ a + n then .whole else .part) l) s

/-- Drop a slice's ways from the directory, counting the dirty lines written back. -/
def dropWays (s : State) (inDrop : Nat → Nat → Bool) : State :=
  let hit := s.cache.dir.filter (fun e => inDrop (e.1 / 16384) (e.1 % 16) && e.2.isSome)
  let dirtyN := (hit.filter (fun e => (e.2.map (·.dirty)).getD false)).length
  bumpBy { s with cache := { s.cache with dir := s.cache.dir.filter (fun e => !inDrop (e.1 / 16384) (e.1 % 16)) } } 0x400110 dirtyN

/-! ### Scratch (7.4) -/

/-- Device scratch offset of a program's scratch offset (R197), where the program holds it. -/
def progScratch (p : Prog) (x : Nat) : Option Nat := (p.blocks[x / 65536]?).map (fun b => b * 65536 + x % 65536)

/-- A byte of device scratch. -/
def scrGet (s : State) (o : Nat) : Byte :=
  match Tab.get none s.cache.scratch o with
  | some b => b
  | none =>
    match Tab.get none s.cache.undef (o / 65536) with
    | some c => BitVec.ofNat 8 (Config.freeNat (c + o))
    | none => 0

/-- A byte of a program's scratch. -/
def sget (s : State) (p : Prog) (x : Nat) : Byte :=
  match progScratch p x with
  | some o => scrGet s o
  | none => 0

/-- Write a byte of a program's scratch. -/
def sset (s : State) (p : Prog) (x : Nat) (b : Byte) : State :=
  match progScratch p x with
  | some o => { s with cache := { s.cache with scratch := Tab.insert s.cache.scratch o (some b) } }
  | none => s

/-- The scratch bytes of one line, from a device scratch offset on, become undefined (R188). -/
def undefScrLine (s : State) (o : Nat) : State :=
  { s with
    freeCtr := s.freeCtr + 128
    cache := { s.cache with scratch :=
      (freeBytes s.freeCtr 128).zipIdx.foldl (fun t b => Tab.insert t (o + b.2) (some b.1)) s.cache.scratch } }

/-- Program-area size in 64 KiB blocks: scratch less the pencil pool (R194). -/
def areaBlocks (s : State) : Nat := (s.cache.wS - s.cache.wP) * 32

/-- Scratch size and pencil pool size in KiB (7.4). -/
def scratchKiB (s : State) : Nat := s.cache.wS * 2048
def pencilKiB (s : State) : Nat := s.cache.wP * 2048

/-- Zero the scratch of given blocks (R197). -/
def zeroBlocks (s : State) (bs : List Nat) : State :=
  { s with cache := { s.cache with
      scratch := s.cache.scratch.filter (fun e => !bs.contains (e.1 / 65536))
      undef := s.cache.undef.filter (fun e => !bs.contains e.1) } }

/-- The scratch of given blocks becomes undefined (R200). -/
def undefBlocks (s : State) (bs : List Nat) : State :=
  let s := zeroBlocks s bs
  { s with
    freeCtr := s.freeCtr + 2 ^ 24
    cache := { s.cache with undef := bs.foldl (fun t b => Tab.insert t b (some s.freeCtr)) s.cache.undef } }

end Sys2Proof.Machine
end

