-- ==== Sys2Proof/Machine/Trace.lean ====
section
/-! DEFINITION. What the device records and signals of itself: trace records (20.5) and MSI-X messages (3.7). -/

namespace Sys2Proof.Machine

/-! ### Tracing (20.5) -/

/-- The trace unit is on and takes events of a trace point with this function and tag (R548). -/
def traceTakes (s : State) (point fn : Nat) (tag : Option Nat) : Bool :=
  rb s R.FL_TRACE_CTRL F.FL_TRACE_CTRL.EN &&
  (if point < 32 then nbit (rd s R.FL_TRACE_SELECT_LO).toNat point else nbit (rd s R.FL_TRACE_SELECT_HI).toNat (point - 32)) &&
  (!rb s R.FL_TRACE_CTRL F.FL_TRACE_CTRL.FN_FILTER || fn == 0xFF || rf s R.FL_TRACE_CTRL F.FL_TRACE_CTRL.FUNCTION == fn) &&
  (!rb s R.FL_TRACE_CTRL F.FL_TRACE_CTRL.TAG_FILTER || tag.isNone || some (rf s R.FL_TRACE_CTRL F.FL_TRACE_CTRL.TAG) == tag)

/-- A 32-byte record goes into the trace ring through the shared cache, or is dropped and counted where that is full (R547, R549). -/
def tracePut (s : State) (rec32 : List Byte) : State :=
  let n := min 20 (max 10 (rf s R.FL_TRACE_SIZE F.FL_TRACE_SIZE.LOG2))
  let written := (rd s R.FL_TRACE_WRITTEN).toNat
  let full := !rb s R.FL_TRACE_CTRL F.FL_TRACE_CTRL.WRAP && decide (sub32 (written + 1) (rd s R.FL_TRACE_READ).toNat > 2 ^ n)
  if full || wedgedNow s then bump s 0xF00440
  else
    let base := (rd s R.FL_TRACE_BASE_LO).toNat + rf s R.FL_TRACE_BASE_HI F.FL_TRACE_BASE_HI.ADDR * 2 ^ 32
    let a := base + 32 * (written % 2 ^ n)
    bump (wr (writeL (touchWrite s true a 32) a rec32) R.FL_TRACE_WRITTEN (BitVec.ofNat 32 (written + 1))) 0xF00438

/-- Record an event of a trace point (R548, R549). `fn` 0xFF and `tag` none mark a record without a function or tag. -/
def traceEv (s : State) (point origin fn : Nat) (tag : Option Nat) (pencil : Bool) (data : List Byte) : State :=
  if !traceTakes s point fn tag then s
  else
    tracePut { s with trace := { s.trace with seq := (s.trace.seq + 1) % 2 ^ 32 } }
      ([BitVec.ofNat 8 (point % 64 + b2n pencil * 64), BitVec.ofNat 8 origin, BitVec.ofNat 8 fn, 0] ++
        bytesLE 2 (tag.getD 0) ++ bytesLE 2 s.clk.epoch.toNat ++ bytesLE 8 (fineNow s) ++ bytesLE 4 s.trace.seq ++
        (data ++ List.replicate (12 - data.length) 0))

/-! ### MSI-X (R95) -/

/-- Send one message of a vector. -/
def sendMsix (s : State) (f vec : Nat) : State :=
  let v := Tab.get Vector.reset (getFn s f).msix vec
  traceEv { s with out := s.out ++ [.msix f vec v.addr v.data] } 6 2 f none false (bytesLE 1 vec)

/-- Raise a vector: nothing while MSI-X Enable is 0; a masked vector sets its PBA bit; an unmasked one sends one message. -/
def raiseVec (s : State) (f vec : Nat) : State :=
  let x := getFn s f
  if !x.msixEn then s
  else if x.fnMask || (Tab.get Vector.reset x.msix vec).masked then
    setFn s f { x with pba := if nbit x.pba vec then x.pba else x.pba + 2 ^ vec }
  else sendMsix s f vec

/-- Raise the vector an event map names, where it is enabled (Table 3.7). -/
def raiseEvent (s : State) (f : Nat) (vec en : Fld) : State :=
  if rb s (R.HI_MSIX_EVENT_MAP f) en then raiseVec s f (rf s (R.HI_MSIX_EVENT_MAP f) vec) else s

/-- Raise a fence group's vector, where it is enabled (Table 3.6). -/
def raiseFence (s : State) (f slot : Nat) : State :=
  let g := slot / 32
  let w := rd s (R.HI_MSIX_FENCE_MAP_n f (g / 4))
  if fld w (8 * (g % 4) + 7) (8 * (g % 4) + 7) = 1 then raiseVec s f (fld w (8 * (g % 4) + 3) (8 * (g % 4))) else s

/-- Raise the PF's vector that a block's EVENT_CTRL register names: [3:0] the vector, [4] its enable. -/
def raiseCtrl (s : State) (k : Nat) : State :=
  if fld (rd s k) 4 4 = 1 then raiseVec s 0 (fld (rd s k) 3 0) else s

end Sys2Proof.Machine
end

