-- ==== Sys2Proof/Machine/Xlate.lean ====
section
/-! DEFINITION. Address translation (chapter 6): table walks, TLBs, the ATC, pinned checks, and reads and writes of a
function's address space. Lookups are pure; `touch…` operations do the bookkeeping of the caches they pass. -/

namespace Sys2Proof.Machine

/-- What a lookup finds: no valid entry, a malformed one (R156), or a leaf and the log2 of its page's size. -/
inductive Leaf where
  | none
  | malformed
  | leaf (entry log2 : Nat)
  deriving DecidableEq, Repr

/-- k of a function's root: `L1_LOG2`, 9 outside 9 to 18 (Table 6.7). -/
def rootK (s : State) (f : Nat) : Nat :=
  let k := rf s (R.MT_ROOT_f_CTRL f) F.MT_ROOT_f_CTRL.L1_LOG2
  if 9 ≤ k && k ≤ 18 then k else 9

/-- Local address of a function's level-1 table. -/
def rootAddr (s : State) (f : Nat) : Nat :=
  (rd s (R.MT_ROOT_f_LO f)).toNat + rf s (R.MT_ROOT_f_HI f) F.MT_ROOT_f_HI.ADDR * 2 ^ 32

/-- An 8-byte table entry. -/
def readEntry (s : State) (a : Nat) : Nat := ofBytesLE (readL s a 8)

/-- The target address of a leaf, and its TARGET and POD_ID (Table 6.1). -/
def leafAddr (e : Nat) : Nat := nbits e 63 21 * 2 ^ 21
def leafTarget (e : Nat) : Nat := nbits e 6 5
def leafPod (e : Nat) : Nat := nbits e 8 7

/-- Whether a valid entry of a level is malformed (R156). -/
def entryMalformed (s : State) (level e : Nat) : Bool :=
  if nbit e 1 then
    let t := leafTarget e
    let size := if level = 1 then 2 ^ 30 else 2 ^ 21
    nbits e 20 9 != 0 || t == 3 ||
    (level == 1 && nbits e 29 21 != 0) ||
    ((t == 0 || t == 2) && nbits e 63 38 != 0) ||
    (t == 0 && decide (capBytes s < leafAddr e + size)) ||
    (t == 2 && (level == 2 || leafPod e == s.boot.podId)) ||
    (t != 2 && leafPod e != 0)
  else
    level == 2 || nbits e 11 2 != 0 || nbits e 63 38 != 0 ||
    decide (capBytes s < nbits e 37 12 * 4096 + 4096)

/-- Address of the level-1 entry of a virtual address, where the walk reads one (R154). -/
def l1Entry? (s : State) (f va : Nat) : Option Nat :=
  if !rb s (R.MT_ROOT_f_CTRL f) F.MT_ROOT_f_CTRL.EN || decide (2 ^ (30 + rootK s f) ≤ va) then none
  else some (rootAddr s f + 8 * (va / 2 ^ 30))

/-- The level-1 table lies wholly below the mapped capacity (R154). -/
def rootFits (s : State) (f : Nat) : Bool := decide (rootAddr s f + 8 * 2 ^ rootK s f ≤ capBytes s)

/-- A level-1 table pointer held in the walk cache. -/
def walkHit (s : State) (f va : Nat) : Option Nat :=
  (s.xl.walk.find? (fun t => t.fn == f && t.va == va / 2 ^ 30 * 2 ^ 30)).map (·.entry)

/-- The second half of a walk, from a table pointer. -/
def walkL2 (s : State) (va ptr : Nat) : Leaf :=
  let e := readEntry s (nbits ptr 37 12 * 4096 + 8 * nbits va 29 21)
  if !nbit e 0 then .none else if entryMalformed s 2 e then .malformed else .leaf e 21

/-- A walk of a function's tables (6.1). Where the root does not fit, every walk of the function finds a malformed entry (R154). -/
def walk (s : State) (f va : Nat) : Leaf :=
  if !rootFits s f then .malformed
  else match l1Entry? s f va with
    | none => .none
    | some a =>
      match walkHit s f va with
      | some ptr => walkL2 s va ptr
      | none =>
        let e := readEntry s a
        if !nbit e 0 then .none
        else if entryMalformed s 1 e then .malformed
        else if nbit e 1 then .leaf e 30
        else walkL2 s va e

/-- Sets of the shared TLB that a lookup probes: for 2 MiB leaves and for 1 GiB leaves (R592). -/
def tlbSet2M (f va : Nat) : Nat := Nat.xor (nbits va 29 21) f
def tlbSet1G (f va : Nat) : Nat := Nat.xor (nbits va 38 30) f

/-- Whether a TLB entry maps an address of a function. -/
def TlbEntry.maps (t : TlbEntry) (f va : Nat) : Bool := t.fn == f && decide (va / 2 ^ t.log2 = t.va / 2 ^ t.log2)

/-- A leaf held by a requester's own TLB or by the shared TLB. `who`: 0 to 15 clusters, 16 to 19 copy engines, others none. -/
def tlbFind (s : State) (who f va : Nat) : Option TlbEntry :=
  match (Tab.get [] s.xl.local_ who).find? (fun t => t.maps f va) with
  | some t => some t
  | none =>
    match (Tab.get [] s.xl.shared (tlbSet2M f va)).find? (fun t => t.log2 == 21 && t.maps f va) with
    | some t => some t
    | none => (Tab.get [] s.xl.shared (tlbSet1G f va)).find? (fun t => t.log2 == 30 && t.maps f va)

/-- The leaf that serves an address: a TLB's where one holds it, else what a walk finds. -/
def leafOf (s : State) (who f va : Nat) : Leaf :=
  match tlbFind s who f va with
  | some t => .leaf t.entry t.log2
  | none => walk s f va

/-- Put an entry first in a most-recently-used list of at most n. -/
def mruPut (n : Nat) (t : TlbEntry) (l : List TlbEntry) : List TlbEntry := (t :: l.filter (fun x => x != t)).take n

/-- Use of a leaf by the shared TLB: the entry becomes the most recently used of its set. -/
def sharedPut (s : State) (t : TlbEntry) : State :=
  let set := if t.log2 = 30 then tlbSet1G t.fn t.va else tlbSet2M t.fn t.va
  { s with xl := { s.xl with shared := Tab.set [] s.xl.shared set (mruPut 8 t (Tab.get [] s.xl.shared set)) } }

/-- Use of a leaf by a requester's own TLB: 32 entries in a cluster, 64 in a copy engine (Table 6.3). -/
def localPut (s : State) (who : Nat) (t : TlbEntry) : State :=
  if who ≥ 20 then s
  else { s with xl := { s.xl with
    local_ := Tab.set [] s.xl.local_ who (mruPut (if who < 16 then 32 else 64) t (Tab.get [] s.xl.local_ who)) } }

/-- A malformed entry met (R157): counted and recorded with the function and the virtual address. -/
def malformedMet (s : State) (f va : Nat) : State := logX (bump32 s R.MT_MALFORMED_COUNT) 0x0301 3 f (bytesLE 6 va)

/-- The table reads of a walk, through the shared cache, and the pointer it leaves in the walk cache. -/
def touchWalk (s : State) (f va : Nat) : State :=
  if !rootFits s f then s
  else match l1Entry? s f va with
    | none => s
    | some a =>
      let ptr := match walkHit s f va with
        | some p => p
        | none => readEntry s a
      let s := if (walkHit s f va).isSome then s else touchRead s none true a 8
      if nbit ptr 0 && !nbit ptr 1 && !entryMalformed s 1 ptr then
        let t : TlbEntry := ⟨f, va / 2 ^ 30 * 2 ^ 30, 30, ptr⟩
        touchRead { s with xl := { s.xl with walk := mruPut 256 t s.xl.walk } } none true
          (nbits ptr 37 12 * 4096 + 8 * nbits va 29 21) 8
      else s

/-- The bookkeeping of one lookup (R592, R157). -/
def touchLeaf (s : State) (who f va : Nat) : State :=
  match tlbFind s who f va with
  | some t => if (Tab.get [] s.xl.local_ who).contains t then localPut s who t else sharedPut s t
  | none =>
    let s' := touchWalk s f va
    match walk s f va with
    | .none => s'
    | .malformed => malformedMet s' f va
    | .leaf e n =>
      let t : TlbEntry := ⟨f, va / 2 ^ n * 2 ^ n, n, e⟩
      localPut (sharedPut s' t) who t

/-- Where an access of a function's address space goes. -/
inductive Acc where
  /-- local memory, host memory, or a peer's local memory, at an address -/
  | loc (a : Nat)
  | hst (a : Nat)
  | pod (p a : Nat)
  /-- no valid entry, a malformed one or a missing permission -/
  | bad
  /-- a Translation Request for this untranslated host address is needed -/
  | ats (a : Nat)
  /-- an ATS translation grants too little -/
  | deny (a : Nat)
  /-- an ATS invalidation of the range is held: the access waits (R173) -/
  | hold
  deriving DecidableEq, Repr

/-- The ATC entry that covers an untranslated address of a function. -/
def atcFind (s : State) (f a : Nat) : Option AtcEntry :=
  s.xl.atc.find? (fun t => t.fn == f && decide (a / 2 ^ t.log2 = t.addr / 2 ^ t.log2))

/-- A held invalidation covers an untranslated address and does not serve the requester: it serves only the jobs that used the range
when it arrived (R173). -/
def heldFrom (s : State) (who f a : Nat) : Bool :=
  s.xl.invals.any (fun q => q.held && q.fn == f && decide (a / 2 ^ q.log2 = q.addr / 2 ^ q.log2) &&
    !(decide (who < 16) && s.tt.jobs.any (fun j => j.running && j.clusters.contains who && q.jobs.contains j.order)))

/-- Where an access goes (Table 6.2, R162, R167). `let_`: it has been let through already, so no hold stops it (R173). -/
def xlate (s : State) (who f va : Nat) (let_ write : Bool) : Acc :=
  if decide (2 ^ 48 ≤ va) then .bad
  else match leafOf s who f va with
    | .none => .bad
    | .malformed => .bad
    | .leaf e n =>
      if !(if write then nbit e 3 else nbit e 2) then .bad
      else
        let a := leafAddr e / 2 ^ n * 2 ^ n + va % 2 ^ n
        match leafTarget e with
        | 0 => .loc a
        | 2 => .pod (leafPod e) a
        | _ =>
          if !(getFn s f).atsEn then .hst a
          else if !let_ && heldFrom s who f a then .hold
          else match atcFind s f a with
            | none => .ats a
            | some t =>
              if (if write then t.w else t.r) then .hst (t.target + a % 2 ^ t.log2)
              else .deny a

/-- A range cut at 4 KiB boundaries: start and length of each piece. -/
def pieces : Nat → Nat → Nat → List (Nat × Nat)
  | 0, _, _ => []
  | fuel + 1, va, n =>
    if n = 0 then []
    else
      let m := min n (4096 - va % 4096)
      (va, m) :: pieces fuel (va + m) (n - m)

/-- The pieces of a range. -/
def piecesOf (va n : Nat) : List (Nat × Nat) := pieces (n / 4096 + 2) va n

/-- Whether every access of a range reaches local or host memory now. -/
def rangeOk (s : State) (who f va n : Nat) (job write : Bool) : Bool :=
  (piecesOf va n).all (fun p =>
    match xlate s who f p.1 job write with
    | .loc _ => true
    | .hst _ => true
    | _ => false)

/-- The first piece of a range that does not reach local or host memory now. -/
def rangeIssue (s : State) (who f va n : Nat) (job write : Bool) : Option (Nat × Acc) :=
  (piecesOf va n).findSome? (fun p =>
    match xlate s who f p.1 job write with
    | .loc _ => none
    | .hst _ => none
    | x => some (p.1, x))

/-- Read a range; bytes of a piece that cannot be read now are 0 (callers test `rangeOk` first). -/
def readVA (s : State) (who f va n : Nat) (job : Bool) : List Byte :=
  ((piecesOf va n).map (fun p =>
    match xlate s who f p.1 job false with
    | .loc a => readL s a p.2
    | .hst a => readH s a p.2
    | _ => List.replicate p.2 0)).flatten

/-- Write bytes piece by piece; a piece that cannot be written now is left out (callers test `rangeOk` first). Nothing is
written once WEDGED is set (R537). -/
def writePieces (s : State) (who f : Nat) (job : Bool) : List (Nat × Nat) → List Byte → State
  | [], _ => s
  | p :: ps, bs =>
    let s' := match xlate s who f p.1 job true with
      | .loc a => writeL s a (bs.take p.2)
      | .hst a => writeH s (relaxes s who) a (bs.take p.2)
      | _ => s
    writePieces s' who f job ps (bs.drop p.2)

/-- Write a range of a function's address space. -/
def writeVA (s : State) (who f va : Nat) (job : Bool) (bs : List Byte) : State :=
  if wedgedNow s then s else writePieces s who f job (piecesOf va bs.length) bs

/-- The caches' part in an access to a range: the lookup of each piece's page, and the shared cache for local pieces. -/
def touchVA (s : State) (who f va n : Nat) (job write : Bool) : State :=
  (piecesOf va n).foldl (fun s p =>
    let s' := touchLeaf s who f p.1
    match xlate s who f p.1 job write with
    | .loc a =>
      if write then touchWrite s' (decide (who < 21)) a p.2
      else touchRead s' (if who < 20 then some who else none) (decide (who < 21)) a p.2
    | _ => s') s

/-- Look up the pages of some addresses: the walks of accesses that are not made count too (R157, R592). -/
def lookUp (s : State) (who f : Nat) (vas : List Nat) : State := vas.foldl (fun s va => touchLeaf s who f va) s

/-- 4 KiB pages of a range. -/
def page4s (a n : Nat) : List Nat :=
  if n = 0 then [] else (List.range ((a + n - 1) / 4096 + 1 - a / 4096)).map (fun i => (a / 4096 + i) * 4096)

/-- Send a Translation Request for the 4 KiB-aligned range of n untranslated bytes, once (R162). -/
def sendAts (s : State) (f a n engine pos va : Nat) (write : Bool) : State :=
  let ps := page4s a n
  if s.xl.reqs.any (fun r => r.fn == f && r.engine == engine && r.pos == pos && ps.all (fun p => decide (r.addr ≤ p) && decide (p < r.addr + r.len))) then s
  else
    let base := a / 4096 * 4096
    let len := 4096 * ps.length
    { s with xl := { s.xl with reqs := s.xl.reqs ++ [⟨f, base, len, ps, engine, pos, va, write⟩] }, out := s.out ++ [.atsRequest f base len] }

/-- The device page of an address: first address and size; 2 MiB where no entry is found. -/
def devicePage (s : State) (who f va : Nat) : Nat × Nat :=
  match leafOf s who f va with
  | .leaf _ k => (va / 2 ^ k * 2 ^ k, 2 ^ k)
  | _ => (va / 2 ^ 21 * 2 ^ 21, 2 ^ 21)

/-- Send the Translation Request of an access of n bytes at `start` that misses at `va`, whose untranslated address is `a`: for what the
access needs within the device page (R162). -/
def sendAtsFor (s : State) (who f a engine pos va start n : Nat) (write : Bool) : State :=
  let d := devicePage s who f va
  let lo := max start d.1
  let hi := min (start + n) (d.1 + d.2)
  sendAts s f (a - (va - lo)) (hi - lo) engine pos lo write

/-- 2 MiB units a range overlaps. -/
def pagesOf (va n : Nat) : List Nat :=
  if n = 0 then [] else (List.range ((va + n - 1) / 2 ^ 21 + 1 - va / 2 ^ 21)).map (fun i => (va / 2 ^ 21 + i) * 2 ^ 21)

/-- Whether one page passes the pinned check (R164). -/
def pagePinned (s : State) (f : Nat) (write : Bool) (va : Nat) : Bool :=
  match leafOf s 99 f va with
  | .leaf e _ => nbit e 4 && nbit e 2 && (!write || nbit e 3)
  | _ => false

/-- The pinned check of an extent (R164). -/
def pinned (s : State) (f va n : Nat) (write : Bool) : Bool :=
  n == 0 || (decide (va + n ≤ 2 ^ 48) && (pagesOf va n).all (pagePinned s f write))

/-- The TLB's part in a pinned check. -/
def touchPages (s : State) (f va n : Nat) : State := (pagesOf va n).foldl (fun s p => touchLeaf s 99 f p) s

/-- The pinned check of a ring object: also `TARGET` 0 or 1 (R78). -/
def ringPinned (s : State) (f va n : Nat) (write : Bool) : Bool :=
  pinned s f va n write && (pagesOf va n).all (fun p =>
    match leafOf s 99 f p with
    | .leaf e _ => decide (leafTarget e ≤ 1)
    | _ => false)

/-- The translation fault record of a function (Table 6.10). -/
def xlateRecord (s : State) (f va : Nat) (dst : Bool) (status pos : Nat) : State :=
  let s := wr s (R.HI_FN_XLATE_FAULT_0 f) (BitVec.ofNat 32 va)
  let s := wr s (R.HI_FN_XLATE_FAULT_1 f) (BitVec.ofNat 32 (nbits va 47 32 + b2n dst * 2 ^ 16 + 2 ^ 31))
  let s := wr s (R.HI_FN_XLATE_FAULT_2 f) (BitVec.ofNat 32 status)
  wr s (R.HI_FN_XLATE_FAULT_3 f) (BitVec.ofNat 32 pos)

end Sys2Proof.Machine
end

