-- ==== Sys2Proof/Machine/LinkTx.lean ====
section
/-! DEFINITION. The sending side of Berar Link (15.3 to 15.5, 15.8): CRC-64, messages, routes, flits and the port queue. -/

namespace Sys2Proof.Machine

/-! ### CRC-64 (R383) -/

/-- ECMA-182 polynomial. -/
def crc64Poly : Nat := 0x42F0E1EBA9EA3693

/-- One bit step of the CRC, most significant bit first: the polynomial joins where bit 63 goes out as 1. -/
def crc64Step (c : Nat) : Nat := Nat.xor (c * 2 % 2 ^ 64) (crc64Poly * (c / 2 ^ 63 % 2))

/-- One byte into the CRC: no reflection. -/
def crc64Byte (c : Nat) (b : Byte) : Nat :=
  (List.range 8).foldl (fun c _ => crc64Step c) (Nat.xor c (b.toNat * 2 ^ 56))

/-- CRC-64 of bytes: initial value 0, no final XOR. -/
def crc64 (bs : List Byte) : Nat := bs.foldl crc64Byte 0

/-! ### Messages (Tables 15.7, 15.8) -/

/-- A byte of a message, and little-endian fields. -/
def mByte (m : List Byte) (i : Nat) : Nat := ((m[i]?).getD 0).toNat
def mLE (m : List Byte) (i n : Nat) : Nat := ofBytesLE ((m.drop i).take n)

def mType (m : List Byte) : Nat := mByte m 0
def mClass (m : List Byte) : Nat := nbits (mByte m 1) 1 0
def mSrc (m : List Byte) : Nat := nbits (mByte m 1) 3 2
def mDst (m : List Byte) : Nat := nbits (mByte m 1) 5 4
def mHop (m : List Byte) : Bool := nbit (mByte m 1) 6
def mTag (m : List Byte) : Nat := mLE m 2 2
def mSeq (m : List Byte) : Nat := mLE m 4 4

/-- Bytes padded with zeros to whole 16-byte slots. -/
def padSlots (bs : List Byte) : List Byte := bs ++ List.replicate ((16 - bs.length % 16) % 16) 0

/-- A message: header slot and data slots. `fields` are header bytes 8 to 15. -/
def mkMsg (type cls src dst : Nat) (hop : Bool) (tag seq : Nat) (fields data : List Byte) : List Byte :=
  [BitVec.ofNat 8 type, BitVec.ofNat 8 (cls + src * 4 + dst * 16 + b2n hop * 64)] ++ bytesLE 2 tag ++ bytesLE 4 seq ++
    (fields ++ List.replicate (8 - fields.length) 0) ++ padSlots data

/-- Data slots a message of a type has, from its header (Table 15.8). -/
def dataSlots (m : List Byte) (rspLen : Nat) : Nat :=
  match mType m with
  | 0x02 => ceilDiv (mByte m 13 + 1) 16
  | 0x03 => 1
  | 0x08 => if mLE m 8 2 = 0 then ceilDiv rspLen 16 else 0
  | 0x0A => 1
  | 0x10 => 1
  | 0x11 => 1
  | 0x13 => 2
  | 0x19 => 1
  | _ => 0

/-! ### Ports and routes (R412) -/

/-- A port's state beside its registers. -/
def getPort (s : State) (p : Nat) : Port := Tab.get Port.reset s.link.ports p
def setPort (s : State) (p : Nat) (x : Port) : State :=
  { s with link := { s.link with ports := Tab.set Port.reset s.link.ports p x } }

/-- `STATE` of a port (Table 15.2). -/
def portState (s : State) (p : Nat) : Nat := rf s (R.BL_LINK_n_STATE p) F.BL_LINK_n_STATE.STATE

/-- ACTIVE or RETRAINING: counts as up for routing (Table 15.2). -/
def portUp (s : State) (p : Nat) : Bool := portState s p == 3 || portState s p == 4

/-- Peer's pod ID at a port. -/
def portPeer (s : State) (p : Nat) : Nat := rf s (R.BL_LINK_n_STATE p) F.BL_LINK_n_STATE.PEER_POD

/-- The port that serves a pod directly. -/
def directPort (s : State) (d : Nat) : Option Nat := [0, 1, 2].find? (fun p => portUp s p && portPeer s p == d)

/-- The route to a pod: its port, and the relay pod for a relayed route (R412). -/
def route (s : State) (d : Nat) : Option (Nat × Option Nat) :=
  if d = s.boot.podId then none
  else match directPort s d with
    | some p => some (p, none)
    | none =>
      ([0, 1, 2, 3].filter (fun k => k != s.boot.podId && k != d)).findSome? (fun k =>
        match directPort s k with
        | some p => if nbit (Tab.get 0 s.link.peerDirect k) d then some (p, some k) else none
        | none => none)

/-- Whether a route to a pod exists. -/
def hasRoute (s : State) (d : Nat) : Bool := (route s d).isSome

/-! ### Flits -/

/-- The 256 bytes of a flit (Table 15.4). `kind` 0 payload, 1 idle, 2 NAK. -/
def flitBytes (x : Port) (kind seq : Nat) (slots : List Byte) : List Byte :=
  let n := slots.length / 16
  let ret := (List.range 4).foldl (fun a c => a + (Tab.get 0 x.freed c % 4096) * 2 ^ (12 * c)) 0
  let body := bytesLE 2 seq ++ bytesLE 2 ((x.rxSeq + 65535) % 65536) ++ [BitVec.ofNat 8 (kind + 4), 0] ++
    bytesLE 2 (2 ^ n - 1) ++ bytesLE 6 ret ++ [0, 0] ++ slots ++ List.replicate (224 - slots.length) 0 ++ List.replicate 8 0
  body ++ bytesLE 8 (crc64 body)

/-- Width code of a port in lanes. -/
def lanesOf (code : Nat) : Nat := match code with | 1 => 2 | 2 => 4 | 3 => 8 | _ => 0

/-- One bit of the scrambler: its output bit and next state (R383). -/
def scrBit (st : Nat) : Bool × Nat :=
  let n := xor (xor (xor (nbit st 22) (nbit st 20)) (xor (nbit st 15) (nbit st 7))) (xor (nbit st 4) (nbit st 1))
  (nbit st 22, (st * 2) % 2 ^ 23 + b2n n)

/-- Scramble one byte, bit 0 first. -/
def scrByte (st : Nat) (b : Byte) : Byte × Nat :=
  let r := (List.range 8).foldl (fun (a : Nat × Nat) i =>
    let q := scrBit a.2
    (a.1 + b2n (xor (nbit b.toNat i) q.1) * 2 ^ i, q.2)) (0, st)
  (BitVec.ofNat 8 r.1, r.2)

/-- Seed of a logical lane's scrambler (R383). -/
def scrSeed (lane : Nat) : Nat := (0xFFF * (lane + 1)) % 2 ^ 23

/-- Scramble a flit over the lanes of the agreed group (R383, R384). -/
def scrambleFlit (x : Port) (w : Nat) : Nat → List Byte → Port × List Byte
  | _, [] => (x, [])
  | i, b :: bs =>
    let lane := x.group * w + i % w
    let r := scrByte (Tab.get (scrSeed lane) x.scr lane) b
    let q := scrambleFlit { x with scr := Tab.set (scrSeed lane) x.scr lane r.2 } w (i + 1) bs
    (q.1, r.1 :: q.2)

/-- Put a flit on the lanes. -/
def emitFlit (s : State) (p kind seq : Nat) (slots : List Byte) : State :=
  let x := getPort s p
  let w := max 2 (lanesOf (rf s (R.BL_LINK_n_STATE p) F.BL_LINK_n_STATE.WIDTH))
  let r := scrambleFlit x w 0 (flitBytes x kind seq slots)
  let s := setPort s p r.1
  { s with out := s.out ++ [.link p r.2] }

/-- Send the slot bytes given as payload flits of up to 14 slots: they enter the replay buffer (R385). -/
def sendFlits (s : State) (p : Nat) : Nat → List Byte → State
  | 0, _ => s
  | fuel + 1, bs =>
    if bs.isEmpty then s
    else
      let x := getPort s p
      let sl := bs.take 224
      let s := emitFlit s p 0 x.txSeq sl
      let x := getPort s p
      let s := setPort s p { x with txSeq := (x.txSeq + 1) % 65536, replay := x.replay ++ [⟨x.txSeq, sl⟩] }
      sendFlits (bump s (0xA00040 + 0x100 * p)) p fuel (bs.drop 224)

/-- Class order of a port: 0 first, then 2, then 1 and 3 alternately (R394). -/
def classOrder (x : Port) : List Nat := if x.turn3 then [0, 2, 3, 1] else [0, 2, 1, 3]

/-- The next message a port may send: the first, in class order, whose class holds credits for all of its slots (R391). -/
def nextToSend (x : Port) : Option (List Byte) :=
  (classOrder x).findSome? (fun c =>
    match x.queue.find? (fun m => mClass m == c) with
    | some m => if m.length / 16 ≤ Tab.get 0 x.credits c then some m else none
    | none => none)

/-- Send every message that credits, the replay buffer and the port's state allow. -/
def pump (s : State) (p : Nat) : Nat → State
  | 0 => s
  | fuel + 1 =>
    let x := getPort s p
    if portState s p != 3 || x.parked || decide (512 ≤ x.replay.length) then s
    else match nextToSend x with
      | none => s
      | some m =>
        let c := mClass m
        let s := setPort s p { x with
          queue := x.queue.erase m
          turn3 := if c = 1 then true else if c = 3 then false else x.turn3
          credits := Tab.set 0 x.credits c (Tab.get 0 x.credits c - m.length / 16) }
        pump (sendFlits s p 32 m) p fuel

/-- Put a message in a port's queue and send what can be sent. -/
def portSend (s : State) (p : Nat) (m : List Byte) : State :=
  let x := getPort s p
  let s := setPort s p { x with queue := x.queue ++ [m] }
  pump s p (x.queue.length + 1)

/-- A message with its HOP bit set or cleared. -/
def setHop (m : List Byte) (hop : Bool) : List Byte :=
  m.set 1 (BitVec.ofNat 8 (mByte m 1 % 64 + b2n hop * 64))

/-- The message belongs to a numbered stream (R414). -/
def numbered (type : Nat) : Bool := type != 0x20 && type != 0x21

/-- Whether a relay still leads to a pod (R412): its port is up and its latest ROUTE_STATE lists the pod. -/
def relayOk (s : State) (k d : Nat) : Bool := (directPort s k).isSome && nbit (Tab.get 0 s.link.peerDirect k) d

/-- The route of a stream: while messages that went through a relay are unacknowledged and that relay still leads there, the
stream stays on it (R416). -/
def streamRoute (s : State) (d c : Nat) : Option (Nat × Option Nat) :=
  match s.link.relayed.find? (fun h => h.dst == d && mClass h.msg == c) with
  | some h => if relayOk s h.via d then (directPort s h.via).map (fun p => (p, some h.via)) else route s d
  | none => route s d

/-- Put a whole message on its stream's route: a relayed one is held until a STREAM_ACK covers it, at most 1,024 for each
destination, and a further one waits (R415). With no route nothing is sent. -/
def putMsg (s : State) (dst : Nat) (m0 : List Byte) : State :=
  match streamRoute s dst (mClass m0) with
  | none => s
  | some (p, none) => portSend s p (setHop m0 false)
  | some (p, some k) =>
    let m := setHop m0 true
    if !numbered (mType m) then portSend s p m
    else
      let same := s.link.relayed.filter (fun h => h.dst == dst)
      if same.any (fun h => mClass h.msg == mClass m && mSeq h.msg == mSeq m) then portSend s p m
      else if decide (1024 ≤ same.length) || s.link.backlog.any (fun h => h.dst == dst) then
        { s with link := { s.link with backlog := s.link.backlog ++ [⟨dst, k, m⟩] } }
      else portSend { s with link := { s.link with relayed := s.link.relayed ++ [⟨dst, k, m⟩] } } p m

/-- Send a message on its route, with the next E2E_SEQ of its stream (R414). With no route nothing is sent. -/
def sendMsg (s : State) (dst type cls tag : Nat) (fields data : List Byte) : State × List Byte :=
  if !hasRoute s dst then (s, [])
  else
    let k := 4 * dst + cls
    let q := if numbered type then Tab.get 0 s.link.txE2E k else 0
    let m := mkMsg type cls s.boot.podId dst false tag q fields data
    let s := if numbered type then { s with link := { s.link with txE2E := Tab.set 0 s.link.txE2E k ((q + 1) % 2 ^ 32) } } else s
    (putMsg s dst m, m)

/-! ### Requests (R402) -/

/-- A port holds fewer than 512 requests that await a response. -/
def portRoom (s : State) (p : Nat) : Bool := decide ((s.link.reqs.filter (fun r => r.sent && r.port == p)).length < 512)

/-- A message with its `TAG` and `E2E_SEQ`. -/
def stampMsg (m : List Byte) (tag seq : Nat) : List Byte := m.take 2 ++ bytesLE 2 tag ++ bytesLE 4 seq ++ m.drop 8

/-- A waiting request leaves by a port: it has its tag and its place in its stream (R414). -/
def launch (s : State) (r : RemoteReq) (p : Nat) : State :=
  let tag := s.link.nextTag
  let k := 4 * r.pod + mClass r.msg
  let q := Tab.get 0 s.link.txE2E k
  let m := stampMsg r.msg tag q
  let s := traceEv s 49 4 r.fn ((getPkt s r.fn r.pos).map (·.tag)) false [BitVec.ofNat 8 r.type, BitVec.ofNat 8 r.pod]
  putMsg { s with link := { s.link with
      nextTag := (tag + 1) % 65536
      txE2E := Tab.set 0 s.link.txE2E k ((q + 1) % 2 ^ 32)
      reqs := s.link.reqs.erase r ++ [{ r with tag := tag, msg := m, sent := true, port := p }] } } r.pod m

/-- The first waiting request whose route's port has room, with that port. -/
def nextReq (s : State) : Option (RemoteReq × Nat) :=
  s.link.reqs.findSome? (fun r =>
    if r.sent then none
    else match streamRoute s r.pod (mClass r.msg) with
      | some (p, _) => if portRoom s p then some (r, p) else none
      | none => none)

/-- Send every waiting request that has room, oldest first. -/
def issueReqs : Nat → State → State
  | 0, s => s
  | fuel + 1, s =>
    match nextReq s with
    | some (r, p) => issueReqs fuel (launch s r p)
    | none => s

/-- Waiting requests go out where responses have made room. -/
def issueWaiting (s : State) : State := issueReqs (s.link.reqs.filter (fun r => !r.sent)).length s

/-- Make a request: it is sent when its port has room, and kept until its response arrives. -/
def sendReq (s : State) (owner : Owner) (who dst type cls fn pos addr len va : Nat) (fields data : List Byte) : State :=
  let m := mkMsg type cls s.boot.podId dst false 0 0 fields data
  issueWaiting { s with link := { s.link with
    reqs := s.link.reqs ++ [⟨dst, 0, type, owner, who, fn, pos, addr, len, va, m, false, 0⟩] } }

/-- Some requests are waited for no more. What a peer still answers to a read keeps its length. -/
def dropReqs (s : State) (gives : RemoteReq → Bool) : State :=
  let reads := s.link.reqs.filter (fun r => gives r && r.sent && r.type == 1)
  { s with link := { s.link with
      reqs := s.link.reqs.filter (fun r => !gives r)
      gone := s.link.gone ++ reads.map (fun r => ⟨r.pod, r.tag, r.len⟩) } }

/-- Answer a request: same tag, class 2 (Table 15.8). -/
def sendRsp (s : State) (m : List Byte) (type status : Nat) (data : List Byte) : State :=
  (sendMsg s (mSrc m) type 2 (mTag m) (bytesLE 2 status) data).1

end Sys2Proof.Machine
end

