-- ==== Sys2Proof/Machine/RollCall.lean ====
section
/-! DEFINITION. The pod roll call (19.4) and wakes (19.3): members, votes, verdicts, latched wakes, held host TLPs, and the
attention sources that wake the device. -/

namespace Sys2Proof.Machine

/-! ### Members (R411) -/

/-- A pod is a member: the device itself, its direct peers, and the pods that those peers list. -/
def isMember (s : State) (d : Nat) : Bool := d == s.boot.podId || hasRoute s d

/-- The pod's members, in ascending order. -/
def members (s : State) : List Nat := [0, 1, 2, 3].filter (isMember s)

/-- Every other member. -/
def otherMembers (s : State) : List Nat := (members s).filter (· != s.boot.podId)

/-- The coordinator: the member with the lowest pod ID (19.4). -/
def coordinator (s : State) : Nat := ((members s).head?).getD s.boot.podId

/-- This device is the coordinator. -/
def isCoord (s : State) : Bool := coordinator s == s.boot.podId

/-! ### Messages (Table 19.2) -/

/-- This device coordinates the round that is under way. -/
def leadsRound (s : State) : Bool := s.pwr.round.isSome && s.pwr.leader == s.boot.podId

/-- `ROUND` of this device. -/
def roundNow (s : State) : Nat := rf s R.PM_STATE F.PM_STATE.ROUND

/-- Send a roll-call message; with no route it fails silently (19.4.3). -/
def rcSend (s : State) (type target b9 round dst : Nat) : State :=
  if !hasRoute s dst then s
  else
    let s := traceEv s 52 1 0xFF none false (bytesLE 1 type ++ bytesLE 2 round)
    (sendMsg s dst type 0 0 (bytesLE 1 target ++ bytesLE 1 b9 ++ bytesLE 2 round) []).1

/-- Send a roll-call message to every other member. -/
def rcAll (s : State) (type target b9 round : Nat) : State :=
  (otherMembers s).foldl (fun s d => rcSend s type target b9 round d) s

/-- WAKE to every other member, with the round of the last commit (R517, R521). -/
def sendWakes (s : State) (src : Nat) : State := rcAll s 0x36 0 src s.pwr.lastCommit

/-! ### Answers (R515, Table 19.3) -/

/-- A packet counts as work in flight for a vote: every packet from its fetch until its report is written (R125, 20.2), but for a
POWER_REQUEST that waits for a round (R514). -/
def voteWork (p : Packet) : Bool := !(p.opcode == 0x71 && p.phase == .dispatched)

/-- Reason 1: work in flight, or a report held. -/
def reasonWork (s : State) : Bool :=
  !s.tt.jobs.isEmpty || !s.link.reqs.isEmpty ||
  (List.range (s.vfs + 1)).any (fun f => (getFn s f).packets.any voteWork)

/-- Reason 2: packets not yet fetched. -/
def reasonRing (s : State) : Bool :=
  (List.range (s.vfs + 1)).any (fun f => fnEnabled s f && ringHead s f != ringTail s f)

/-- Reason 4: a port in training. -/
def reasonPort (s : State) : Bool := [0, 1, 2].any (fun p => portState s p == 2 || portState s p == 4)

/-- Reason 5: CONFIG_APPLY, OTP programming, a carve-out transition or an invalidation. -/
def reasonBusy (s : State) : Bool :=
  s.boot.applyPos.isSome || s.boot.otpBusy || s.cache.transition.isSome || s.xl.inval.isSome

/-- The first reason of Table 19.3 that holds. -/
def declineReason (s : State) (target : Nat) : Option Nat :=
  if reasonWork s then some 1
  else if reasonRing s then some 2
  else if rf s R.DC_STATUS F.DC_STATUS.SOURCE != 0 || rb s R.DC_STATUS F.DC_STATUS.CONFIG_BUSY then some 3
  else if reasonPort s then some 4
  else if reasonBusy s then some 5
  else if s.pwr.wake.isSome then some 6
  else if target = 2 && !rb s R.PM_RC_CFG F.PM_RC_CFG.ALLOW_SLEEP then some 7
  else if target = 3 && !rb s R.PM_RC_CFG F.PM_RC_CFG.ALLOW_DEEP then some 7
  else none

/-! ### Islands (R21) -/

/-- Whether an island runs, by ORIGIN code of Table 17.5. -/
def islandRun (s : State) (i : Nat) : Run := Tab.get .running s.islands i

/-- Set an island's run state. -/
def setIsland (s : State) (i : Nat) (r : Run) : State := { s with islands := Tab.set .running s.islands i r }

/-- An island is being restarted. -/
def islandRestarting (s : State) : Bool := s.islands.any (fun e => e.2 == .starting)

/-! ### POWER_REQUESTs (R514, R518) -/

/-- The oldest uncommitted request of a target ends with RESULT 1 (R518, R517; which of several is log entry 31). -/
def failReq (s : State) (target : Nat) : State :=
  match s.pwr.reqs.find? (fun q => !q.committed && q.asked && q.target == target) with
  | some q => finishPkt { s with pwr := { s.pwr with reqs := s.pwr.reqs.erase q } } 0 q.pos St.DONE 1
  | none => s

/-- A device-wide state is to be entered (Table 19.5, t = 0): fetching stops, wakes latch, and the islands that will stop close
their inbound crossings (R21). -/
def beginEntry (s : State) (target : Nat) (forced : Bool) : State :=
  let s := if s.pwr.wake.isSome && !forced then bump s 0xE003A8 else s
  { s with
    islands := [2, 3, 4, 5, 6, 7].foldl (fun t i => if Tab.get .running t i = .running then Tab.set .running t i .stopping else t) s.islands
    pwr := { s.pwr with
      phase := .entering target forced, round := none, waitFor := []
      reqs := s.pwr.reqs.map (fun q => if q.target = target && !forced then { q with committed := true } else q) } }

/-! ### Rounds at the coordinator (R513 to R516, R518) -/

/-- ROLL_CALL record of the coordinator (Table 19.9). -/
def rollCallRec (s : State) (target : Nat) (commit : Bool) (reason pod : Nat) : State :=
  logX s 0x1103 1 0xFF ([BitVec.ofNat 8 target, BitVec.ofNat 8 (b2n commit)] ++ bytesLE 2 (roundNow s) ++
    [BitVec.ofNat 8 s.boot.podId, BitVec.ofNat 8 reason, BitVec.ofNat 8 pod])

/-- The round is aborted: VERDICT with `COMMIT` 0, and the ask it served leaves the queue. -/
def abortRound (s : State) (reason pod : Nat) : State :=
  match s.pwr.round with
  | none => s
  | some (t, _) =>
    let s := rcAll (bump s 0xE00390) 0x35 t 0 (roundNow s)
    let s := rollCallRec s t false reason pod
    let mine := (s.pwr.asks.head?.map (·.1)) == some s.boot.podId
    let s := { s with pwr := { s.pwr with round := none, waitFor := [], wake := none, asks := s.pwr.asks.tail } }
    if mine then failReq s t else s

/-- The round commits: VERDICT with `COMMIT` 1, and entry begins. Asks still waiting are asked again after the return (R518). -/
def commitRound (s : State) : State :=
  match s.pwr.round with
  | none => s
  | some (t, _) =>
    let s := rcAll (bump s 0xE00388) 0x35 t 1 (roundNow s)
    let s := rollCallRec s t true 0 0
    beginEntry { s with pwr := { s.pwr with lastCommit := roundNow s, asks := [] } } t false

/-- Propose one round for the oldest ask, and give the coordinator's own answer. -/
def proposeRound (s : State) (t : Nat) : State :=
  let r := (roundNow s + 1) % 65536
  let s := bump (sf s R.PM_STATE F.PM_STATE.ROUND r) 0xE00380
  let others := otherMembers s
  let s := rcAll { s with pwr := { s.pwr with round := some (t, true), leader := s.boot.podId, waitFor := others } } 0x31 t 0 r
  match declineReason s t with
  | some reason => abortRound s reason s.boot.podId
  | none => if others.isEmpty then commitRound s else s

/-- Serve waiting asks, one round at a time (R514). -/
def serveAsks : Nat → State → State
  | 0, s => s
  | fuel + 1, s =>
    if s.pwr.round.isSome || !isCoord s || decide (s.pwr.phase ≠ .awake) then s
    else match s.pwr.asks with
      | [] => s
      | (_, t) :: _ => serveAsks fuel (proposeRound s t)

/-- Serve waiting asks. -/
def serve (s : State) : State := serveAsks (s.pwr.asks.length + 1) s

/-- Queue an ask at the coordinator. -/
def queueAsk (s : State) (pod t : Nat) : State := serve { s with pwr := { s.pwr with asks := s.pwr.asks ++ [(pod, t)] } }

/-- Ask for a round (R514): at the coordinator locally, else by message. -/
def askRound (s : State) (t : Nat) : State :=
  if isCoord s then queueAsk s s.boot.podId t else rcSend s 0x30 t 0 0 (coordinator s)

/-! ### Wakes (R509, R510, R519) -/

/-- The device is in, entering or leaving Sleep or Deep Sleep: host memory-request TLPs are held. -/
def held (s : State) : Bool := decide (s.pwr.phase ≠ .awake)

/-- The first wake source latched is kept (R510). -/
def keepWake (s : State) (src : Nat) : State :=
  if s.pwr.wake.isSome then s else { s with pwr := { s.pwr with wake := some src } }

/-- A wake source appears. In a round it acts as Table 19.4 states; during entry and exit it is latched (R510); asleep it starts the exit. A
wake that came by a message is not local (R516): in a round it is only kept for the commit that may follow. -/
def latchWake (s : State) (src : Nat) : State :=
  match s.pwr.phase with
  | .awake =>
    match s.pwr.round with
    | none => s
    | some (_, accepted) =>
      if src = 1 then (if accepted && s.pwr.wake.isNone then { s with pwr := { s.pwr with wake := some 1 } } else s)
      else if leadsRound s then serve (abortRound s 6 s.boot.podId)
      else if !accepted || ((s.pwr.wake.map (· != 1)).getD false) then s
      else
        let s := rcSend (bump s 0xE003A0) 0x34 0 6 (roundNow s) s.pwr.leader
        { s with pwr := { s.pwr with wake := some src } }
  | .entering _ forced => keepWake (if forced then s else bump s 0xE003A8) src
  | .asleep t forced => { s with pwr := { s.pwr with phase := .exiting t src false forced, exitFrom := s.clk.now } }
  | .exiting _ _ _ _ => keepWake s src

/-- The islands that a host access must reach, by ORIGIN code: the island of the register's block (Table 1.1), or the fabric
and memory islands of PF BAR2. A stopped cluster's window is served by the control island (R22). -/
def islandsOf (i : Instr) : List Nat :=
  let byKey (k : Nat) : List Nat :=
    if k < 0x100000 then [2]
    else if k < 0x300000 then [1]
    else if k < 0x500000 then [3]
    else if k < 0x600000 then [6]
    else if k < 0x800000 then [1]
    else if k < 0xA00000 then [5]
    else if k < 0xB00000 then [4]
    else if k < 0xC00000 then [1]
    else if k < 0xD00000 then [0]
    else if k < 0x1000000 then [1]
    else [2]
  match i with
  | .registerWrite f off _ _ _ => byKey (if f = 0 then off else 0)
  | .latchingRead f off _ => byKey (if f = 0 then off else 0)
  | .invalidate => [3]
  | .scCarve _ => [3]
  | .retrain _ => [4]
  | .blLinkEn _ _ => [4]
  | .auxStart _ => [5]
  | .bar2Access _ _ _ => [3, 7]
  | .kaLogDataRead => [0]
  | .ocLatch => [0]
  | .ringEn _ _ => [2]
  | .stop _ _ => [2]
  | .ringReset _ => [2]
  | .hiReplyHead _ _ => [2]
  | .msixUnmask _ _ => [2]
  | _ => [1]

/-- Every island that an access must reach runs. -/
def reachable (s : State) (i : Instr) : Bool := (islandsOf i).all (fun n => islandRun s n == .running)

/-- A host memory-request TLP arrives, wake source 0: outside Run the host island holds it until the exit (R509); an entry for an
island that does not run waits on the sending side, and later ones behind it (R19, R21); else it crosses and acts. None can
arrive before configuration space is ready (R34). -/
def tlp (s : State) (i : Instr) (k : State → State) : State :=
  if !s.boot.cfgReady then s
  else
    let s := latchWake s 0
    if held s then { s with heldTlps := s.heldTlps ++ [i] }
    else if reachable s i then k s
    else { s with waiting := s.waiting ++ [i] }

/-- An attention source sets (Table 16.5): the bit, the PF's vector, and, where it becomes set and is enabled with `HR_EN`, wake
source 4 (R450). Without supplies the MB block has no state. -/
def attn (s : State) (bit : Nat) : State :=
  if !s.boot.supplies then s
  else
    let w := rd s R.MB_ATTENTION
    let isNew := !nbit w.toNat bit
    let s := wr s R.MB_ATTENTION (setFld w bit bit 1)
    let s := if isNew then { s with mgmt := { s.mgmt with hrNew := Nat.lor s.mgmt.hrNew (2 ^ bit) } } else s
    let s := raiseCtrl s R.MB_EVENT_CTRL
    if isNew && rb s R.MB_CFG F.MB_CFG.HR_EN && nbit (rd s R.MB_ATTENTION_EN).toNat bit then latchWake s 4 else s

/-- Power state code outside Sleep: 0 Run, 1 Idle (Table 19.1). -/
def runState (s : State) : Nat := if s.tt.jobs.isEmpty && s.tt.steps.isEmpty then 1 else 0

/-- The device-wide state's code (Table 16.4). -/
def powerCode (s : State) : Nat :=
  match s.pwr.phase with
  | .asleep t _ => t
  | _ => runState s

/-- The device-wide state may have changed between Run and Idle since `old`: attention source 7 and trace point 54. -/
def powerNote (old s : State) : State :=
  if runState old = runState s then s else attn (traceEv s 54 1 0xFF none false [BitVec.ofNat 8 (runState s), 0]) 7

/-! ### Messages received -/

/-- A roll-call message of another round is discarded and counted (R513, R520). -/
def rcStray (s : State) : State := bump s 0xE003C0

/-- Target, reason byte and round of a roll-call message. -/
def rcTarget (m : List Byte) : Nat := nbits (mByte m 8) 1 0
def rcRound (m : List Byte) : Nat := mLE m 10 2

/-- ASK: queued at the coordinator (R514). A device that is not the coordinator, or is not awake, starts no round. -/
def onAsk (s : State) (m : List Byte) : State := if isCoord s && !held s then queueAsk s (mSrc m) (rcTarget m) else s

/-- A member that has accepted a round is in that round until its verdict or timeout, and a coordinator in its own. -/
def inOtherRound (s : State) (m : List Byte) : Bool :=
  leadsRound s || (match s.pwr.round with
    | some (_, true) => rcRound m != roundNow s
    | _ => false)

/-- PROPOSE: answered at once (R515); discarded in another round (R513). -/
def onPropose (s : State) (m : List Byte) : State :=
  if inOtherRound s m || held s then rcStray s
  else
    let t := rcTarget m
    let s := sf s R.PM_STATE F.PM_STATE.ROUND (rcRound m)
    match declineReason s t with
    | some r =>
      rcSend (bump { s with pwr := { s.pwr with round := some (t, false), leader := mSrc m } } 0xE00398) 0x33 t r (rcRound m) (mSrc m)
    | none => rcSend { s with pwr := { s.pwr with round := some (t, true), leader := mSrc m } } 0x32 t 0 (rcRound m) (mSrc m)

/-- The device coordinates the round a message names. -/
def coordsRound (s : State) (m : List Byte) : Bool := leadsRound s && rcRound m == roundNow s && !held s

/-- ACCEPT: the round commits once every member has accepted (R516). -/
def onAccept (s : State) (m : List Byte) : State :=
  if !coordsRound s m then rcStray s
  else
    let s := { s with pwr := { s.pwr with waitFor := s.pwr.waitFor.filter (· != mSrc m) } }
    if s.pwr.waitFor.isEmpty then commitRound s else s

/-- DECLINE: the round aborts (R516). -/
def onDecline (s : State) (m : List Byte) : State :=
  if !coordsRound s m then rcStray s else serve (abortRound s (mByte m 9) (mSrc m))

/-- WITHDRAW: the round aborts where the verdict has not gone out (R520). -/
def onWithdraw (s : State) (m : List Byte) : State :=
  if !coordsRound s m then rcStray s else serve (abortRound s (mByte m 9) (mSrc m))

/-- VERDICT: entry begins, or the round is over (R516, R518). -/
def onVerdict (s : State) (m : List Byte) : State :=
  match s.pwr.round with
  | none => rcStray s
  | some (t, _) =>
    if rcRound m != roundNow s || leadsRound s || held s then rcStray s
    else if nbit (mByte m 9) 0 then
      beginEntry { (bump s 0xE00388) with pwr := { s.pwr with lastCommit := rcRound m } } t false
    else
      let s := bump s 0xE00390
      failReq { s with pwr := { s.pwr with round := none, waitFor := [], wake := none } } t

/-- WAKE: wake source 1, whatever its round (R513). -/
def onWake (s : State) (_m : List Byte) : State := latchWake s 1

end Sys2Proof.Machine
end

