-- ==== Sys2Proof/Machine/RailView.lean ====
section
/-! DEFINITION. What the core rail's state comes to (chapter 18): points, voltages, ceilings, targets, phases switching; and
the clusters that place a demand on the rail (19.2). -/

namespace Sys2Proof.Machine

/-! ### Clusters (19.2, R137, R140) -/

/-- The job occupies clusters. -/
def Job.holds (j : Job) : Bool := j.selected || j.running

/-- A cluster that holds no job: stopped, starting or idle; all are stopped at reset. -/
def clusterSt (s : State) (n : Nat) : ClusterSt := Tab.get .stopped s.clusters n

/-- Set a cluster's state; `PM_CLUSTER_STOPPED` shows it. -/
def setCluster (s : State) (n : Nat) (c : ClusterSt) : State := { s with clusters := Tab.set .stopped s.clusters n c }

/-- A job holds a cluster. -/
def clusterBusy (s : State) (n : Nat) : Bool := s.tt.jobs.any (fun j => j.holds && j.clusters.contains n)

/-- A cluster is running while it holds a job (R506); one that is starting places its demand too (R483). -/
def clusterRuns (s : State) (n : Nat) : Bool := s.tt.jobs.any (fun j => j.running && j.clusters.contains n)
def clusterDemands (s : State) (n : Nat) : Bool := clusterBusy s n || clusterSt s n == .starting

/-! ### Points and voltages (18.1, 18.2) -/

/-- Voltage of a code, mV. -/
def codeMv (c : Nat) : Nat := 550 + 5 * c

/-- Code of a point: the largest among the entries up to it (R482). -/
def pointCode (s : State) (p : Nat) : Nat :=
  (List.range (p + 1)).foldl (fun m i => max m (min 70 (rf s (R.PM_VF_n i) F.PM_VF_n.CODE))) 0

/-- The highest point whose voltage does not exceed a figure; point 0 where none does (log entry 35). -/
def topPoint (s : State) (mv : Nat) : Nat :=
  ((List.range 49).filter (fun p => decide (codeMv (pointCode s p) ≤ mv))).foldl max 0

def vMax (s : State) : Nat := min 70 (rf s R.VR_V_LIMITS F.VR_V_LIMITS.V_MAX)
def vFloor (s : State) : Nat := min (vMax s) (rf s R.VR_V_LIMITS F.VR_V_LIMITS.V_FLOOR)

/-! ### Ceilings (R483, R489, R494) -/

/-- L: phases open or with failed sense; a phase that is both counts once (R489). -/
def lostMask (s : State) : Nat :=
  Nat.lor (rf s R.VR_PHASE_FAULT F.VR_PHASE_FAULT.OPEN) (rf s R.VR_PHASE_FAULT F.VR_PHASE_FAULT.SENSE)
def phaseLost (s : State) (n : Nat) : Bool := nbit (lostMask s) n
def lossCount (s : State) : Nat := ((List.range 8).filter (phaseLost s)).length

/-- Loss ceiling for a loss count (Table 18.3). -/
def lossTable (s : State) (l : Nat) : Nat :=
  match l with
  | 0 => 48
  | 1 => min 48 (rf s R.PM_LOSS_CEIL F.PM_LOSS_CEIL.ONE)
  | 2 => min 48 (rf s R.PM_LOSS_CEIL F.PM_LOSS_CEIL.TWO)
  | 3 => min 48 (rf s R.PM_LOSS_CEIL F.PM_LOSS_CEIL.THREE)
  | _ => 0

/-- C_T, C_P and C_L in force. -/
def ceilT (s : State) : Nat := rf s R.PM_CEILINGS F.PM_CEILINGS.THERMAL
def ceilP (s : State) : Nat := rf s R.PM_CEILINGS F.PM_CEILINGS.POWER
def ceilL (s : State) : Nat :=
  if s.rail.tmonLimit then min (lossTable s s.rail.lossL) (lossTable s 1) else lossTable s s.rail.lossL

def reqPoint (s : State) (n : Nat) : Nat := min 48 (rf s (R.PM_CLUSTER_n_FREQ n) F.PM_CLUSTER_n_FREQ.REQ)

/-- The four terms of R483 for a cluster. -/
def pointTerms (s : State) (n : Nat) : List Nat := [reqPoint s n, ceilT s, ceilP s, ceilL s]

/-- Smallest term of R483. -/
def minTerm (s : State) (n : Nat) : Nat := (pointTerms s n).foldl min 48

/-- `V_MAX` lowers a cluster's target point. -/
def vLowered (s : State) (n : Nat) : Bool := decide (vMax s < pointCode s (minTerm s n))

/-- t(n), the target point (R483). -/
def targetPoint (s : State) (n : Nat) : Nat := if vLowered s n then topPoint s (codeMv (vMax s)) else minTerm s n

/-- `LIMIT`: the smallest term, the first of equal ones; 4 where `V_MAX` lowered it. -/
def limitCode (s : State) (n : Nat) : Nat :=
  if vLowered s n then 4 else ((pointTerms s n).findIdx? (fun t => t == minTerm s n)).getD 0

/-! ### The rail (Table 18.1, R480, R483, Table 19.1) -/

def vrState (s : State) : Nat := rf s R.VR_STATUS F.VR_STATUS.STATE

/-- The device is in Sleep. -/
def sleeping (s : State) : Bool := match s.pwr.phase with
  | .asleep _ _ => true
  | _ => false

/-- Rail target, mV: none in OFF, the voltage of `V_FLOOR` in FAULT, 750 in SOFT_START, 550 in Sleep, else as R483 states. -/
def railTarget (s : State) : Nat :=
  match vrState s with
  | 0 => 0
  | 1 => 750
  | 3 => codeMv (vFloor s)
  | _ =>
    if sleeping s then 550
    else
      let ns := (List.range 16).filter (clusterDemands s)
      if ns.isEmpty then 750
      else ns.foldl (fun m n => max m (codeMv (pointCode s (targetPoint s n)))) (codeMv (vFloor s))

/-- Phases that are not lost. -/
def goodMask (s : State) : Nat := ((List.range 8).filter (fun n => !phaseLost s n)).foldl (fun m n => m + 2 ^ n) 0

/-- A rise of the rail is under way. -/
def railRising (s : State) : Bool := decide (s.rail.ackMv < railTarget s)

/-- The phases the controller has chosen to switch (R480). -/
def chosen (s : State) : Nat :=
  if !rb s R.VR_CFG F.VR_CFG.SHED_EN || railRising s then goodMask s
  else Nat.land (rf s R.VR_STATUS F.VR_STATUS.SWITCHING) (goodMask s)

/-- Phases that switch: in REGULATE the chosen ones and those whose sense alone has failed (R488). -/
def switchingMask (s : State) : Nat :=
  match vrState s with
  | 0 => 0
  | 1 => 255
  | 3 => goodMask s
  | _ => Nat.lor (chosen s) (Nat.land (lostMask s) (255 - rf s R.VR_PHASE_FAULT F.VR_PHASE_FAULT.OPEN))

/-! ### Present points (R484, R485) -/

def curPoint (s : State) (n : Nat) : Nat := rf s (R.PM_CLUSTER_n_FREQ n) F.PM_CLUSTER_n_FREQ.CUR

/-- A cluster's next point: a running one drops to t(n) at once, and rises no higher than the acknowledged rail allows (R484);
one that does not run stands where it may start. -/
def nextPoint (s : State) (n : Nat) : Nat :=
  let t := targetPoint s n
  let c := curPoint s n
  if clusterRuns s n then (if t < c then t else max c (min t (topPoint s s.rail.ackMv)))
  else min t (topPoint s s.rail.ackMv)

/-- Bit n of `PM_FREQ_HELD` (R485). -/
def freqHeld (s : State) (n : Nat) : Bool := clusterRuns s n && (decide (curPoint s n < targetPoint s n) || vLowered s n)

/-- One cluster takes its next point; a change is traced, and a rise newly held is counted. -/
def movePoint (wasHeld : Nat → Bool) (s : State) (n : Nat) : State :=
  let p := nextPoint s n
  let s := if p = curPoint s n then s
    else traceEv (sf s (R.PM_CLUSTER_n_FREQ n) F.PM_CLUSTER_n_FREQ.CUR p) 55 1 0xFF none false (bytesLE 1 n ++ bytesLE 1 p)
  if freqHeld s n && !wasHeld n then bump s 0xE00238 else s

/-- Every cluster moves to the point that the ceilings, the requests and the rail now allow, while the rail regulates. -/
def movePoints (old s : State) : State :=
  if vrState s < 2 || sleeping s then s else (List.range 16).foldl (movePoint (freqHeld old)) s

/-- The rail allows a starting cluster to reach its target point (R507). -/
def railReady (s : State) (n : Nat) : Bool := decide (codeMv (pointCode s (targetPoint s n)) ≤ s.rail.ackMv)

end Sys2Proof.Machine
end

