-- ==== Sys2Proof/Machine/Faults.lean ====
section
/-! DEFINITION. Completion reports, refusals, faults of both scopes and the discard (3.5 to 3.8, 4.2, 20.1, 20.2). -/

namespace Sys2Proof.Machine

/-! ### Ending a packet's work -/

/-- The work of a packet starts (4.4). -/
def startPkt (s : State) (f pos : Nat) : State :=
  modPkt s f pos (fun p => if p.tStart.isSome then p else { p with tStart := some (fineNow s) })

/-- Statuses that `CP_LAST_REFUSAL_0` takes (Table 21.5). -/
def parseStatus (st : Nat) : Bool := [0x0101, 0x0102, 0x0103, 0x0105].contains st

/-- Refuse a packet (R106): counted once for the group; the report follows by the ordinary rules. Timetable's own refusals
of a job are counted in the class counters alone (`parse` false; log entry 12). -/
def refusePkt (s : State) (f pos status : Nat) (parse : Bool) : State :=
  match getPkt s f pos with
  | none => s
  | some p =>
    let s := modPkt s f pos (fun p => { p with phase := .complete, status := status, result := 0, tStart := none })
    let s := if parse then bump s (C.FN f 0x1008) else s
    let s := traceEv s 1 1 f (some p.tag) false (bytesLE 1 p.opcode ++ bytesLE 4 pos ++ bytesLE 2 status)
    if parse && parseStatus status then
      let s := wr s R.CP_LAST_REFUSAL_0 (BitVec.ofNat 32 (status + p.opcode * 2 ^ 16 + f * 2 ^ 24 + 2 ^ 31))
      wr s R.CP_LAST_REFUSAL_1 (BitVec.ofNat 32 pos)
    else s

/-! ### Faults and the discard (20.1, 20.2) -/

/-- Bit of a function in `FL_DISCARD_BUSY_i`. -/
def setDiscardBusy (s : State) (f : Nat) (v : Bool) : State :=
  wr s (R.FL_DISCARD_BUSY_i (f / 32)) (setFld (rd s (R.FL_DISCARD_BUSY_i (f / 32))) (f % 32) (f % 32) (b2n v))

/-- A function's discard is in progress. -/
def discarding (s : State) (f : Nat) : Bool := (getFn s f).discard.isSome

/-- How a stage of a job stands. -/
def stageRun (j : Job) (st : Nat) : StageRun := Tab.get StageRun.reset j.stages st

/-- How a stage-element stands. -/
def stageElem (e : Elem) (st : Nat) : StageElem := Tab.get StageElem.reset e.stages st

/-- The job runs, and nothing has ended it. -/
def Job.live (j : Job) : Bool := j.running && j.cut.isNone

/-- Change a job, by its dispatch order. -/
def modJob (s : State) (j : Job) (g : Job → Job) : State :=
  { s with tt := { s.tt with jobs := s.tt.jobs.map (fun k => if k.order = j.order then g k else k) } }

/-- The job as it now stands. -/
def sameJob (s : State) (j : Job) : Job := (s.tt.jobs.find? (fun k => k.order == j.order)).getD j

/-- Change the i-th element of a job. -/
def modElem (s : State) (j : Job) (i : Nat) (h : Elem → Elem) : State :=
  modJob s j (fun k => { k with elems := k.elems.mapIdx (fun n e => if n = i then h e else e) })

/-- Change a stage-element. -/
def modSe (s : State) (j : Job) (i st : Nat) (h : StageElem → StageElem) : State :=
  modElem s j i (fun e => { e with stages := Tab.modify StageElem.reset e.stages st h })

/-- Change a stage's run. -/
def modStage (s : State) (j : Job) (st : Nat) (h : StageRun → StageRun) : State :=
  modJob s j (fun k => { k with stages := Tab.modify StageRun.reset k.stages st h })

/-- Counters of Table 11.4. -/
def penCtr (i : Nat) : Nat := 0x400210 + 8 * i

/-- End the shader work of some stage-elements, by function, ring position, stage and element: waves, groups, operators, and the
messages of their groups (R291, R318, R319). -/
def dropShader (s : State) (mine : Nat → Nat → Nat → Nat → Bool) : State :=
  { s with
    waves := s.waves.filter (fun w => !mine w.fn w.pos w.stage w.elem)
    groups := s.groups.filter (fun w => !mine w.fn w.pos w.stage w.elem)
    shOps := s.shOps.filter (fun w => !mine w.fn w.pos w.stage w.elem)
    tmsgs := s.tmsgs.filter (fun w => !mine w.fn w.pos w.stage w.elem) }

/-- Erase a stage-element (R291): counted with its pencil tiles, and traced with a status (R296); a held trap goes with it (R319). -/
def eraseSe (s : State) (j : Job) (i st status : Nat) : State :=
  let k := (sameJob s j).elems[i]?
  let x := (k.map (fun e => stageElem e st)).getD StageElem.reset
  let s := bumpBy (bump s (penCtr 2)) (penCtr 7) x.tiles
  let s := match x.trap with
    | some t => traceEv (bump s 0x701020) 24 1 j.fn none true (bytesLE 1 t.1 ++ bytesLE 2 t.2.1 ++ bytesLE 2 t.2.2.1)
    | none => s
  let s := traceEv s 23 1 j.fn none true (bytesLE 1 st ++ bytesLE 2 status)
  let pos := (k.map (·.pos)).getD 0
  let s := dropShader s (fun f p t n => f == j.fn && p == pos && t == st && n == i)
  modSe s j i st (fun _ => { StageElem.reset with ending := .erased })

/-- Stage-elements of a job that hold or compute pencil: started early, and neither inked nor erased. -/
def pencilElems (j : Job) : List (Nat × Nat) :=
  ((j.stages.filter (fun r => r.2.phase == .early || r.2.phase == .earlyDone)).map (fun r =>
    (List.range j.elems.length).filterMap (fun i => match j.elems[i]? with
      | some e => if (stageElem e r.1).ending = .undecided && !(stageElem e r.1).late then some (i, r.1) else none
      | none => none))).flatten

/-- Erase a job's pencil, each stage-element with a status (R293, R295, R296); its granules go with the job. -/
def eraseJobPencil (s : State) (j : Job) (st : Nat) : State := (pencilElems j).foldl (fun s x => eraseSe s j x.1 x.2 st) s

/-- A program by function and number. -/
def getProg (s : State) (f id : Nat) : Option Prog := s.progs.find? (fun p => p.fn == f && p.id == id)

/-- Change a program. -/
def modProg (s : State) (f id : Nat) (g : Prog → Prog) : State :=
  { s with progs := s.progs.map (fun p => if p.fn = f ∧ p.id = id then g p else p) }

/-- Bytes that discarded or failed work may have written become undefined (R182, R222, R534): free values, where the range
reaches local or host memory. -/
def undefVA (s : State) (f va n : Nat) : State :=
  if wedgedNow s then s
  else (piecesOf va n).foldl (fun s p =>
    let s' := { s with freeCtr := s.freeCtr + p.2 }
    match xlate s 99 f p.1 true true with
    | .loc a => writeL s' a (freeBytes s.freeCtr p.2)
    | .hst a => writeH s' (relaxes s' 99) a (freeBytes s.freeCtr p.2)
    | _ => s) s

/-- Bytes a job may write: its output bindings and its sequence slots' state. -/
def jobWrites (s : State) (j : Job) : List (Nat × Nat) :=
  let outs := (j.elems.map (fun e => (e.binds.filter (·.output)).map (fun b => (b.addr + (if b.perElem then e.idx * b.len else 0), b.len)))).flatten
  match getProg s j.fn j.prog with
  | none => outs
  | some g => if j.step && g.stateBytes != 0 then outs ++ j.elems.map (fun e => (g.stateAddr + e.idx * g.stateBytes, g.stateBytes)) else outs

/-- The bank a region's next version is written to (R227): address and size. -/
def nextBank (s : State) (f id r : Nat) : Nat × Nat :=
  match getProg s f id with
  | none => (0, 0)
  | some g =>
    match g.regions.find? (fun d => d.region == r) with
    | none => (0, 0)
    | some d => (d.bank + ((Tab.get RegionState.reset g.rgn r).version + 1) % 2 * d.size, d.size)

/-- Destination ranges a copy-engine packet may have written (8.2 to 8.4). -/
def copyWrites (s : State) (f : Nat) (p : Packet) : List (Nat × Nat) :=
  match p.opcode with
  | 0x21 => [(p.addr 7, (p.dw 10).toNat)]
  | 0x22 => [(p.addr 7, (p.dw 10).toNat)]
  | 0x23 => [nextBank s f (p.bits 4 19 8) (p.bits 4 27 20)]
  | _ => (List.range (p.bits 9 31 16 + 1)).map (fun r => (p.addr 7 + r * (p.dw 11).toNat, p.bits 9 15 0 + 1))

/-- The bytes of one packet's copy that a discard leaves undefined. -/
def undefCopy (s : State) (x : Xfer) : State :=
  match getPkt s x.fn x.pos with
  | none => s
  | some p => (copyWrites s x.fn p).foldl (fun s r => undefVA s x.fn r.1 r.2) s

/-! ### The accounts of a job (R132, R133, R142) -/

/-- n: elements of a job (5.7). -/
def Job.n (j : Job) : Nat := j.elems.length

/-- C of a job's program. -/
def jobC (s : State) (j : Job) : Nat := ((getProg s j.fn j.prog).map (·.c)).getD 1

/-- Key of a class and function. -/
def cf (c f : Nat) : Nat := 128 * c + f

/-- D(c, f), and adding to it with saturation at 24 bits (5.4). A share-0 function's deficit stays 0 (R141). -/
def deficit (s : State) (c f : Nat) : Int := Tab.get 0 s.tt.deficit (cf c f)
def setDeficit (s : State) (c f : Nat) (v : Int) : State :=
  { s with tt := { s.tt with deficit := Tab.set 0 s.tt.deficit (cf c f) (clampInt (-8388608) 8388607 v) } }

def shareOf (s : State) (f : Nat) : Nat := (getFn s f).quota.share

/-- E_p after a job (R132). -/
def nextEst (e runUs n : Nat) : Nat :=
  let a : Int := max 1 ((runUs / max 1 n : Nat) : Int)
  ((e : Int) + (a - e).tdiv 8).toNat

/-- A job that holds clusters ends after a run time: its function pays what it used (R142). -/
def settleCharge (s : State) (j : Job) (us : Nat) : State :=
  if shareOf s j.fn = 0 then s
  else setDeficit s j.startCls j.fn (deficit s j.startCls j.fn + (j.charge : Int) - (jobC s j * us : Nat))

/-- The accounts of a running job that ends, however it ends: deficit, estimate, last step time (R132, R133, R142). -/
def jobAccounts (s : State) (j : Job) : State :=
  let us := (fineNow s - j.tStart) / 100
  modProg (settleCharge s j us) j.fn j.prog (fun p => { p with est := nextEst p.est us j.n, tLast := if j.step then us else p.tLast })

/-- The accounts of a job that leaves the queue by a fault, a reset or a refusal: one that has been selected and has not begun to run
has used nothing (log entry 99). -/
def leaveAccounts (s : State) (j : Job) : State :=
  if j.running then jobAccounts s j else if j.selected then settleCharge s j 0 else s

/-- The scratch of a program becomes undefined (R200). -/
def undefScratch (s : State) (f id : Nat) : State :=
  match getProg s f id with
  | some p => undefBlocks s p.blocks
  | none => s

/-- Remove a function's jobs and pending steps, queued or running: their accounts are made, pencil is erased, and the scratch of their
programs becomes undefined (R200, Table 20.3). A pass is due (R143). -/
def stopJobs (s : State) (f : Nat) : State :=
  let mine := s.tt.jobs.filter (fun j => j.fn == f)
  let ids := (mine.map (·.prog) ++ (s.tt.steps.filter (fun w => w.fn == f)).map (·.prog)).dedup
  let s := mine.foldl (fun s j =>
    let s := leaveAccounts (eraseJobPencil s j St.PENCIL_ERASED) j
    if j.running then (jobWrites s j).foldl (fun s r => undefVA s f r.1 r.2) s else s) s
  let s := dropShader (ids.foldl (fun s id => undefScratch s f id) s) (fun g _ _ _ => g == f)
  powerNote s { s with
    tt := { s.tt with jobs := s.tt.jobs.filter (fun j => j.fn != f), steps := s.tt.steps.filter (fun w => w.fn != f),
                       passDue := s.tt.passDue || !ids.isEmpty }
    progs := s.progs.map (fun p => if p.fn = f then
      { p with seqs := p.seqs.map (fun e => (e.1, { e.2 with steps := [], leaving := none })),
               rgn := p.rgn.map (fun e => (e.1, { e.2 with running := none, pend := none })) } else p) }

/-- Remove a function's transfers; responses to their page request groups will be late (R183). -/
def stopCopies (s : State) (f : Nat) : State :=
  let started := ((s.eng.map (fun e => e.2.running.toList ++ e.2.held)).flatten).filter (fun x => x.fn == f && x.cursor != 0)
  let s := started.foldl undefCopy s
  { s with
    eng := s.eng.map (fun e => (e.1, { queue := e.2.queue.filter (fun q => q.1 != f)
                                       running := e.2.running.filter (fun x => x.fn != f)
                                       held := e.2.held.filter (fun x => x.fn != f) }))
    xl := { s.xl with
      groups := (s.xl.groups.filter (fun g => g.fn != f || !g.pages.isEmpty)).map (fun g => if g.fn = f then { g with dead := true } else g)
      reqs := s.xl.reqs.filter (fun r => r.fn != f) } }

/-- Bytes per pixel of a target format (Table 13.1). -/
def pxBytes (fmt : Nat) : Nat := if fmt = 4 then 8 else if fmt = 5 then 1 else 4

/-- A field of DWi of a DISPLAY_CONFIG (Table 4.11), and what concerns the main link. -/
def DispCfg.bits (c : DispCfg) (i hi lo : Nat) : Nat := fld ((c.dw[i - 4]?).getD 0) hi lo
def DispCfg.dpEn (c : DispCfg) : Bool := c.source == 1 && c.bits 4 3 3 == 1
def DispCfg.lanes (c : DispCfg) : Nat := c.bits 10 1 0
def DispCfg.rate (c : DispCfg) : Nat := c.bits 10 3 2
def laneCount (l : Nat) : Nat := 2 ^ l

/-- Lanes and rate at which a configuration drives the main link, if it does: those it names, or, with the noticeboard, the
highest that the sink allows (R44, R373). -/
def drive (d : Display) (c : DispCfg) : Option (Nat × Nat) :=
  if c.source = 0 then (if d.nbStarted && d.hpd then some d.sink else none)
  else if c.dpEn then some (laneCount c.lanes, c.rate) else none

/-- What should drive the link: the noticeboard or the configuration in force, while HPD is high. -/
def wantsLink (d : Display) : Option TrainFor :=
  if !d.hpd || (drive d d.cfg).isNone then none else if d.cfg.source = 0 then some .notice else some .resume

/-- The main link stops, and trains anew for what should drive it: a frame in progress is carried no further (R368). -/
def Display.retrain (d : Display) : Display :=
  { d with train := wantsLink d, linkUp := false, frame := d.frame.map (fun f => { f with dpOut := false }) }

/-- Flips but those of a function. -/
def LatchRes.without (f : Nat) (r : LatchRes) : LatchRes := { r with flips := r.flips.filter (fun x => x.fn != f) }

/-- A DISPLAY_CONFIG in progress is given up: the previous configuration stays in force, and where the link is not up at its
settings the device retrains for it (R374, Table 20.3). -/
def dropConfigs (d : Display) : Display :=
  let d' := { d with cfgQ := [], cfgCur := none }
  if d.train = some .config || (d.cfgCur.isSome && d.linkUp && (drive d d.cfg).isSome && drive d d.cfg != some d.linkAt)
  then d'.retrain else d'

/-- Remove a function's draw lists and the flips in pending slots; bound buffers stay, while the flips that bound them end here,
and a DISPLAY_CONFIG not complete is not applied (Table 20.3). The target of a list being drawn, and its bin memory, become
undefined (R343, R534). -/
def stopDisplay (s : State) (f : Nat) : State :=
  let s := match s.rend.cur with
    | some d =>
      if d.fn != f then s
      else match getPkt s f d.pos with
        | some p => undefVA ((List.range (p.bits 9 31 16)).foldl (fun s y =>
            undefVA s f (p.addr 7 + y * (p.dw 10).toNat) (p.bits 9 15 0 * pxBytes (p.bits 11 7 0))) s) f (p.addr 12) (p.dw 14).toNat
        | none => s
    | none => s
  { s with
    rend := { s.rend with queue := s.rend.queue.filter (fun q => q.1 != f), cur := s.rend.cur.filter (fun d => d.fn != f) }
    disp :=
      let d := { s.disp with
        layers := s.disp.layers.map (fun l => (l.1, { l.2 with pend := l.2.pend.filter (fun x => x.fn != f) }))
        latched := s.disp.latched.map (LatchRes.without f)
        frame := s.disp.frame.map (fun g => { g with latch := g.latch.without f }) }
      if f = 0 then dropConfigs d else d
    regs := if f = 0 then (sf s R.DC_STATUS F.DC_STATUS.CONFIG_BUSY 0).regs else s.regs }

/-- Key of a peer's byte in `Link.cache`: the engine and the function that asked, the pod, the address. -/
def podKey (who f p a : Nat) : Nat := ((who * 128 + f) * 4 + p) * 2 ^ 40 + a

/-- The function of a key. -/
def podKeyFn (k : Nat) : Nat := k / 2 ^ 42 % 128

/-- The bytes that arrived for an engine's work of a function and were not used go with that work (R401). -/
def dropFetched (s : State) (who f : Nat) : State :=
  if s.link.cache.isEmpty then s
  else { s with link := { s.link with cache := s.link.cache.filter (fun e => e.1 / 2 ^ 42 != who * 128 + f) } }

/-- Forget a function's remote requests, and what has arrived for them; a remote wait sends FENCE_UNWATCH (Table 20.3). -/
def stopRemote (s : State) (f : Nat) : State :=
  let watches := s.link.reqs.filter (fun r => r.fn == f && r.type == 0x11 && r.sent)
  let s := watches.foldl (fun s r => (sendMsg s r.pod 0x12 0 r.tag (((r.msg.drop 8).take 8).set 1 0) []).1) s
  let s := dropReqs s (fun r => r.fn == f)
  issueWaiting { s with link := { s.link with cache := s.link.cache.filter (fun e => podKeyFn e.1 != f) } }

/-- All work of a function stops (R532 step 2, Table 20.3). A CONFIG_APPLY still at its checks is not applied; one that applies
records goes on. -/
def stopWork (s : State) (f : Nat) : State :=
  let s := stopRemote (stopDisplay (stopCopies (stopJobs s f) f) f) f
  if f = 0 then
    { s with
      pwr := { s.pwr with reqs := [] }
      boot := if s.boot.imgHost && s.boot.imgPhase == .loaded then { s.boot with imgPhase := .settled, applyPos := none } else s.boot }
  else s

/-- Take a function's packets for its discard: a complete one keeps its status, the causing one carries `causeStatus`,
every other DISCARDED_BY_FAULT (R533). -/
def takePackets (s : State) (f : Nat) (cause : Option Nat) (causeStatus : Nat) (device waitRestart : Bool) : State :=
  let x := getFn s f
  let taken := (x.packets.filter (fun p => p.phase != .complete)).length
  let ps := x.packets.map (fun p =>
    if p.phase = .complete then p
    else { p with phase := .complete, discarded := true, result := 0
                  status := if some p.pos = cause && p.opcode != 0x14 then causeStatus else St.DISCARDED_BY_FAULT })
  let old := x.discard.getD ⟨0, 0, 0, device, waitRestart, false⟩
  let s := setFn s f { x with packets := ps
                              discard := some { old with taken := old.taken + taken, reports := if x.discard.isSome then old.reports + taken else x.packets.length, device := device || old.device
                                                         waitRestart := waitRestart || old.waitRestart } }
  bumpBy (setDiscardBusy s f true) 0xF00410 taken

/-- A function-scope fault (R527, R96, R530 to R533): `status` goes to HALT_STATUS, `pktStatus` to the causing packet. -/
def functionFault' (s : State) (f status pktStatus pos : Nat) : State :=
  if fnHalted s f then bump s 0xF00418
  else
    let s := sf s (R.HI_FN_STATUS f) F.HI_FN_STATUS.HALTED 1
    let s := sf s (R.HI_FN_STATUS f) F.HI_FN_STATUS.HALT_STATUS status
    let s := bump s 0xF00400
    let s := logX s 0x0F01 1 f (bytesLE 2 status ++ bytesLE 4 pos)
    let s := traceEv s 61 1 f none false (0 :: bytesLE 2 status ++ bytesLE 4 pos)
    let s := raiseEvent s f F.HI_MSIX_EVENT_MAP.HALT_VEC F.HI_MSIX_EVENT_MAP.HALT_EN
    let s := attn s 9
    takePackets (stopWork s f) f (some pos) pktStatus false false

/-- A function-scope fault whose causing packet carries the cause's own status. -/
def functionFault (s : State) (f status pos : Nat) : State := functionFault' s f status status pos

/-- One enabled function's part in a device-scope fault (R530). -/
def deviceFaultFn (s : State) (waitRestart : Bool) (f : Nat) : State :=
  if !fnEnabled s f then s
  else
    let was := fnHalted s f
    let s := sf s (R.HI_FN_STATUS f) F.HI_FN_STATUS.HALTED 1
    let s := sf s (R.HI_FN_STATUS f) F.HI_FN_STATUS.HALT_STATUS St.DEVICE_FAULT
    let s := if was then s else attn (raiseEvent s f F.HI_MSIX_EVENT_MAP.HALT_VEC F.HI_MSIX_EVENT_MAP.HALT_EN) 9
    takePackets (stopWork s f) f none 0 true waitRestart

/-- A device-scope fault (R528, R530, Table 20.2). `island` is the ORIGIN code of the detecting island. -/
def deviceFault (s : State) (cause island d0 d1 : Nat) : State :=
  let s := sf s R.FL_DEVICE_FAULT F.FL_DEVICE_FAULT.CAUSE cause
  let s := sf s R.FL_DEVICE_FAULT F.FL_DEVICE_FAULT.ISLAND island
  let s := sf s R.FL_DEVICE_FAULT F.FL_DEVICE_FAULT.VALID 1
  let s := wr s R.FL_DEVICE_FAULT_DETAIL_0 (BitVec.ofNat 32 d0)
  let s := wr s R.FL_DEVICE_FAULT_DETAIL_1 (BitVec.ofNat 32 d1)
  let s := attn (bump s 0xF00408) 1
  let s := logX s 0x0F02 1 0xFF (bytesLE 1 cause ++ bytesLE 4 d0 ++ bytesLE 3 d1)
  let s := traceEv s 61 1 0xFF none false (1 :: bytesLE 2 cause)
  (List.range (s.vfs + 1)).foldl (fun s f => deviceFaultFn s (cause == 3) f) s

/-- An uncorrectable memory error that a demand access has met raises cause 2, whatever engine made the access (R590, Table 20.2). -/
def raiseMet (s : State) : State :=
  match s.cache.met with
  | none => s
  | some a => deviceFault { s with cache := { s.cache with met := none } } 2 7 (memChannel a) (nbits a 37 7)

/-! ### Fence slots (3.6, R116, R118, R407) -/

/-- The 64 bits of a fence write (Table 3.4, R88). -/
def fenceForm (status value : Nat) : Nat :=
  if status = St.DONE then value % 2 ^ 63 else 2 ^ 63 + status % 2 ^ 16 * 2 ^ 32 + value % 2 ^ 32

/-- Whether slot content meets a wait for `value` (R116; with `ERR_MODE` 1 an error form also ends the wait, R118, R407). -/
def fenceMeets (content value : Nat) (errMode : Bool) : Bool :=
  if nbit content 63 then errMode || decide (value % 2 ^ 32 ≤ content % 2 ^ 32)
  else decide (value ≤ content)

/-- The value a WAIT_FENCE or SIGNAL_FENCE names (Table 4.5). -/
def Packet.value (p : Packet) : Nat := (p.dw 6).toNat + (p.dw 7).toNat * 2 ^ 32

/-- End a WAIT_FENCE of a function with the content its slot now shows: DONE with the ticks waited, or, for an error form
under `ERR_MODE` 1, a function-scope fault (R116, R118). -/
def endWait (s : State) (f : Nat) (p : Packet) (content : Nat) : State :=
  if nbit content 63 && p.bits 4 19 19 == 1 then
    functionFault' s f (nbits content 47 32) St.DISCARDED_BY_FAULT p.pos
  else finishPkt s f p.pos St.DONE (min top32 (fineNow s - p.tDispatch))

/-- After a write to a function's slot: its own dispatched waits on the slot, and the peers' watches. -/
def fenceWritten (s : State) (f slot content : Nat) : State :=
  let s := modFn s f (fun x => { x with shadow := Tab.set 0 x.shadow slot content })
  let waits := (getFn s f).packets.filter (fun p =>
    p.opcode == 0x03 && p.phase == .dispatched && p.bits 4 0 0 == 0 && p.bits 4 18 10 == slot &&
    fenceMeets content p.value (p.bits 4 19 19 == 1))
  let s := waits.foldl (fun s p => endWait s f p content) s
  let ws := s.link.watches.filter (fun w => w.fn == f && w.slot == slot && fenceMeets content w.value w.errMode)
  let s := { s with link := { s.link with watches := s.link.watches.filter (fun w => !ws.contains w) } }
  ws.foldl (fun s w => (sendMsg s w.pod 0x19 2 w.tag (bytesLE 2 St.DONE) (bytesLE 8 content)).1) s

/-! ### Completion reports (R85, R86, R88 to R95, R594) -/

/-- The reply ring has room (R85). -/
def replyRoom (s : State) (f : Nat) : Bool :=
  decide (sub32 (rd s (R.HI_REPLY_TAIL f)).toNat (rd s (R.HI_REPLY_HEAD f)).toNat < 2 ^ replyLog2 s f)

/-- `QUEUE_WAIT` of a report (4.4). -/
def queueWait (p : Packet) : Nat :=
  match p.tStart with
  | some t => min top32 (t - p.tDispatch)
  | none => 0

/-- The 32 bytes of a reply entry (Table 4.3). -/
def replyEntry (s : State) (p : Packet) : List Byte :=
  bytesLE 2 p.status ++ bytesLE 2 p.tag ++
  bytesLE 4 (p.opcode + p.cls * 2 ^ 8 + b2n p.fences * 2 ^ 10 + p.slot * 2 ^ 11) ++
  bytesLE 4 p.pos ++ bytesLE 4 (queueWait p) ++ bytesLE 8 (fineNow s) ++ bytesLE 4 s.clk.epoch.toNat ++ bytesLE 4 p.result

/-- How a write of a ring object ends (R594). -/
inductive RingWrite where
  | written (s : State)
  /-- the write is not made: no valid permitted mapping, or a pod-window page -/
  | lost
  /-- a Translation Completion must arrive first -/
  | waits (s : State)

/-- Write a ring object at a virtual address. -/
def ringWrite (s : State) (f va pos : Nat) (bs : List Byte) : RingWrite :=
  let s' := touchVA s 20 f va bs.length false true
  if wedgedNow s then .waits s
  else match rangeIssue s 20 f va bs.length false true with
  | none => .written (writeVA s' 20 f va false bs)
  | some (v, .ats a) => .waits (sendAtsFor s' 20 f a 6 pos v va bs.length true)
  | some (_, .hold) => .waits s'
  | some _ => .lost

/-- A ring object's write that was not made: a fault, unless the function's discard is in progress (R594). -/
def ringLost (s : State) (f pos : Nat) : State :=
  if fnHalted s f then s else functionFault s f St.UNPINNED_OPERAND pos

/-- Write one 32-byte entry to a function's reply ring and raise its vector (R85, R92, R95). The message waits in the
result: the caller sends it after the fence. -/
def putReply (s : State) (f pos : Nat) (entry : List Byte) : RingWrite :=
  let t := (rd s (R.HI_REPLY_TAIL f)).toNat
  match ringWrite s f (replyBase s f + 32 * (t % 2 ^ replyLog2 s f)) pos entry with
  | .written s' => .written (wr s' (R.HI_REPLY_TAIL f) (BitVec.ofNat 32 (t + 1)))
  | x => x

/-- Take a reported packet out of flight. -/
def dropPkt (s : State) (f pos : Nat) : State :=
  modFn s f (fun x => { x with packets := x.packets.filter (fun p => p.pos != pos) })

/-- The fence part of a report, then the messages: the reply vector's first, the fence group's second (R92, R95). -/
def reportFence (s : State) (f : Nat) (p : Packet) (replied : Bool) : State :=
  let rv (s : State) : State :=
    if replied then raiseEvent s f F.HI_MSIX_EVENT_MAP.REPLY_VEC F.HI_MSIX_EVENT_MAP.REPLY_EN else s
  let done (s : State) : State :=
    traceEv (dropPkt s f p.pos) 3 1 f (some p.tag) false
      (bytesLE 1 p.opcode ++ bytesLE 4 p.pos ++ bytesLE 2 p.status ++ bytesLE 2 p.slot)
  if !p.fences then done (rv s)
  else
    let content := fenceForm p.status p.fence
    match ringWrite s f (fenceBase s f + 8 * p.slot) p.pos (bytesLE 8 content) with
    | .written s' => fenceWritten (done (raiseFence (rv s') f p.slot)) f p.slot content
    | .waits s' => s'
    | .lost => ringLost (done (rv s)) f p.pos

/-- Write the report of a completed packet, unless it is held (R85 to R95). `drop` drops a reply entry that finds no room
(R536). -/
def reportPkt (s : State) (f : Nat) (p : Packet) (drop : Bool) : State :=
  if p.phase != .complete || reportWaits (getFn s f) p || wedgedNow s then s
  else if !p.fReply || p.replied then reportFence s f p p.replied
  else if replyRoom s f then
    match putReply s f p.pos (replyEntry s p) with
    | .written s' =>
      reportFence (modPkt s' f p.pos (fun q => { q with held := false, replied := true })) f p true
    | .waits s' => s'
    | .lost => ringLost (reportFence s f p false) f p.pos
  else if drop then
    let s := bump (sf s R.FL_DEVICE_FAULT F.FL_DEVICE_FAULT.REPLIES_LOST 1) 0xF00420
    let s := modFn s f (fun x => { x with discard := x.discard.map (fun d => { d with dropped := d.dropped + 1 }) })
    reportFence s f p false
  else
    let was := rb s (R.HI_FN_STATUS f) F.HI_FN_STATUS.REPLY_FULL
    let s := modPkt s f p.pos (fun q => { q with held := true })
    let s := sf s (R.HI_FN_STATUS f) F.HI_FN_STATUS.REPLY_FULL 1
    if was then s
    else traceEv (raiseEvent s f F.HI_MSIX_EVENT_MAP.FULL_VEC F.HI_MSIX_EVENT_MAP.FULL_EN) 7 1 f none false [1]

/-- `REPLY_FULL` falls once no report is held. -/
def replyFullUpdate (s : State) (f : Nat) : State :=
  if rb s (R.HI_FN_STATUS f) F.HI_FN_STATUS.REPLY_FULL && !(getFn s f).packets.any (fun p => p.held) then
    traceEv (sf s (R.HI_FN_STATUS f) F.HI_FN_STATUS.REPLY_FULL 0) 7 1 f none false [0]
  else s

/-- Write every report of a function that can be written now, in ascending ring position. -/
def reportAll (s : State) (f : Nat) (drop : Bool) : State :=
  replyFullUpdate ((getFn s f).packets.foldl (fun s p =>
    match getPkt s f p.pos with
    | some q => reportPkt s f q drop
    | none => s) s) f

end Sys2Proof.Machine
end

