-- ==== Sys2Proof/Machine/Access.lean ====
section
/-! DEFINITION. How the engines reach a function's address space at run time (R160, R167, R168, R400 to R403): local and
host bytes at once, a peer's bytes through requests whose data waits in `Link.cache` until the work that asked has used it. -/

namespace Sys2Proof.Machine

/-- A range cut at 128-byte lines (15.6): start and length of each piece. -/
def linePieces : Nat → Nat → Nat → List (Nat × Nat)
  | 0, _, _ => []
  | fuel + 1, a, n =>
    if n = 0 then []
    else
      let m := min n (128 - a % 128)
      (a, m) :: linePieces fuel (a + m) (n - m)

/-- The pieces of a range of a peer's memory. -/
def podPieces (a n : Nat) : List (Nat × Nat) := linePieces (n / 128 + 2) a n

/-- Fields of RD_REQ and WR_REQ: `ADDR` and `LEN_M1` (Table 15.8). -/
def reqFields (a n : Nat) : List Byte := bytesLE 5 a ++ bytesLE 1 (n - 1)

/-- Every byte of a piece has arrived. -/
def remoteHere (s : State) (who f pod a n : Nat) : Bool :=
  (List.range n).all (fun i => (Tab.get none s.link.cache (podKey who f pod (a + i))).isSome)

/-- Ask a peer for a piece, once. -/
def askPod (s : State) (owner : Owner) (who cls f pos va pod a n : Nat) : State :=
  if remoteHere s who f pod a n ||
      s.link.reqs.any (fun r => r.pod == pod && r.type == 1 && r.addr == a && r.len == n && r.who == who && r.fn == f && r.pos == pos)
  then s
  else sendReq s owner who pod 0x01 cls f pos a n va (reqFields a n) []

/-- Send a piece to a peer. -/
def givePod (s : State) (owner : Owner) (who cls f pos va pod a : Nat) (bs : List Byte) : State :=
  sendReq s owner who pod 0x02 cls f pos a bs.length va (reqFields a bs.length) bs

/-- One range that some work needs: virtual address, length, and whether it is written. -/
structure Range where
  va : Nat
  len : Nat
  write : Bool
  deriving DecidableEq, Repr

/-- What stands in the way of one piece of a range. -/
inductive Block where
  | none
  /-- a translation or data is on its way -/
  | waits
  /-- the access is not permitted, with the status of the fault -/
  | fails (status va : Nat) (write : Bool)
  deriving DecidableEq, Repr

/-- What stands in the way of one page-bound piece. -/
def blockOf (s : State) (who f : Nat) (r : Range) (va n : Nat) : Block :=
  match xlate s who f va false r.write with
  | .loc _ => .none
  | .hst _ => .none
  | .pod p a =>
    if !hasRoute s p then .fails St.ROUTE_NONE va r.write
    else if r.write || (podPieces a n).all (fun q => remoteHere s who f p q.1 q.2) then .none else .waits
  | .ats _ => .waits
  | .hold => .waits
  | .deny _ => .fails St.UNPINNED_OPERAND va r.write
  | .bad => .fails St.UNPINNED_OPERAND va r.write

/-- Ask for what one piece still lacks: a Translation Request (R162) or the peer's data. -/
def askFor (s : State) (owner : Owner) (who engine cls f pos : Nat) (r : Range) (va n : Nat) : State :=
  let s := touchLeaf s who f va
  match xlate s who f va false r.write with
  | .ats a => sendAtsFor s who f a engine pos va r.va r.len r.write
  | .pod p a =>
    if r.write then s else (podPieces a n).foldl (fun s q => askPod s owner who cls f pos (va + (q.1 - a)) p q.1 q.2) s
  | _ => s

/-- The first failure among some ranges, then whether any piece waits. -/
def blockRanges (s : State) (who f : Nat) (rs : List Range) : Block :=
  let bs := (rs.map (fun r => (piecesOf r.va r.len).map (fun p => blockOf s who f r p.1 p.2))).flatten
  match bs.find? (fun b => match b with
      | .fails _ _ _ => true
      | _ => false) with
  | some b => b
  | none => if bs.any (fun b => b == .waits) then .waits else .none

/-- Ask for everything some ranges lack. -/
def askRanges (s : State) (owner : Owner) (who engine cls f pos : Nat) (rs : List Range) : State :=
  rs.foldl (fun s r => (piecesOf r.va r.len).foldl (fun s p => askFor s owner who engine cls f pos r p.1 p.2) s) s

/-- A failed access of a job, shader program or renderer: the record and a function-scope fault (R160, R167, R168, R181). -/
def accessFault (s : State) (f va : Nat) (write : Bool) (status pos : Nat) : State :=
  functionFault (xlateRecord s f va write status pos) f status pos

/-- Look up the pages of some ranges in order, up to the one at an address. -/
def lookUpTo (s : State) (who f : Nat) (rs : List Range) (va : Nat) : State :=
  let vas := (rs.map (fun r => (piecesOf r.va r.len).map (·.1))).flatten
  lookUp s who f (vas.takeWhile (· != va) ++ [va])

/-- The fault of some ranges that may not be accessed at an address: the pages up to it have been looked up. -/
def rangesFault (s : State) (who f : Nat) (rs : List Range) (va : Nat) (write : Bool) (status pos : Nat) : State :=
  accessFault (lookUpTo s who f rs va) f va write status pos

/-- One byte at a virtual address, as running work reads it. -/
def vaByte (s : State) (who f va : Nat) : Byte :=
  match xlate s who f va true false with
  | .loc a => lget s a
  | .hst a => hget s a
  | .pod p a => (Tab.get none s.link.cache (podKey who f p a)).getD 0
  | _ => 0

/-- A byte of a peer's memory on its way out: pod, address, virtual address and value. -/
structure PodByte where
  pod : Nat
  a : Nat
  va : Nat
  b : Byte
  deriving DecidableEq, Repr

/-- Runs of consecutive bytes of one line, in order. -/
def podRuns (cur : List PodByte) : List PodByte → List (List PodByte)
  | [] => if cur.isEmpty then [] else [cur.reverse]
  | x :: xs =>
    match cur with
    | [] => podRuns [x] xs
    | y :: _ =>
      if x.pod = y.pod ∧ x.a = y.a + 1 ∧ x.a % 128 ≠ 0 then podRuns (x :: cur) xs
      else cur.reverse :: podRuns [x] xs

/-- Write bytes at virtual addresses in order: local and host bytes at once, peers' bytes as WR_REQs, one for each run.
Nothing is written once WEDGED is set (R537). -/
def vaWrite (s : State) (owner : Owner) (who cls f pos : Nat) (ws : List (Nat × Byte)) : State :=
  if wedgedNow s then s
  else
    let r := ws.foldl (fun (x : State × List PodByte) w =>
      match xlate x.1 who f w.1 true true with
      | .loc a => (lset x.1 a w.2, x.2)
      | .hst a => (writeH x.1 (relaxes x.1 who) a [w.2], x.2)
      | .pod p a => (x.1, ⟨p, a, w.1, w.2⟩ :: x.2)
      | _ => x) (s, [])
    (podRuns [] r.2.reverse).foldl (fun s run =>
      match run with
      | [] => s
      | x :: _ => givePod s owner who cls f pos x.va x.pod x.a (run.map (·.b))) r.1

/-- Forget the peer data that work has used: a later read asks again (R401: no device caches a peer's data). -/
def forgetRemote (s : State) (who f : Nat) (rs : List Range) : State :=
  let ks := ((rs.filter (fun r => !r.write)).map (fun r => ((piecesOf r.va r.len).map (fun p =>
    match xlate s who f p.1 true false with
    | .pod q a => [(podKey who f q a, p.2)]
    | _ => [])).flatten)).flatten
  if ks.isEmpty then s
  else { s with link := { s.link with cache := s.link.cache.filter (fun e => !ks.any (fun k => k.1 ≤ e.1 && e.1 < k.1 + k.2)) } }

end Sys2Proof.Machine
end

