-- ==== Sys2Proof/Machine/Codec.lean ====
section
/-! DEFINITION. The lossless codec (8.3): decoders of raw DEFLATE (RFC 1951), zlib (RFC 1950) and LZ4 blocks with the ends
of Table 8.5, and the compressor's output (R215, R216). A decoder is given the part of the input read so far and the length
of the whole input, and says how far that part carries it. -/

namespace Sys2Proof.Machine

/-- How a decoder stands after the input it was given. -/
inductive DecEnd where
  /-- it runs on -/
  | going
  /-- more input is needed -/
  | more
  /-- the stream has ended -/
  | done
  /-- a condition of Table 8.5, with its status and the offset of the offending element (R220) -/
  | err (status off : Nat)
  deriving DecidableEq, Repr

/-- A decoder's output so far, newest byte first, its length, and how the decoder stands. -/
structure Dec where
  hist : List Byte
  n : Nat
  fin : DecEnd
  deriving DecidableEq, Repr

/-- The input of DEFLATE: bytes not yet used up, and the bit position in the whole input. -/
structure BitIn where
  rest : List Byte
  pos : Nat
  deriving DecidableEq, Repr

/-- Byte offset of the next bit. -/
def BitIn.off (b : BitIn) : Nat := b.pos / 8

/-- The next bit; bits of a byte go from the least significant up (RFC 1951). -/
def BitIn.bit (b : BitIn) : Option (Nat × BitIn) :=
  match b.rest with
  | [] => none
  | x :: xs => some (b2n (nbit x.toNat (b.pos % 8)), ⟨if b.pos % 8 = 7 then xs else b.rest, b.pos + 1⟩)

/-- The next n bits as a number, least significant first. -/
def BitIn.take (b : BitIn) : Nat → Option (Nat × BitIn)
  | 0 => some (0, b)
  | n + 1 =>
    match b.bit with
    | none => none
    | some (v, b') =>
      match b'.take n with
      | none => none
      | some (u, b'') => some (v + 2 * u, b'')

/-- Move to the next byte boundary. -/
def BitIn.align (b : BitIn) : BitIn :=
  if b.pos % 8 = 0 then b else ⟨b.rest.tail, (b.pos / 8 + 1) * 8⟩

/-! ### Huffman codes (RFC 1951, 3.2.2) -/

/-- A canonical code: the number of codes of lengths 1 to 15, and the symbols in code order. -/
structure Huff where
  counts : List Nat
  syms : List Nat
  deriving DecidableEq, Repr

/-- The code that a list of code lengths gives. -/
def mkHuff (lens : List Nat) : Huff :=
  { counts := (List.range 15).map (fun i => (lens.filter (fun l => l == i + 1)).length)
    syms := ((List.range 15).map (fun i => (List.range lens.length).filter (fun j => lens[j]? == some (i + 1)))).flatten }

/-- Code space left by a code: none where it is over-subscribed, 0 where it is complete, in units of 2^-15. -/
def Huff.left (h : Huff) : Option Nat :=
  let used := (h.counts.zipIdx.map (fun c => c.1 * 2 ^ (14 - c.2))).sum
  if used ≤ 2 ^ 15 then some (2 ^ 15 - used) else none

/-- What reading one symbol gives. -/
inductive SymRes where
  | sym (v : Nat) (b : BitIn)
  /-- the bits are no code of the set -/
  | bad
  | short

/-- Read one symbol: canonical decoding, length by length. -/
def readSym (h : Huff) (b : BitIn) (code first index : Nat) : List Nat → SymRes
  | [] => .bad
  | count :: counts =>
    match b.bit with
    | none => .short
    | some (v, b') =>
      let code := 2 * code + v
      let first := 2 * first
      if code < first + count then
        match h.syms[index + (code - first)]? with
        | some x => .sym x b'
        | none => .bad
      else readSym h b' code (first + count) (index + count) counts

/-- Read one symbol of a code. -/
def Huff.read (h : Huff) (b : BitIn) : SymRes := readSym h b 0 0 0 h.counts

/-- Base length and extra bits of the length symbols 257 to 285 (RFC 1951, 3.2.5). -/
def lenTable : List (Nat × Nat) :=
  [(3, 0), (4, 0), (5, 0), (6, 0), (7, 0), (8, 0), (9, 0), (10, 0), (11, 1), (13, 1), (15, 1), (17, 1), (19, 2), (23, 2),
   (27, 2), (31, 2), (35, 3), (43, 3), (51, 3), (59, 3), (67, 4), (83, 4), (99, 4), (115, 4), (131, 5), (163, 5), (195, 5),
   (227, 5), (258, 0)]

/-- Base distance and extra bits of the distance symbols 0 to 29. -/
def distTable : List (Nat × Nat) :=
  [(1, 0), (2, 0), (3, 0), (4, 0), (5, 1), (7, 1), (9, 2), (13, 2), (17, 3), (25, 3), (33, 4), (49, 4), (65, 5), (97, 5),
   (129, 6), (193, 6), (257, 7), (385, 7), (513, 8), (769, 8), (1025, 9), (1537, 9), (2049, 10), (3073, 10), (4097, 11),
   (6145, 11), (8193, 12), (12289, 12), (16385, 13), (24577, 13)]

/-- Copy a match onto the history, newest first: byte by byte, so that a match may overlap itself. -/
def copyMatch (dist : Nat) : Nat → List Byte → List Byte
  | 0, h => h
  | n + 1, h => copyMatch dist n ((h[dist - 1]?).getD 0 :: h)

/-! ### DEFLATE blocks -/

/-- A decoder of a DEFLATE stream inside its input. -/
structure Inf where
  d : Dec
  b : BitIn
  deriving DecidableEq, Repr

def Inf.stop (x : Inf) (e : DecEnd) : Inf := { x with d := { x.d with fin := e } }

/-- Put one literal byte; `off` is the byte that holds its first bit. -/
def Inf.put (cap off : Nat) (x : Inf) (v : Byte) (b : BitIn) : Inf :=
  if x.d.n ≥ cap then x.stop (.err St.CODEC_OUTPUT_FULL off) else ⟨{ x.d with hist := v :: x.d.hist, n := x.d.n + 1 }, b⟩

/-- A length symbol's match: its extra bits, its distance and the copy. -/
def infMatch (cap : Nat) (dist : Huff) (x : Inf) (lenSym off : Nat) (b : BitIn) : Inf :=
  let le := (lenTable[lenSym - 257]?).getD (0, 0)
  match b.take le.2 with
  | none => x.stop .more
  | some (ex, b1) =>
    match dist.read b1 with
    | .short => x.stop .more
    | .bad => x.stop (.err St.CODEC_ILLEGAL_CODE b1.off)
    | .sym ds b2 =>
      if ds ≥ 30 then x.stop (.err St.CODEC_ILLEGAL_CODE b1.off)
      else
        let de := (distTable[ds]?).getD (0, 0)
        match b2.take de.2 with
        | none => x.stop .more
        | some (dx, b3) =>
          let n := le.1 + ex
          let dd := de.1 + dx
          if dd > x.d.n then x.stop (.err St.CODEC_DISTANCE_BEYOND_HISTORY b1.off)
          else if x.d.n + n > cap then x.stop (.err St.CODEC_OUTPUT_FULL off)
          else ⟨{ x.d with hist := copyMatch dd n x.d.hist, n := x.d.n + n }, b3⟩

/-- The symbols of a compressed block, up to its end of block. `true` says the block has ended. -/
def infCodes (cap : Nat) (lit dist : Huff) : Nat → Inf → Bool × Inf
  | 0, x => (false, x.stop .more)
  | fuel + 1, x =>
    let off := x.b.off
    match lit.read x.b with
    | .short => (false, x.stop .more)
    | .bad => (false, x.stop (.err St.CODEC_ILLEGAL_CODE off))
    | .sym v b =>
      if v = 256 then (true, { x with b := b })
      else if v ≥ 286 then (false, x.stop (.err St.CODEC_ILLEGAL_CODE off))
      else
        let y := if v < 256 then x.put cap off (BitVec.ofNat 8 v) b else infMatch cap dist x v off b
        if y.d.fin = .going then infCodes cap lit dist fuel y else (false, y)

/-- Bytes of a stored block. -/
def infStored (cap : Nat) : Nat → Inf → Bool × Inf
  | 0, x => (true, x)
  | n + 1, x =>
    match x.b.rest with
    | [] => (false, x.stop .more)
    | v :: vs =>
      let y := x.put cap x.b.off v ⟨vs, x.b.pos + 8⟩
      if y.d.fin = .going then infStored cap n y else (false, y)

/-- Order of the code length code's lengths (RFC 1951, 3.2.7). -/
def clOrder : List Nat := [16, 17, 18, 0, 8, 7, 9, 6, 10, 5, 11, 4, 12, 3, 13, 2, 14, 1, 15]

/-- The code length code's lengths, in their order: n of them. -/
def readClLens : Nat → BitIn → Option (List Nat × BitIn)
  | 0, b => some ([], b)
  | n + 1, b =>
    match b.take 3 with
    | none => none
    | some (v, b1) =>
      match readClLens n b1 with
      | none => none
      | some (vs, b2) => some (v :: vs, b2)

/-- The literal/length and distance code lengths, each with the offset of the symbol that gave it. -/
def readLens (cl : Huff) (total : Nat) : Nat → List (Nat × Nat) → BitIn → Except DecEnd (List (Nat × Nat) × BitIn)
  | 0, acc, b => .ok (acc, b)
  | fuel + 1, acc, b =>
    if acc.length ≥ total then .ok (acc, b)
    else match cl.read b with
      | .short => .error .more
      | .bad => .error (.err St.CODEC_ILLEGAL_CODE b.off)
      | .sym v b1 =>
        if v < 16 then readLens cl total fuel (acc ++ [(v, b.off)]) b1
        else
          let sh : Nat × Nat × Nat := if v = 16 then (2, 3, 0) else if v = 17 then (3, 3, 0) else (7, 11, 0)
          if v = 16 && acc.isEmpty then .error (.err St.CODEC_ILLEGAL_CODE b.off)
          else match b1.take sh.1 with
            | none => .error .more
            | some (ex, b2) =>
              let l := if v = 16 then (acc.getLast?.map (·.1)).getD 0 else 0
              if acc.length + sh.2.1 + ex > total then .error (.err St.CODEC_LENGTH_OVERRUN b.off)
              else readLens cl total fuel (acc ++ List.replicate (sh.2.1 + ex) (l, b.off)) b2

/-- A code set is legal where it is complete; a distance code may also use a single code (Table 8.5). -/
def setLegal (h : Huff) (distance : Bool) : Bool :=
  match h.left with
  | none => false
  | some 0 => true
  | some _ => distance && h.syms.length == 1

/-- The header of a dynamic block: its two codes. -/
def readDynamic (b : BitIn) : Except DecEnd (Huff × Huff × BitIn) :=
  match b.take 5 with
  | none => .error .more
  | some (hlit, b1) =>
    if hlit ≥ 30 then .error (.err St.CODEC_ILLEGAL_CODE b.off)
    else match b1.take 5 with
      | none => .error .more
      | some (hdist, b2) =>
        if hdist ≥ 30 then .error (.err St.CODEC_ILLEGAL_CODE b1.off)
        else match b2.take 4 with
          | none => .error .more
          | some (hclen, b3) =>
            match readClLens (hclen + 4) b3 with
            | none => .error .more
            | some (vs, b4) =>
              let lens := (List.range 19).map (fun i => (vs[clOrder.findIdx (fun o => o == i)]?).getD 0)
              let cl := mkHuff lens
              if !setLegal cl false then .error (.err St.CODEC_ILLEGAL_CODE b3.off)
              else match readLens cl (hlit + 257 + hdist + 1) (hlit + hdist + 300) [] b4 with
                | .error e => .error e
                | .ok (ls, b5) =>
                  let lit := mkHuff ((ls.take (hlit + 257)).map (·.1))
                  let dist := mkHuff ((ls.drop (hlit + 257)).map (·.1))
                  if !setLegal lit false then .error (.err St.CODEC_ILLEGAL_CODE b4.off)
                  else if !setLegal dist true then
                    .error (.err St.CODEC_ILLEGAL_CODE (((ls[hlit + 257]?).map (·.2)).getD b4.off))
                  else .ok (lit, dist, b5)

/-- The fixed codes (RFC 1951, 3.2.6). -/
def fixedLit : Huff :=
  mkHuff (List.replicate 144 8 ++ List.replicate 112 9 ++ List.replicate 24 7 ++ List.replicate 8 8)
def fixedDist : Huff := mkHuff (List.replicate 32 5)

/-- One block's body, by BTYPE; `off` is the byte that holds the first bit of BTYPE, `total` the input's length. -/
def infBlock (total cap btype off : Nat) (x : Inf) : Bool × Inf :=
  match btype with
  | 0 =>
    let b := x.b.align
    match b.take 16 with
    | none => (false, x.stop .more)
    | some (len, b1) =>
      match b1.take 16 with
      | none => (false, x.stop .more)
      | some (nlen, b2) =>
        if len + nlen != 65535 then (false, x.stop (.err St.CODEC_ILLEGAL_CODE b.off))
        else if b2.off + len > total then (false, x.stop (.err St.CODEC_LENGTH_OVERRUN b.off))
        else infStored cap len { x with b := b2 }
  | 1 => infCodes cap fixedLit fixedDist (8 * total + 1) x
  | 2 =>
    match readDynamic x.b with
    | .error e => (false, x.stop e)
    | .ok (lit, dist, b) => infCodes cap lit dist (8 * total + 1) { x with b := b }
  | _ => (false, x.stop (.err St.CODEC_ILLEGAL_CODE off))

/-- The blocks of a stream, up to the end of its BFINAL block. -/
def infBlocks (total cap : Nat) : Nat → Inf → Inf
  | 0, x => x.stop .more
  | fuel + 1, x =>
    match x.b.take 1 with
    | none => x.stop .more
    | some (bfinal, b1) =>
      match b1.take 2 with
      | none => x.stop .more
      | some (btype, b2) =>
        let r := infBlock total cap btype b1.off { x with b := b2 }
        if r.1 then (if bfinal = 1 then r.2.stop .done else infBlocks total cap fuel r.2) else r.2

/-- Where input ran out: nothing more will come once the whole input has been given (R220). -/
def DecEnd.settle (e : DecEnd) (total given : Nat) : DecEnd :=
  if e = .more && decide (total ≤ given) then .err St.CODEC_TRUNCATED_INPUT total else e

/-- Raw DEFLATE. -/
def inflate (total cap : Nat) (input : List Byte) : Dec :=
  let x := infBlocks total cap (8 * total + 1) ⟨⟨[], 0, .going⟩, ⟨input, 0⟩⟩
  { x.d with fin := x.d.fin.settle total input.length }

/-- Adler-32 of bytes (RFC 1950). -/
def adler32 (bs : List Byte) : Nat :=
  let r := bs.foldl (fun (a : Nat × Nat) b => let p := (a.1 + b.toNat) % 65521; (p, (a.2 + p) % 65521)) (1, 0)
  r.2 * 65536 + r.1

/-- zlib: header, DEFLATE stream and trailer. -/
def unzlib (total cap : Nat) (input : List Byte) : Dec :=
  let stop (e : DecEnd) : Dec := ⟨[], 0, e.settle total input.length⟩
  match input with
  | [] => stop .more
  | c :: rest =>
    if nbits c.toNat 3 0 != 8 || decide (7 < nbits c.toNat 7 4) then stop (.err St.CODEC_ILLEGAL_CODE 0)
    else match rest with
      | [] => stop .more
      | f :: body =>
        if nbit f.toNat 5 || (256 * c.toNat + f.toNat) % 31 != 0 then stop (.err St.CODEC_ILLEGAL_CODE 1)
        else
          let x := infBlocks total cap (8 * total + 1) ⟨⟨[], 0, .going⟩, ⟨body, 16⟩⟩
          if x.d.fin != .done then { x.d with fin := x.d.fin.settle total input.length }
          else
            let b := x.b.align
            if b.rest.length < 4 then { x.d with fin := DecEnd.settle .more total input.length }
            else
              let t := (b.rest.take 4).foldl (fun a v => a * 256 + v.toNat) 0
              if t = adler32 x.d.hist.reverse then x.d
              else { x.d with fin := .err St.CODEC_ILLEGAL_CODE b.off }

/-! ### LZ4 blocks -/

/-- A length's extension bytes: the sum, the rest and the position after them. -/
def lz4Ext : List Byte → Nat → Nat → Option (Nat × List Byte × Nat)
  | [], _, _ => none
  | b :: bs, acc, pos => if b = 255 then lz4Ext bs (acc + 255) (pos + 1) else some (acc + b.toNat, bs, pos + 1)

/-- A length with its extension, where the 4-bit field is 15. -/
def lz4Len (v : Nat) (rest : List Byte) (pos : Nat) : Option (Nat × List Byte × Nat) :=
  if v = 15 then lz4Ext rest 15 pos else some (v, rest, pos)

/-- The sequences of an LZ4 block. -/
def lz4Seqs (total cap : Nat) : Nat → Dec → List Byte → Nat → Dec
  | 0, d, _, _ => { d with fin := .more }
  | fuel + 1, d, rest, pos =>
    match rest with
    | [] => { d with fin := .more }
    | t :: rest1 =>
      match lz4Len (t.toNat / 16) rest1 (pos + 1) with
      | none => { d with fin := .more }
      | some (n, rest2, pos2) =>
        if pos2 + n > total then { d with fin := .err St.CODEC_LENGTH_OVERRUN pos2 }
        else if d.n + n > cap then { d with fin := .err St.CODEC_OUTPUT_FULL (pos2 + (cap - d.n)) }
        else
          let lit := rest2.take n
          let d := { d with hist := lit.reverse ++ d.hist, n := d.n + lit.length }
          if lit.length < n then { d with fin := .more }
          else if pos2 + n = total then { d with fin := .done }
          else
            let pos3 := pos2 + n
            match rest2.drop n with
            | a :: b :: rest3 =>
              let off := a.toNat + 256 * b.toNat
              if off = 0 then { d with fin := .err St.CODEC_ILLEGAL_CODE pos3 }
              else if off > d.n then { d with fin := .err St.CODEC_DISTANCE_BEYOND_HISTORY pos3 }
              else match lz4Len (t.toNat % 16) rest3 (pos3 + 2) with
                | none => { d with fin := .more }
                | some (m, rest4, pos4) =>
                  if d.n + (m + 4) > cap then { d with fin := .err St.CODEC_OUTPUT_FULL pos3 }
                  else lz4Seqs total cap fuel { d with hist := copyMatch off (m + 4) d.hist, n := d.n + (m + 4) } rest4 pos4
            | _ => { d with fin := .more }

/-- An LZ4 block. -/
def unlz4 (total cap : Nat) (input : List Byte) : Dec :=
  let d := lz4Seqs total cap (total + 1) ⟨[], 0, .going⟩ input 0
  { d with fin := d.fin.settle total input.length }

/-! ### The formats of Table 4.10: 0 raw DEFLATE, 1 zlib, 2 LZ4 -/

/-- Decode the part of an input given so far. -/
def decode (fmt total cap : Nat) (input : List Byte) : Dec :=
  match fmt with
  | 0 => inflate total cap input
  | 1 => unzlib total cap input
  | _ => unlz4 total cap input

/-! ### The compressor's output (Tables 8.2 and 8.3, R216) -/

/-- FLG of the zlib header the compressor writes at a level (Table 8.2). -/
def zlibFlg (lvl : Nat) : Byte := match lvl with | 1 => 0x01 | 2 => 0x5E | 3 => 0x9C | _ => 0xDA

/-- BTYPE of the blocks it emits at a level: fixed-Huffman at level 1, dynamic-Huffman above. -/
def emitType (lvl : Nat) : Nat := if lvl = 1 then 1 else 2

/-- Its shortest DEFLATE match at a level (Table 8.3). -/
def shortestMatch (lvl : Nat) : Nat := if lvl ≤ 2 then 4 else 3

/-- Lengths of the matches up to a block's end of block. -/
def matchLens (lit dist : Huff) : Nat → BitIn → List Nat
  | 0, _ => []
  | fuel + 1, b =>
    match lit.read b with
    | .sym v b1 =>
      if v = 256 ∨ 286 ≤ v then []
      else if v < 256 then matchLens lit dist fuel b1
      else
        let le := (lenTable[v - 257]?).getD (0, 0)
        match b1.take le.2 with
        | none => []
        | some (ex, b2) =>
          match dist.read b2 with
          | .sym ds b3 =>
            match b3.take ((distTable[ds]?).getD (0, 0)).2 with
            | some (_, b4) => (le.1 + ex) :: matchLens lit dist fuel b4
            | none => []
          | _ => []
    | _ => []

/-- The matches of a block of a BTYPE, whose body starts here. -/
def blockMatches (fuel btype : Nat) (b : BitIn) : List Nat :=
  if btype = 1 then matchLens fixedLit fixedDist fuel b
  else match readDynamic b with
    | .ok (lit, dist, b') => matchLens lit dist fuel b'
    | .error _ => []

/-- The blocks of a stream of n source bytes have the form that the compressor emits at a level: one BTYPE, no match shorter than its
shortest, a block for each 65,536 source bytes, BFINAL on the last; the position of the end. -/
def emitEnd (total n lvl : Nat) : Nat → Inf → Option Nat
  | 0, _ => none
  | fuel + 1, x =>
    match x.b.take 1 with
    | none => none
    | some (bfinal, b1) =>
      match b1.take 2 with
      | none => none
      | some (btype, b2) =>
        let r := infBlock total n btype b1.off { x with b := b2 }
        if !r.1 || btype != emitType lvl || (blockMatches (8 * total) btype b2).any (fun m => decide (m < shortestMatch lvl)) ||
            r.2.d.n != min n ((x.d.n / 65536 + 1) * 65536) || (bfinal == 1) != (r.2.d.n == n) then none
        else if bfinal = 1 then some r.2.b.pos
        else emitEnd total n lvl fuel r.2

/-- A DEFLATE stream of n source bytes is what the compressor emits, to its last byte. -/
def emits (n lvl : Nat) (c : List Byte) : Bool :=
  match emitEnd c.length n lvl (c.length + 1) ⟨⟨[], 0, .going⟩, ⟨c, 0⟩⟩ with
  | some p => ceilDiv p 8 == c.length
  | none => false

/-- The sequences of an LZ4 block of n source bytes end as Table 8.2 says: the last five bytes are literals, and the last match starts at
least 12 bytes before the end. `out` bytes stand before the sequence, the last match before it started at `last`. -/
def lz4Ends (n : Nat) : Nat → List Byte → Nat → Option Nat → Bool
  | 0, _, _, _ => false
  | fuel + 1, rest, out, last =>
    match rest with
    | [] => false
    | t :: rest1 =>
      match lz4Len (t.toNat / 16) rest1 0 with
      | none => false
      | some (lit, rest2, _) =>
        match rest2.drop lit with
        | _ :: _ :: rest3 =>
          match lz4Len (t.toNat % 16) rest3 0 with
          | none => false
          | some (m, rest4, _) => lz4Ends n fuel rest4 (out + lit + m + 4) (some (out + lit))
        | rest3 => rest3.isEmpty && out + lit == n && (match last with
          | some a => decide (5 ≤ lit) && decide (a + 12 ≤ n)
          | none => true)

/-- Bytes are what the compressor may emit for a source: they decode to it and have the form of Table 8.2. -/
def conforms (fmt lvl : Nat) (src c : List Byte) : Bool :=
  let d := decode fmt c.length src.length c
  d.fin == .done && d.hist.reverse == src &&
  match fmt with
  | 0 => emits src.length lvl c
  | 1 => c.take 2 == [0x78, zlibFlg lvl] && emits src.length lvl ((c.drop 2).take (c.length - 6))
  | _ => lz4Ends src.length (c.length + 1) c 0 none

/-! A plain form of each format, of literals alone. -/

/-- The bits of a number, most significant first, as Huffman codes are packed; and least significant first, as other fields are. -/
def codeBitsOf (n v : Nat) : List Bool := (List.range n).map (fun i => nbit v (n - 1 - i))
def fieldBits (n v : Nat) : List Bool := (List.range n).map (fun i => nbit v i)

/-- Bits packed into bytes from the least significant bit up. -/
def packBits : Nat → List Bool → List Byte
  | 0, _ => []
  | fuel + 1, l =>
    if l.isEmpty then []
    else BitVec.ofNat 8 (((l.take 8).zipIdx.map (fun b => b2n b.1 * 2 ^ b.2)).sum) :: packBits fuel (l.drop 8)

/-- A literal or end-of-block in the fixed code. -/
def fixedBits (v : Nat) : List Bool :=
  if v < 144 then codeBitsOf 8 (0x30 + v) else if v < 256 then codeBitsOf 9 (0x190 + (v - 144)) else codeBitsOf 7 0

/-- A symbol in a dynamic code that gives 8 bits to the literals 0 to 254, and 9 to the literal 255 and the end of block. -/
def flatBits (v : Nat) : List Bool := if v < 255 then codeBitsOf 8 v else codeBitsOf 9 (255 + v)

/-- The header of that dynamic block: HLIT 0, HDIST 0, 18 code length codes (8 has 1 bit, 1 and 9 have 2), the 257 lengths, and one
distance code. -/
def flatHeader : List Bool :=
  fieldBits 5 0 ++ fieldBits 5 0 ++ fieldBits 4 14 ++
  ((List.range 18).map (fun i => fieldBits 3 (if i = 4 then 1 else if i = 6 ∨ i = 17 then 2 else 0))).flatten ++
  (List.replicate 255 [false]).flatten ++ [true, true, true, true] ++ [true, false]

/-- One block of literals at a level. -/
def plainBlock (lvl : Nat) (final : Bool) (m : List Byte) : List Bool :=
  let sym := if lvl = 1 then fixedBits else flatBits
  [final] ++ fieldBits 2 (emitType lvl) ++ (if lvl = 1 then [] else flatHeader) ++ (m.map (fun b => sym b.toNat)).flatten ++ sym 256

/-- The blocks of a source. -/
def plainBlocks (lvl : Nat) : Nat → List Byte → List Bool
  | 0, _ => []
  | fuel + 1, src =>
    let rest := src.drop 65536
    plainBlock lvl rest.isEmpty (src.take 65536) ++ (if rest.isEmpty then [] else plainBlocks lvl fuel rest)

/-- A DEFLATE stream of literals. -/
def plainDeflate (lvl : Nat) (src : List Byte) : List Byte :=
  let l := plainBlocks lvl (src.length + 1) src
  packBits (l.length / 8 + 1) l

/-- A plain encoding of a source that conforms. -/
def plainForm (fmt lvl : Nat) (src : List Byte) : List Byte :=
  match fmt with
  | 0 => plainDeflate lvl src
  | 1 => [0x78, zlibFlg lvl] ++ plainDeflate lvl src ++ (bytesLE 4 (adler32 src)).reverse
  | _ =>
    let n := src.length
    if n < 15 then BitVec.ofNat 8 (16 * n) :: src
    else 0xF0 :: (List.replicate ((n - 15) / 255) 255 ++ [BitVec.ofNat 8 ((n - 15) % 255)] ++ src)

/-- The compressed bytes of a source: open within the form of Tables 8.2 and 8.3, and fixed for a format, a level and a source (R216). A
free value outside the form gives way to the plain one (log entry 24). -/
def compressed (fmt lvl : Nat) (src : List Byte) : List Byte :=
  let c := Config.compress fmt lvl src
  if conforms fmt lvl src c then c else plainForm fmt lvl src

end Sys2Proof.Machine
end

