-- ==== Sys2Proof/Machine/Operands.lean ====
section
/-! DEFINITION. The operand forms: packet bodies and their reserved bits (Tables 4.4 to 4.15), bindings (Table 4.8), the
program image's tables (10.1, 11.1) and tensor references (10.2). -/

namespace Sys2Proof.Machine

/-! ### Opcodes (Tables 4.4 and 21.4) -/

/-- Whether an opcode is one of Table 4.4. -/
def opcodeKnown (op : Nat) : Bool :=
  [0x00, 0x01, 0x02, 0x03, 0x10, 0x11, 0x12, 0x13, 0x14, 0x15, 0x16, 0x20, 0x21, 0x22, 0x23, 0x24, 0x30, 0x40, 0x41, 0x50,
   0x60, 0x61, 0x70, 0x71, 0x72].contains op

/-- PF-only opcodes. -/
def opcodePfOnly (op : Nat) : Bool := [0x41, 0x70, 0x71, 0x72].contains op

/-- RUN_JOB, RUN_BATCH and STEP_JOIN. -/
def opcodeJob (op : Nat) : Bool := [0x12, 0x13, 0x14].contains op

/-- Opcodes whose CLASS field has a meaning. -/
def opcodeClassed (op : Nat) : Bool := [0x12, 0x13, 0x14, 0x20, 0x21, 0x22, 0x23, 0x24, 0x50].contains op

/-- Extension packets an opcode requires (Table 4.4). -/
def extNeeded (p : Packet) : Nat := if opcodeJob p.opcode then ceilDiv (p.bits 8 6 0) 4 else 0

/-- All 32 bits, the low 16 bits of an address's high word, and masks of a bit range. -/
def mAll : Nat := 0xFFFFFFFF
def mBits (hi lo : Nat) : Nat := (2 ^ (hi + 1 - lo) - 1) * 2 ^ lo

/-- Bits of a body doubleword that the opcode and the packet's form give a meaning (4.5); all others are reserved. -/
def bodyMask (p : Packet) (i : Nat) : Nat :=
  let addr (lo : Nat) : Nat := if i = lo then mAll else if i = lo + 1 then 0xFFFF else 0
  match p.opcode with
  | 0x01 => if i = 4 then 1 else 0
  | 0x02 =>
    if i = 4 then (if p.bits 4 0 0 = 1 then mBits 18 0 else mBits 18 10)
    else if i = 6 then mAll else if i = 7 then mBits 30 0 else 0
  | 0x03 =>
    if i = 4 then (if p.bits 4 0 0 = 1 then mBits 20 0 else mBits 20 10)
    else if i = 5 then 0xFFFF else if i = 6 then mAll else if i = 7 then mBits 30 0 else 0
  | 0x10 => if i = 4 then 0xFFF else if i = 7 then mAll else addr 5
  | 0x11 => if i = 4 then 0xFFF else 0
  | 0x12 => if i = 4 then 0xFFF else if i = 5 ∨ i = 6 then 0xFFFFFF else if i = 7 then mAll else if i = 8 then 0x7F else 0
  | 0x13 =>
    if i = 4 then 0xFFF else if i = 5 ∨ i = 6 then 0xFFFFFF else if i = 7 then mAll
    else if i = 8 then 0x7F + mBits 22 16 else 0
  | 0x14 =>
    if i = 4 then 0xFFF else if i = 5 ∨ i = 6 then 0xFFFFFF else if i = 7 then mAll else if i = 8 then 0x7F
    else if i = 9 then 0x3FF else 0
  | 0x15 => if i = 4 then 0xFFF else if i = 5 then 0x3FF else 0
  | 0x16 => if i = 4 ∨ i = 6 then mAll else if i = 5 then 0x3F else 0
  | 0x20 =>
    if i = 4 then 7 else if i = 9 ∨ i = 10 ∨ i = 11 then mAll else if i ≤ 6 then addr 5 else addr 7
  | 0x21 => if i = 4 then 0xFF else if i = 9 ∨ i = 10 then mAll else if i ≤ 6 then addr 5 else addr 7
  | 0x22 => if i = 4 then 0xFF else if i = 9 ∨ i = 10 then mAll else if i ≤ 6 then addr 5 else addr 7
  | 0x23 => if i = 4 then 0x1F + mBits 27 8 else if i = 9 then mAll else addr 5
  | 0x24 =>
    if i = 4 then 7 else if i = 9 ∨ i = 11 ∨ i = 12 then mAll else if i = 13 then 3 else addr 7
  | 0x30 =>
    if i = 6 ∨ i = 9 ∨ i = 10 ∨ i = 14 then mAll else if i = 11 then 0xFF
    else if i ≤ 5 then addr 4 else if i ≤ 8 then addr 7 else addr 12
  | 0x40 => if i = 4 then 7 else if i = 9 ∨ i = 10 then mAll else if i ≤ 6 then addr 5 else addr 7
  | 0x41 => if i = 4 then 0xF else if (5 ≤ i ∧ i ≤ 9) ∨ i = 13 then mAll else if i = 10 then 0x7F else addr 11
  | 0x50 => if i = 4 then 0x1FF else if i = 5 then 0xFFFF else if 6 ≤ i ∧ i ≤ 10 then mAll else 0
  | 0x60 => if i = 4 then 0xFF else if i = 7 then (if p.bits 4 7 0 = 3 then 0xFFF else 0) else addr 5
  | 0x61 => if i = 6 then 0x7F else addr 4
  | 0x70 => if i = 4 then mAll else 0
  | 0x71 => if i = 4 then 7 else 0
  | 0x72 =>
    if i = 4 ∨ i = 10 then 0x7F else if i = 5 then 0x1F else if 6 ≤ i ∧ i ≤ 9 then mAll else if i = 11 then 0xFFFFFF else 0
  | _ => 0

/-- The one static check of a body that the spec puts at parse: the target format of a DRAW_LIST is one of Table 13.1 (R324). -/
def formKnown (p : Packet) : Bool := p.opcode != 0x30 || (decide (1 ≤ p.bits 11 7 0) && decide (p.bits 11 7 0 ≤ 5))

/-- Whether a word has a bit outside a mask. -/
def strayBits (w : W32) (mask : Nat) : Bool := Nat.land w.toNat (mAll - mask) != 0

/-- Word j of binding b in a job's extension packets. -/
def Packet.bindWord (p : Packet) (b j : Nat) : W32 := p.dw (16 + 4 * b + j)

/-- A reserved bit set in a job's extension packets: of a used binding, or any bit of an unused one (Table 4.8). -/
def bindStray (p : Packet) : Bool :=
  (List.range (4 * p.ext)).any (fun b =>
    if b < p.bits 8 6 0 then
      strayBits (p.bindWord b 1) 0xFFFF ||
      strayBits (p.bindWord b 3) (if p.opcode = 0x13 then 0x33F else 0x13F)
    else (List.range 4).any (fun j => p.bindWord b j != 0))

/-- Reserved bits of the body and of the extension packets are all 0 (common check 6). -/
def bodyClean (p : Packet) : Bool :=
  ((List.range 12).all (fun i => !strayBits (p.dw (4 + i)) (bodyMask p (4 + i)))) && !(opcodeJob p.opcode && bindStray p)

/-- The common checks 1 to 4 of Table 4.2, in order: the status of the first that fails. -/
def commonChecks (f : Nat) (p : Packet) : Option Nat :=
  if !opcodeKnown p.opcode then some St.BAD_OPCODE
  else if opcodePfOnly p.opcode && f != 0 then some St.NOT_PERMITTED
  else if p.ext != extNeeded p then some St.BAD_LENGTH
  else if p.bits 0 15 14 != 0 || p.bits 1 15 9 != 0 || (!opcodeClassed p.opcode && p.cls != 0) ||
      (p.fProv && !opcodeJob p.opcode) || (!p.fFence && p.slot != 0) then some St.BAD_PARAM
  else none

/-- Common check 5: the fence value against bit 63 and the slot's record (R90). -/
def fenceCheck (x : Fn) (p : Packet) : Bool :=
  if p.fFence then decide (p.fence < 2 ^ 63) && decide (Tab.get 0 x.fenceRec p.slot ≤ p.fence)
  else p.dw 2 == 0 && p.dw 3 == 0

/-- The bindings of a job packet (Table 4.8). -/
def bindingsOf (p : Packet) : List Binding :=
  (List.range (p.bits 8 6 0)).map (fun b =>
    let w3 := p.bindWord b 3
    { addr := (p.bindWord b 0).toNat + fld (p.bindWord b 1) 15 0 * 2 ^ 32
      len := (p.bindWord b 2).toNat
      index := fld w3 5 0
      output := fld w3 8 8 == 1
      perElem := fld w3 9 9 == 1 })

end Sys2Proof.Machine
end

