-- ==== Sys2Proof/Machine/HostIf.lean ====
section
/-! DEFINITION. The host interface (chapter 3): ring enable, stop and reset, doorbells, packet fetch and parse, reply space,
completion reports, MSI-X unmasking, function-level reset and configuration writes. A host memory-request TLP that meets
Sleep is held (R509): the function named `…In` is its effect once the device runs. -/

namespace Sys2Proof.Machine

/-- What a meaning answers. -/
abbrev Out := Host.Outcome State Fault Refusal

/-! ### Enabling, stopping and resetting a ring (R78, R84, R97, R99) -/

/-- Sizes and alignments of the ring objects are in range (R78). -/
def ringShapeOk (s : State) (f : Nat) : Bool :=
  decide (6 ≤ ringLog2 s f) && decide (ringLog2 s f ≤ 16) && decide (6 ≤ replyLog2 s f) && decide (replyLog2 s f ≤ 16) &&
  decide (ringBase s f % 4096 = 0) && decide (replyBase s f % 4096 = 0) && decide (fenceBase s f % 4096 = 0)

/-- The ring objects lie in pinned local or host mappings (R78). -/
def ringMapsOk (s : State) (f : Nat) : Bool :=
  ringPinned s f (ringBase s f) (64 * 2 ^ ringLog2 s f) false &&
  ringPinned s f (replyBase s f) (32 * 2 ^ replyLog2 s f) true &&
  ringPinned s f (fenceBase s f) 4096 true

/-- An enable that failed its checks (R78). -/
def enableFails (s : State) (f status : Nat) : State :=
  let s := sf s (R.HI_FN_CTRL f) F.HI_FN_CTRL.RING_EN 0
  let s := sf s (R.HI_FN_STATUS f) F.HI_FN_STATUS.ENABLE_ERR 1
  sf s (R.HI_FN_ENABLE_STATUS f) F.HI_FN_ENABLE_STATUS.STATUS status

/-- A write of `RING_EN`. -/
def ringEnIn (f : Nat) (v : Bool) (s : State) : State :=
  if !fnExists s f then s
  else if v then
    if fnEnabled s f then s
    else if !ringShapeOk s f then enableFails s f St.BAD_PARAM
    else
      let s' := touchPages (touchPages (touchPages s f (ringBase s f) (64 * 2 ^ ringLog2 s f)) f (replyBase s f)
        (32 * 2 ^ replyLog2 s f)) f (fenceBase s f) 4096
      if !ringMapsOk s f then enableFails s' f St.UNPINNED_OPERAND
      else
        let s' := sf s' (R.HI_FN_CTRL f) F.HI_FN_CTRL.RING_EN 1
        let s' := sf s' (R.HI_FN_STATUS f) F.HI_FN_STATUS.ENABLED 1
        sf s' (R.HI_FN_ENABLE_STATUS f) F.HI_FN_ENABLE_STATUS.STATUS St.DONE
  else if !rb s (R.HI_FN_CTRL f) F.HI_FN_CTRL.RING_EN || !fnEnabled s f then s
  else if fnIdle s f || fnHalted s f then
    sf (sf s (R.HI_FN_CTRL f) F.HI_FN_CTRL.RING_EN 0) (R.HI_FN_STATUS f) F.HI_FN_STATUS.ENABLED 0
  else writeReject s

/-- RING_EN. -/
def execRingEn (f : Nat) (v : Bool) (s : State) : Out := .next (tlp s (.ringEn f v) (ringEnIn f v))

/-- A write of `STOP`: fetching stops, or resumes from the head (R84). -/
def stopIn (f : Nat) (v : Bool) (s : State) : State :=
  if !fnExists s f then s
  else
    let s := sf s (R.HI_FN_CTRL f) F.HI_FN_CTRL.STOP (b2n v)
    if v then s else sf s (R.HI_FN_STATUS f) F.HI_FN_STATUS.STOPPED 0

/-- STOP. -/
def execStop (f : Nat) (v : Bool) (s : State) : Out := .next (tlp s (.stop f v) (stopIn f v))

/-- STOPPED_REACHED: with `STOP` 1 and every fetched packet complete, `STOPPED` becomes 1 (R84). -/
def execStoppedReached (f : Nat) (s : State) : Out :=
  .next (if rb s (R.HI_FN_CTRL f) F.HI_FN_CTRL.STOP && (getFn s f).packets.all (fun p => p.phase == .complete) then
    sf s (R.HI_FN_STATUS f) F.HI_FN_STATUS.STOPPED 1 else s)

/-- A ring reset takes effect (R97). -/
def ringResetNow (f : Nat) (s : State) : State :=
  let s := logX (bump s 0xF00428) 0x0F04 1 f (bytesLE 4 (ringHead s f))
  let s := wr s (R.HI_RING_HEAD f) 0
  let s := wr s (R.HI_RING_TAIL f) 0
  let s := wr s (R.HI_REPLY_TAIL f) 0
  let s := wr s (R.HI_REPLY_HEAD f) 0
  let s := sf (sf s (R.HI_FN_CTRL f) F.HI_FN_CTRL.STOP 0) (R.HI_FN_CTRL f) F.HI_FN_CTRL.RING_EN 0
  let s := sf (sf s (R.HI_FN_STATUS f) F.HI_FN_STATUS.HALTED 0) (R.HI_FN_STATUS f) F.HI_FN_STATUS.ENABLED 0
  modFn (sf s (R.HI_FN_STATUS f) F.HI_FN_STATUS.STOPPED 0) f (fun x => { x with resetWaiting := false })

/-- A write of 1 to `RING_RESET`: while neither halted nor idle it is ignored and counted (R97); during the function's
discard it waits (R535). -/
def ringResetIn (f : Nat) (s : State) : State :=
  if !fnExists s f then s
  else if !(fnHalted s f || fnIdle s f) then writeReject s
  else if discarding s f then modFn s f (fun x => { x with resetWaiting := true })
  else ringResetNow f s

/-- RING_RESET. -/
def execRingReset (f : Nat) (s : State) : Out := .next (tlp s (.ringReset f) (ringResetIn f))

/-! ### Doorbell and fetch (R80, R82, R594) -/

/-- Whether a doorbell value is accepted (R80). -/
def doorbellOk (s : State) (f t : Nat) : Bool :=
  fnEnabled s f && !fnHalted s f && decide (sub32 t (ringHead s f) ≤ 2 ^ ringLog2 s f) &&
  decide (sub32 t (ringTail s f) ≤ 2 ^ ringLog2 s f)

/-- A doorbell that is ignored (R80). -/
def doorbellReject (f : Nat) (t : W32) (s : State) : State :=
  let s := sf s (R.HI_FN_STATUS f) F.HI_FN_STATUS.DOORBELL_ERR 1
  let s := bump s (C.FN f 0x1010)
  let s := logX s 0x0202 2 f (bytesLE 4 t.toNat)
  let s := raiseEvent s f F.HI_MSIX_EVENT_MAP.DBERR_VEC F.HI_MSIX_EVENT_MAP.DBERR_EN
  traceEv s 5 2 f none false (bytesLE 4 t.toNat)

/-- A write to `HI_DOORBELL`. -/
def doorbellIn (f : Nat) (t : W32) (s : State) : State :=
  if !fnExists s f then s
  else if doorbellOk s f t.toNat then traceEv (wr s (R.HI_RING_TAIL f) t) 4 2 f none false (bytesLE 4 t.toNat)
  else doorbellReject f t s

/-- DOORBELL. -/
def execDoorbell (f : Nat) (t : W32) (s : State) : Out :=
  .next (tlp s (.doorbell f t) (doorbellIn f t))

/-- Virtual address of the ring slot of a count (3.4). -/
def slotVa (s : State) (f c : Nat) : Nat := ringBase s f + 64 * (c % 2 ^ ringLog2 s f)

/-- The 64 bytes of a ring slot as doublewords. -/
def slotWords (s : State) (f c : Nat) : List W32 :=
  let bs := readVA s 20 f (slotVa s f c) 64 false
  (List.range 16).map (fun i => BitVec.ofNat 32 (ofBytesLE ((bs.drop (4 * i)).take 4)))

/-- The command processor may fetch from a function's ring (R37, R84, R96, Table 19.5). -/
def mayFetch (s : State) (f : Nat) : Bool :=
  bootDone s && fnExists s f && fnEnabled s f && !fnHalted s f && !rb s (R.HI_FN_CTRL f) F.HI_FN_CTRL.STOP && !held s &&
  !wedgedNow s && ringHead s f != ringTail s f

/-- A parsed packet enters flight; the checks of Table 4.2 in order (R104, R106, R107). -/
def parse (s : State) (f : Nat) (p : Packet) : State :=
  let s := modFn s f (fun x => { x with packets := x.packets ++ [p] })
  let s := traceEv s 0 1 f (some p.tag) false (bytesLE 1 p.opcode ++ bytesLE 4 p.pos)
  match commonChecks f p with
  | some st => refusePkt s f p.pos st true
  | none =>
    if !fenceCheck (getFn s f) p then
      refusePkt (modPkt s f p.pos (fun q => { q with noFence := true })) f p.pos St.BAD_PARAM true
    else
      let s := if p.fFence then modFn s f (fun x => { x with fenceRec := Tab.set 0 x.fenceRec p.slot p.fence }) else s
      if bodyClean p && formKnown p then s else refusePkt s f p.pos St.BAD_PARAM true

/-- Fetch the group at the head (R82), whose slots are all below the tail and readable. -/
def fetchGroup (s : State) (f ext : Nat) : State :=
  let h := ringHead s f
  let ws := ((List.range (ext + 1)).map (fun i => slotWords s f (h + i))).flatten
  let s := (List.range (ext + 1)).foldl (fun s i => touchVA s 20 f (slotVa s f (h + i)) 64 false false) s
  let s := wr s (R.HI_RING_HEAD f) (BitVec.ofNat 32 (h + 1 + ext))
  let s := bumpBy s (C.FN f 0x1000) (1 + ext)
  parse s f { pos := h, words := ws, phase := .fetched, status := 0, result := 0, tDispatch := fineNow s, tStart := none
              noFence := false, held := false, replied := false, discarded := false, remoteWait := false, loadRefused := false, order := 0 }

/-- How a fetch whose slot cannot be read ends (R594): a Translation Request is sent, the fetch waits, or the function
faults. -/
def fetchIssue (s : State) (f va : Nat) (a : Acc) : State :=
  let s := touchLeaf s 20 f va
  match a with
  | .ats x => sendAts s f x 64 6 (ringHead s f) va false
  | .hold => s
  | _ => functionFault s f St.UNPINNED_OPERAND (ringHead s f)

/-- Fetch a packet group, if one is covered. -/
def packetFetch (f : Nat) (s : State) : State :=
  if !mayFetch s f then s
  else
    let h := ringHead s f
    match rangeIssue s 20 f (slotVa s f h) 64 false false with
    | some (v, a) => fetchIssue s f v a
    | none =>
      let ext := fld ((slotWords s f h)[1]?.getD 0) 31 16
      if sub32 (ringTail s f) h < 1 + ext then s
      else match (List.range (ext + 1)).findSome? (fun i => rangeIssue s 20 f (slotVa s f (h + i)) 64 false false) with
        | some (v, a) => fetchIssue s f v a
        | none => fetchGroup s f ext

/-- PACKET_FETCH. -/
def execPacketFetch (f : Nat) (s : State) : Out := .next (raiseMet (packetFetch f s))

/-! ### Reply space and reports (R85 to R87, R92) -/

/-- A write of `HI_REPLY_HEAD` (R87): ignored and counted where it would overtake the tail's ring or move backwards. -/
def hiReplyHeadIn (f : Nat) (h : W32) (s : State) : State :=
  if !fnExists s f then s
  else
    let tail := (rd s (R.HI_REPLY_TAIL f)).toNat
    let old := (rd s (R.HI_REPLY_HEAD f)).toNat
    if sub32 tail h.toNat ≤ 2 ^ replyLog2 s f && sub32 tail h.toNat ≤ sub32 tail old then
      reportAll (wr s (R.HI_REPLY_HEAD f) h) f (((getFn s f).discard.map (·.drop)).getD false)
    else writeReject s

/-- HI_REPLY_HEAD. -/
def execHiReplyHead (f : Nat) (h : W32) (s : State) : Out :=
  .next (tlp s (.hiReplyHead f h) (fun s => raiseMet (hiReplyHeadIn f h s)))

/-- Reports of the function's discard may be written: not before the restart of R537 has succeeded (R532). -/
def mayReport (s : State) (f : Nat) : Bool := !(((getFn s f).discard.map (·.waitRestart)).getD false)

/-- COMPLETION_REPORT: the report of one completed packet, unless it is held (R85 to R95). -/
def execCompletionReport (f pos : Nat) (s : State) : Out :=
  .next (match getPkt s f pos with
    | some p =>
      if mayReport s f then raiseMet (replyFullUpdate (reportPkt s f p (((getFn s f).discard.map (·.drop)).getD false)) f) else s
    | none => s)

/-- The message of a pending vector that nothing masks any more is sent, and its PBA bit clears (R95). -/
def msixSendPending (s : State) (f vec : Nat) : State :=
  let x := getFn s f
  if x.msixEn && !x.fnMask && nbit x.pba vec && !(Tab.get Vector.reset x.msix vec).masked then
    sendMsix (setFn s f { x with pba := x.pba - 2 ^ vec }) f vec
  else s

/-- Clear the mask bit of a vector. -/
def msixUnmaskIn (f vec : Nat) (s : State) : State :=
  if !fnExists s f || decide (16 ≤ vec) then s
  else
    msixSendPending (modFn s f (fun x =>
      { x with msix := Tab.modify Vector.reset x.msix vec (fun v => { v with masked := false }) })) f vec

/-- MSIX_UNMASK. -/
def execMsixUnmask (f vec : Nat) (s : State) : Out :=
  .next (tlp s (.msixUnmask f vec) (msixUnmaskIn f vec))

/-! ### Function-level reset (R100, R101, R535) -/

/-- Whether a key is in a function's window. -/
def inWindow (f k : Nat) : Bool := decide (fnWin f ≤ k) && decide (k < fnWin f + 0x10000)

/-- The registers and counters of a function window at reset, the latches with them (R589). -/
def windowReset (s : State) (f : Nat) : State :=
  { s with
    regs := s.regs.filter (fun e => !inWindow f e.1)
    force := s.force.filter (fun e => !inWindow f e.1)
    dirty := s.dirty.filter (fun k => !inWindow f k)
    ctr := s.ctr.filter (fun e => !inWindow f e.1)
    hostLatch := s.hostLatch.filter (fun e => !inWindow f e.1)
    mgmtLatch := s.mgmtLatch.filter (fun e => !inWindow f e.1) }

/-- Remove a function's programs and return their scratch and pencil (R128). -/
def unloadAll (s : State) (f : Nat) : State := { s with progs := s.progs.filter (fun p => p.fn != f) }

/-- End a function's work without a report and reset its objects; the quota and the address space are the PF's (R100). -/
def functionClear (s : State) (f : Nat) : State :=
  let s := unloadAll (stopWork s f) f
  let s := setDiscardBusy s f false
  let s := { s with
    xl := { s.xl with atc := s.xl.atc.filter (fun e => e.fn != f) }
    link := { s.link with watches := s.link.watches.filter (fun w => w.fn != f) }
    boot := { s.boot with applyPos := if f = 0 then none else s.boot.applyPos }
    pwr := { s.pwr with reqs := if f = 0 then [] else s.pwr.reqs } }
  windowReset (modFn s f (fun x => { Fn.dflt f with quota := x.quota, aer := x.aer })) f

/-- A function-level reset, with its record and count. -/
def functionReset (s : State) (f : Nat) : State :=
  let was := discarding s f
  logX (bump (functionClear s f) 0xF00430) 0x0F05 1 f (bytesLE 1 (b2n was))

/-- A reset of the PF: the PF first, then every enabled VF in ascending order; VF Enable clears (R101). The payload size and the link's
power management are not the function's (log entry 96). -/
def pfReset (s : State) : State :=
  let c := s.pcie
  { (List.range (s.vfs + 1)).foldl functionReset s with
    vfs := 0, priEn := false, priAlloc := 0
    pcie := { Pcie.reset with maxPayload := c.maxPayload, aspmL1 := c.aspmL1, aspmL11 := c.aspmL11, aspmL12 := c.aspmL12, link := c.link } }

/-! ### Configuration writes (R70, Table 6.4) and host read errors (R73) -/

/-- Change the endpoint's configuration. -/
def modPcie (s : State) (g : Pcie → Pcie) : State := { s with pcie := g s.pcie }

/-- The latency the device tolerates, in µs (R72). -/
def ltrUs (s : State) : Nat :=
  match s.pwr.phase with
  | .asleep 3 _ => 12000
  | .asleep _ _ => 300
  | _ => 10

/-- Report it to the host, where LTR is enabled. -/
def sendLtr (s : State) : State := if s.pcie.ltrEn then { s with out := s.out ++ [.ltr (ltrUs s) (ltrUs s)] } else s

/-- A configuration write. `field`: 0 the number of VFs enabled (0: VF Enable 0), 1 MSI-X Enable, 2 MSI-X Function Mask,
3 ATS Enable, 4 PRI Enable, 5 Outstanding Page Request Allocation, 6 Enable Relaxed Ordering, 7 Max_Payload_Size, 8
Max_Read_Request_Size, 9 10-Bit Tag Requester Enable, 10 Completion Timeout Value, 11 Completion Timeout Disable, 12 AER Uncorrectable
Error Status (a 1 clears), 13 ASPM L1, 14 ASPM L1.1, 15 ASPM L1.2, 16 LTR Mechanism Enable, 17 Smallest Translation Unit (0: 4 KiB, to
18: 1 GiB). A value that Table 3.1 or Table 6.4 does not list changes nothing (log entry 96). -/
def configurationWrite (f field value : Nat) (s : State) : State :=
  match field with
  | 0 =>
    if value = 0 then
      { (List.range s.vfs).foldl (fun s k => functionClear s (k + 1)) s with vfs := 0 }
    else if s.vfs = 0 then { s with vfs := min value 127 } else s
  | 1 =>
    if !fnExists s f then s
    else
      let s := modFn s f (fun x => { x with msixEn := value % 2 == 1, pba := x.pba })
      (List.range 16).foldl (fun s v => msixSendPending s f v) s
  | 2 =>
    if !fnExists s f then s
    else
      (List.range 16).foldl (fun s v => msixSendPending s f v) (modFn s f (fun x => { x with fnMask := value % 2 == 1 }))
  | 3 =>
    if !fnExists s f then s
    else
      let s := modFn s f (fun x => { x with atsEn := value % 2 == 1 })
      if value % 2 = 1 then s else { s with xl := { s.xl with atc := s.xl.atc.filter (fun e => e.fn != f) } }
  | 4 => { s with priEn := value % 2 == 1 }
  | 5 => { s with priAlloc := value }
  | 6 => modPcie s (fun c => { c with roEn := value % 2 == 1 })
  | 7 => if value ≤ 2 then modPcie s (fun c => { c with maxPayload := value }) else s
  | 8 => if value ≤ 5 then modPcie s (fun c => { c with maxRead := value }) else s
  | 9 => modPcie s (fun c => { c with tag10 := value % 2 == 1 })
  | 10 => if [0, 5, 6, 9, 10].contains value then modPcie s (fun c => { c with ctoValue := value }) else s
  | 11 => modPcie s (fun c => { c with ctoDisable := value % 2 == 1 })
  | 12 => if fnExists s f then modFn s f (fun x => { x with aer := x.aer.clear value }) else s
  | 13 => modPcie s (fun c => { c with aspmL1 := value % 2 == 1 })
  | 14 => modPcie s (fun c => { c with aspmL11 := value % 2 == 1 })
  | 15 => modPcie s (fun c => { c with aspmL12 := value % 2 == 1 })
  | 16 => sendLtr (modPcie s (fun c => { c with ltrEn := value % 2 == 1 }))
  | 17 => if fnExists s f && decide (value ≤ 18) then modFn s f (fun x => { x with stu := 12 + value }) else s
  | _ => s

/-- Bit of the Uncorrectable Error Status (PCIe base specification): a read ended in Unsupported Request (`kind` 0), Completer Abort (1),
poisoned data (2) or a completion timeout (3). -/
def aerBit : ReadError → Nat
  | .ur => 20
  | .ca => 15
  | .poisoned => 12
  | .timeout => 14

/-- A layer shows, or waits to show, the buffer that a flip of a function named: its reads go on after the flip's report. -/
def flipReads (s : State) (f pos : Nat) : Bool :=
  s.disp.layers.any (fun l => [l.2.bound, l.2.pend].any (fun x => (x.map (fun y => y.fn == f && y.pos == pos)).getD false)) ||
    (s.disp.frame.map (fun g => g.bufs.any (fun l => l.2.fn == f && l.2.pos == pos))).getD false

/-- HOST_READ_ERROR: a read of host memory for a packet, for the fetch at the head, or for the buffer of a flip, fails (R73). It is
logged through AER with its header (free). No completion timeout falls while it is disabled. -/
def execHostReadError (f : Nat) (read : FailedRead) (s : State) : Out :=
  .next (if fnEnabled s f && ((getPkt s f read.pos).isSome || read.pos == ringHead s f || flipReads s f read.pos) &&
      !(read.error == .timeout && s.pcie.ctoDisable) then
    let r := freshNat s
    functionFault (modFn r.1 f (fun x => { x with aer := x.aer.log (aerBit read.error) r.2 })) f St.TRANSLATION_TIMEOUT read.pos
  else s)

end Sys2Proof.Machine
end

