-- ==== Sys2Proof/Machine/Packets.lean ====
section
/-! DEFINITION. Dispatch and order (4.3), and the packets the command processor and the link island carry out themselves:
NOP, BARRIER, SIGNAL_FENCE, WAIT_FENCE and LINK_SEND (4.5.1, 4.5.5). -/

namespace Sys2Proof.Machine

/-! ### What holds a packet at dispatch (R108, R109, R112, R114, R117) -/

/-- A BARRIER or WAIT_FENCE that has been dispatched and has not ended. -/
def Packet.holding (q : Packet) : Bool := q.phase == .dispatched && (q.opcode == 0x01 || q.opcode == 0x03)

/-- Its scope is the tag. -/
def Packet.tagScope (q : Packet) : Bool := if q.opcode = 0x01 then q.bits 4 0 0 == 1 else q.bits 4 20 20 == 1

/-- Packets of the ring before a position, oldest first. -/
def earlier (x : Fn) (pos : Nat) : List Packet := x.packets.takeWhile (fun q => q.pos != pos)

/-- A packet is held by a tag-scope BARRIER or WAIT_FENCE of its own tag. -/
def heldByTag (x : Fn) (p : Packet) : Bool :=
  (earlier x p.pos).any (fun q => q.holding && q.tagScope && q.tag == p.tag)

/-- A packet is held by a ring-scope BARRIER or WAIT_FENCE, one that itself still waits at dispatch included (R114, R117). -/
def heldByRing (x : Fn) (p : Packet) : Bool :=
  (earlier x p.pos).any (fun q => q.phase != .complete && (q.opcode == 0x01 || q.opcode == 0x03) && !q.tagScope)

/-- Ring order: an earlier packet not yet dispatched goes first, unless its own tag's BARRIER or WAIT_FENCE holds it and
this packet has another tag (R108). -/
def outOfTurn (x : Fn) (p : Packet) : Bool :=
  (earlier x p.pos).any (fun q => q.phase == .fetched && !(heldByTag x q && q.tag != p.tag))

/-- Barrier-before: `F_BARRIER`, and every CONFIG_APPLY (R62). -/
def Packet.barrierBefore (p : Packet) : Bool := p.fBarrier || p.opcode == 0x70

/-- Packets that name a program (R112, R119): a QUERY does with item 3. -/
def Packet.names (p : Packet) (id : Nat) : Bool :=
  ([0x10, 0x11, 0x12, 0x13, 0x14, 0x15].contains p.opcode && p.bits 4 11 0 == id) ||
  (p.opcode == 0x23 && p.bits 4 19 8 == id) || (p.opcode == 0x60 && p.bits 4 7 0 == 3 && p.bits 7 11 0 == id)

/-- A packet is a LOAD_PROGRAM of a program. -/
def Packet.loads (p : Packet) (id : Nat) : Bool := p.opcode == 0x10 && p.bits 4 11 0 == id

/-- An earlier LOAD_PROGRAM of a program that the packet names has not been carried out (R112). -/
def awaitsLoad (x : Fn) (p : Packet) : Bool :=
  p.opcode != 0x10 && (earlier x p.pos).any (fun q => q.opcode == 0x10 && q.phase != .complete && p.names (q.bits 4 11 0))

/-- A LOAD_PROGRAM has been refused: the packets that waited for it, those behind it up to the next one for the same program, are
refused when their turn comes (R112). -/
def failWaiting (s : State) (f pos id : Nat) : State :=
  modFn s f (fun x =>
    let later := x.packets.dropWhile (fun q => q.pos != pos)
    let mine := ((later.drop 1).takeWhile (fun q => !q.loads id)).filter (fun q => q.phase == .fetched && q.names id)
    { x with packets := x.packets.map (fun q => if mine.any (fun r => r.pos == q.pos) then { q with loadRefused := true } else q) })

/-- Refuse a LOAD_PROGRAM, and with it the packets that wait for it. -/
def refuseLoad (s : State) (f : Nat) (p : Packet) (status : Nat) : State :=
  failWaiting (refusePkt (dropFetched s 20 f) f p.pos status true) f p.pos (p.bits 4 11 0)

/-- A program that a packet may name: loaded, and named by no earlier UNLOAD_PROGRAM of the ring (R119). -/
def usableProg (s : State) (f : Nat) (p : Packet) (id : Nat) : Option Prog :=
  if (earlier (getFn s f) p.pos).any (fun q => q.phase != .complete && q.opcode == 0x11 && q.bits 4 11 0 == id) then none
  else getProg s f id

/-- Whether a packet may be dispatched now. -/
def dispatchable (x : Fn) (p : Packet) : Bool :=
  p.phase == .fetched && !outOfTurn x p && !heldByTag x p && !heldByRing x p && !awaitsLoad x p &&
  (!p.barrierBefore || (earlier x p.pos).all (fun q => q.phase == .complete))

/-- A packet goes back to waiting at dispatch: its engine cannot take it yet. -/
def holdPkt (s : State) (f pos : Nat) : State := modPkt s f pos (fun p => { p with phase := .fetched })

/-! ### Work that ends when earlier work has ended -/

/-- An UNLOAD_PROGRAM takes effect: sequences are removed, and scratch and pencil return (R119). -/
def unloadNow (s : State) (f id : Nat) : State := { s with progs := s.progs.filter (fun p => !(p.fn == f && p.id == id)) }

/-- A STEP_LEAVE ends: the slot is free, or belongs to the sequence that later steps joined (R151). -/
def leaveNow (s : State) (f : Nat) (p : Packet) : State :=
  let id := p.bits 4 11 0
  let slot := p.bits 5 9 0
  match getProg s f id with
  | none => finishPkt s f p.pos St.DONE 0
  | some g =>
    let q := Tab.get Seq.reset g.seqs slot
    let s := finishPkt s f p.pos St.DONE q.run
    let q' : Seq := if q.steps.isEmpty then Seq.reset else ⟨true, q.steps, 0, none⟩
    modProg s f id (fun g => { g with seqs := Tab.set Seq.reset g.seqs slot q' })

/-- Complete one dispatched BARRIER, UNLOAD_PROGRAM or STEP_LEAVE if what it waits for has ended, or a QUERY or
COUNTER_SNAPSHOT whose bytes have all been written. -/
def settlePkt (s : State) (f : Nat) (p : Packet) : State :=
  if p.phase != .dispatched then s
  else
    let before := earlier (getFn s f) p.pos
    match p.opcode with
    | 0x01 =>
      if before.all (fun q => q.phase == .complete || (p.bits 4 0 0 == 1 && q.tag != p.tag)) then
        finishPkt s f p.pos St.DONE 0 else s
    | 0x11 =>
      let id := p.bits 4 11 0
      if before.all (fun q => q.phase == .complete || !q.names id) then finishPkt (unloadNow s f id) f p.pos St.DONE 0 else s
    | 0x15 =>
      let steps := ((getProg s f (p.bits 4 11 0)).map (fun g => (Tab.get Seq.reset g.seqs (p.bits 5 9 0)).steps)).getD []
      if steps.all (fun x => !(before.any (fun q => q.pos == x))) then leaveNow s f p else s
    | 0x60 => if s.link.reqs.any (fun r => r.fn == f && r.pos == p.pos) then s else finishPkt s f p.pos St.DONE 32
    | 0x61 => if s.link.reqs.any (fun r => r.fn == f && r.pos == p.pos) then s else finishPkt s f p.pos St.DONE 144
    | _ => s

/-- Complete every waiting packet of a function whose condition now holds, in ring order. -/
def settleFn (s : State) (f : Nat) : State :=
  (getFn s f).packets.foldl (fun s p =>
    match getPkt s f p.pos with
    | some q => settlePkt s f q
    | none => s) s

/-! ### Dispatch -/

/-- A packet as its dispatch takes it. -/
def Packet.taken (s : State) (p : Packet) : Packet := { p with phase := .dispatched, tDispatch := fineNow s, order := s.dispatched }

/-- A packet is taken for dispatch: it has its place in the order of dispatch. -/
def takePkt (s : State) (f pos : Nat) : State :=
  modPkt { s with dispatched := s.dispatched + 1 } f pos (Packet.taken s)

/-- A packet is carried out by its opcode's own checks and work, or is refused where its LOAD_PROGRAM was (R112). All of the opcode's
own checks are made here (log entry 97). -/
def carryOut (s : State) (f : Nat) (p : Packet) (d : State → Nat → Packet → State) : State :=
  if p.loadRefused then refusePkt s f p.pos St.BAD_PARAM true else d s f p

/-- Dispatch a packet with its opcode's own checks and work, if the packet stands and nothing holds it. -/
def dispatchWith (s : State) (f pos : Nat) (d : State → Nat → Packet → State) : State :=
  match getPkt s f pos with
  | none => s
  | some p =>
    if !dispatchable (getFn s f) p then s
    else
      let s := carryOut (takePkt s f pos) f (p.taken s) d
      match getPkt s f pos with
      | some q =>
        if q.phase = .fetched then s
        else settleFn (traceEv s 2 1 f (some p.tag) false (bytesLE 1 p.opcode ++ bytesLE 4 pos)) f
      | none => settleFn s f

/-- Dispatch a packet that carries a given opcode. -/
def dispatchAs (s : State) (f pos op : Nat) (d : State → Nat → Packet → State) : State :=
  match getPkt s f pos with
  | some p => if p.opcode = op then raiseMet (dispatchWith s f pos d) else s
  | none => s

/-- NOP completes at dispatch. -/
def dispNop (s : State) (f : Nat) (p : Packet) : State := finishPkt s f p.pos St.DONE 0

/-- NOP. -/
def execPktNop (f pos : Nat) (s : State) : Out := .next (dispatchAs s f pos 0x00 dispNop)

/-- BARRIER waits for the earlier packets of its scope: `settleFn` ends it (R114). -/
def dispBarrier (s : State) (_f : Nat) (_p : Packet) : State := s

/-- BARRIER: dispatched, or, already dispatched, ended when its earlier packets are complete. -/
def execPktBarrier (f pos : Nat) (s : State) : Out := .next (settleFn (dispatchAs s f pos 0x01 dispBarrier) f)

/-- Type fields of FENCE_WR, FENCE_WATCH and MSG (Table 15.8): function, byte 9, and a 16-bit field. -/
def fenceFields (fn b9 slot : Nat) : List Byte := [BitVec.ofNat 8 fn, BitVec.ofNat 8 b9] ++ bytesLE 2 slot

/-- SIGNAL_FENCE (Table 4.5, R115, R404). -/
def dispSignal (s : State) (f : Nat) (p : Packet) : State :=
  let pod := p.bits 4 2 1
  if !p.fFence then refusePkt s f p.pos St.BAD_PARAM true
  else if p.bits 4 0 0 = 0 then finishPkt s f p.pos St.DONE 0
  else if pod = s.boot.podId then refusePkt s f p.pos St.BAD_PARAM true
  else if !hasRoute s pod then refusePkt s f p.pos St.ROUTE_NONE true
  else sendReq s .packet 20 pod 0x10 0 f p.pos 0 8 0 (fenceFields (p.bits 4 9 3) 0 (p.bits 4 18 10)) (bytesLE 8 p.value)

/-- SIGNAL_FENCE. -/
def execPktSignalFence (f pos : Nat) (s : State) : Out := .next (dispatchAs s f pos 0x02 dispSignal)

/-- Send the FENCE_WATCH of a remote WAIT_FENCE (R407). -/
def sendWatch (s : State) (f : Nat) (p : Packet) : State :=
  sendReq s .packet 20 (p.bits 4 2 1) 0x11 0 f p.pos 0 8 0 (fenceFields (p.bits 4 9 3) (p.bits 4 19 19) (p.bits 4 18 10))
    (bytesLE 8 p.value)

/-- WAIT_FENCE (Table 4.5, R116, R117). A local wait looks at the last form this device wrote to the slot (log entry 14). -/
def dispWait (s : State) (f : Nat) (p : Packet) : State :=
  let pod := p.bits 4 2 1
  let remote := p.bits 4 0 0 == 1
  if remote && pod == s.boot.podId then refusePkt s f p.pos St.BAD_PARAM true
  else if p.bits 5 15 0 = 0 then refusePkt s f p.pos St.BAD_PARAM true
  else if remote then
    if hasRoute s pod then sendWatch s f p else refusePkt s f p.pos St.ROUTE_NONE true
  else
    let content := Tab.get 0 (getFn s f).shadow (p.bits 4 18 10)
    if fenceMeets content p.value (p.bits 4 19 19 == 1) then endWait s f p content else s

/-- WAIT_FENCE. -/
def execPktWaitFence (f pos : Nat) (s : State) : Out := .next (dispatchAs s f pos 0x03 dispWait)

/-- WAIT_FENCE_TIMEOUT: `TIMEOUT` elapses on a dispatched wait (R118); a remote wait sends FENCE_UNWATCH with the discard. -/
def execPktWaitFenceTimeout (f pos : Nat) (s : State) : Out :=
  .next (match getPkt s f pos with
    | some p => if p.opcode = 0x03 && p.phase == .dispatched then functionFault s f St.BUDGET_EXCEEDED pos else s
    | none => s)

/-- Class of a LINK_SEND's message: class 2 travels in class 1 (R395). -/
def linkSendClass (c : Nat) : Nat := if c = 2 then 1 else c

/-- LINK_SEND (Table 4.12, R124, R408). Table 15.8 gives the MSG no field for the sender's function. -/
def dispLinkSend (s : State) (f : Nat) (p : Packet) : State :=
  let pod := p.bits 4 1 0
  if pod = s.boot.podId then refusePkt s f p.pos St.BAD_PARAM true
  else if !hasRoute s pod then refusePkt s f p.pos St.ROUTE_NONE true
  else
    sendReq s .packet 20 pod 0x13 (linkSendClass p.cls) f p.pos 0 20 0 (fenceFields (p.bits 4 8 2) 0 (p.bits 5 15 0))
      (((List.range 5).map (fun i => bytesLE 4 (p.dw (6 + i)).toNat)).flatten)

/-- LINK_SEND. -/
def execPktLinkSend (f pos : Nat) (s : State) : Out := .next (dispatchAs s f pos 0x50 dispLinkSend)

end Sys2Proof.Machine
end

