-- ==== Sys2Proof/Machine/Copy.lean ====
section
/-! DEFINITION. The copy engines (chapter 8) and their page requests (6.6): checks, engine choice, copy tiles, fills, codec
passes, holds, region updates, and the ends of transfers. A transfer moves as far as it can as soon as it runs; its end is a
command of its own. -/

namespace Sys2Proof.Machine

/-! ### Engines -/

def getEng (s : State) (e : Nat) : Engine := Tab.get Engine.reset s.eng e
def setEng (s : State) (e : Nat) (g : Engine) : State := { s with eng := Tab.set Engine.reset s.eng e g }

/-- Change one transfer of an engine, running or held. -/
def modXfer (s : State) (e : Nat) (x : Xfer) (g : Xfer → Xfer) : State :=
  let is (y : Xfer) : Bool := y.fn == x.fn && y.pos == x.pos
  let n := getEng s e
  setEng s e { n with running := n.running.map (fun y => if is y then g y else y), held := n.held.map (fun y => if is y then g y else y) }

/-- Key of an engine's counter i (Table 8.8). -/
def ceCtr (e i : Nat) : Nat := 0x500040 + 0x100 * e + 8 * i

/-- Transfers queued, running and held (R207). -/
def engLoad (g : Engine) : Nat := g.queue.length + b2n g.running.isSome + g.held.length

/-- The engine that takes a packet now (R206, R207): none while every candidate's queue is full. -/
def pickEngine (s : State) (p : Packet) : Option Nat :=
  let roomy (e : Nat) : Bool := decide ((getEng s e).queue.length < 64)
  if p.bits 4 2 2 = 0 then (if roomy (p.bits 4 1 0) then some (p.bits 4 1 0) else none)
  else
    let inc := [0, 1, 2, 3].filter (fun e => ff s (R.CE_ENG_n_CTRL e) F.CE_ENG_n_CTRL.ANY_EXCLUDE == 0)
    let cand := (if inc.isEmpty then [0, 1, 2, 3] else inc).filter roomy
    cand.find? (fun e => cand.all (fun d => decide (engLoad (getEng s e) ≤ engLoad (getEng s d))))

/-! ### What a packet asks for (Table 4.10) -/

/-- Rows and bytes per row of COPY and FILL. -/
def tileW (p : Packet) : Nat := p.bits 9 15 0 + 1
def tileH (p : Packet) : Nat := p.bits 9 31 16 + 1

/-- Compressed format code of Table 8.2 order, and whether a codec takes part. -/
def codecFmt (p : Packet) : Nat := if p.opcode = 0x23 then p.bits 4 4 3 - 1 else p.bits 4 4 3
def usesDecoder (p : Packet) : Bool := p.opcode == 0x22 || (p.opcode == 0x23 && p.bits 4 4 3 != 0)

/-- Source length of the linear packets. -/
def srcLen (p : Packet) : Nat := (p.dw 9).toNat

/-- Two extents share a byte. -/
def extentsMeet (a n b m : Nat) : Bool := decide (0 < n) && decide (0 < m) && decide (a < b + m) && decide (b < a + n)

/-- Extent length of a tile with a stride (8.2). -/
def tileExtent (p : Packet) (stride : Nat) : Nat := (tileH p - 1) * stride + tileW p

/-- The checks of 4.5.3, in order: true where one fails. -/
def copyBad (s : State) (f : Nat) (p : Packet) : Bool :=
  let ss := (p.dw 10).toNat
  let ds := (p.dw 11).toNat
  match p.opcode with
  | 0x20 =>
    (decide (1 < tileH p) && (decide (ss < tileW p) || decide (ds < tileW p))) ||
    extentsMeet (p.addr 5) (tileExtent p ss) (p.addr 7) (tileExtent p ds)
  | 0x24 =>
    (decide (1 < tileH p) && decide (ds < tileW p)) || p.bits 13 1 0 == 3 || tileW p % 2 ^ p.bits 13 1 0 != 0
  | 0x21 =>
    p.bits 4 4 3 == 3 || p.bits 4 7 5 == 0 || decide (4 < p.bits 4 7 5) || srcLen p == 0 || decide (16777216 < srcLen p) ||
    extentsMeet (p.addr 5) (srcLen p) (p.addr 7) (p.dw 10).toNat
  | 0x22 =>
    p.bits 4 4 3 == 3 || p.bits 4 7 5 != 0 || srcLen p == 0 || decide (16777216 < srcLen p) ||
    extentsMeet (p.addr 5) (srcLen p) (p.addr 7) (p.dw 10).toNat
  | _ =>
    srcLen p == 0 ||
    match usableProg s f p (p.bits 4 19 8) with
    | none => true
    | some g =>
      match g.regions.find? (fun d => d.region == p.bits 4 27 20) with
      | none => true
      | some d => p.bits 4 4 3 == 0 && srcLen p != d.size

/-- Destination capacity of a decoder: DST_CAPACITY, or R_r (R228). -/
def decCap (s : State) (f : Nat) (p : Packet) : Nat :=
  if p.opcode = 0x23 then (nextBank s f (p.bits 4 19 8) (p.bits 4 27 20)).2 else (p.dw 10).toNat

/-- First destination address of the linear packets. -/
def dstBase (s : State) (f : Nat) (p : Packet) : Nat :=
  if p.opcode = 0x23 then (nextBank s f (p.bits 4 19 8) (p.bits 4 27 20)).1 else p.addr 7

/-! ### The next move of a transfer (R211, R212, R217, R220) -/

/-- A transfer's next piece of work. -/
inductive Move where
  /-- move bytes from a source to a destination address -/
  | copy (src dst n : Nat)
  /-- write bytes -/
  | put (dst : Nat) (bs : List Byte)
  /-- read source bytes for the codec -/
  | read (va n : Nat)
  /-- the trial pass is over -/
  | trial
  /-- the transfer is complete, with its RESULT -/
  | finish (result : Nat)
  /-- a decoder error -/
  | codec (status : Nat) (result : Option Nat)


/-- Bytes up to the next boundary: 128 bytes for a pod-window page, else 4 KiB. -/
def boundRoom (s : State) (who f va : Nat) : Nat :=
  match leafOf s who f va with
  | .leaf e _ => if leafTarget e = 2 then 128 - va % 128 else 4096 - va % 4096
  | _ => 4096 - va % 4096

/-- The next source piece of a codec pass, or nothing where all is read. -/
def nextRead (s : State) (who : Nat) (x : Xfer) (p : Packet) : Option Move :=
  let va := p.addr 5 + x.src.length
  if x.src.length < srcLen p then some (.read va (min (srcLen p - x.src.length) (boundRoom s who x.fn va))) else none

/-- Bytes to write at the cursor of a linear destination. -/
def nextPut (s : State) (who : Nat) (x : Xfer) (p : Packet) (bs : List Byte) : Move :=
  let va := dstBase s x.fn p + x.cursor
  .put va ((bs.drop x.cursor).take (boundRoom s who x.fn va))

/-- What a transfer does next. -/
def nextMove (s : State) (who : Nat) (x : Xfer) (p : Packet) : Move :=
  let row := x.cursor / tileW p
  let col := x.cursor % tileW p
  match p.opcode with
  | 0x20 =>
    if tileW p * tileH p ≤ x.cursor then .finish x.cursor
    else
      let a := p.addr 5 + row * (p.dw 10).toNat + col
      let b := p.addr 7 + row * (p.dw 11).toNat + col
      .copy a b (min (tileW p - col) (min (boundRoom s who x.fn a) (boundRoom s who x.fn b)))
  | 0x24 =>
    if tileW p * tileH p ≤ x.cursor then .finish x.cursor
    else
      let b := p.addr 7 + row * (p.dw 11).toNat + col
      let pb := 2 ^ p.bits 13 1 0
      .put b ((List.range (min (tileW p - col) (boundRoom s who x.fn b))).map (fun i =>
        BitVec.ofNat 8 ((p.dw 12).toNat / 2 ^ (8 * ((col + i) % pb)))))
  | 0x21 =>
    if !x.emit then (nextRead s who x p).getD .trial
    else match nextRead s who x p with
      | some m => m
      | none => if x.data.length ≤ x.cursor then .finish x.data.length else nextPut s who x p x.data
  | _ =>
    if !usesDecoder p then
      if srcLen p ≤ x.cursor then .finish x.cursor
      else
        let a := p.addr 5 + x.cursor
        let b := dstBase s x.fn p + x.cursor
        .copy a b (min (srcLen p - x.cursor) (min (boundRoom s who x.fn a) (boundRoom s who x.fn b)))
    else
      let d := decode (codecFmt p) (srcLen p) (decCap s x.fn p) x.src
      if x.cursor < d.n then nextPut s who x p d.hist.reverse
      else match d.fin with
        | .err st off => .codec st (some off)
        | .done => if p.opcode = 0x23 && decide (d.n < decCap s x.fn p) then .codec St.CODEC_TRUNCATED_INPUT none else .finish d.n
        | _ => (nextRead s who x p).getD (.codec St.CODEC_TRUNCATED_INPUT (some (srcLen p)))

/-! ### Access checks at a page (R175 to R177, R403) -/

/-- What stands in the way of a piece. -/
inductive XAcc where
  | ok
  /-- these n untranslated bytes from an address on need a translation first -/
  | ats (a n : Nat)
  /-- an ATS invalidation of the range is held -/
  | hold
  /-- the peer's data, or room for a request to it, must come first -/
  | remote
  /-- these host pages lack the permission -/
  | deny (pages : List Nat)
  /-- a page for which a group has succeeded still grants too little (Table 6.6) -/
  | again
  | fails (status : Nat)

/-- Ranges of the source or of the destination that the whole of a transfer needs, in its order: the n bytes at an address are the last
known ones of a decoder's output. -/
def wholeRanges (s : State) (x : Xfer) (p : Packet) (write : Bool) (va n : Nat) : List (Nat × Nat) :=
  match p.opcode with
  | 0x20 =>
    let base := if write then p.addr 7 else p.addr 5
    let stride := if write then (p.dw 11).toNat else (p.dw 10).toNat
    (List.range (tileH p)).map (fun r => (base + r * stride, tileW p))
  | 0x24 => (List.range (tileH p)).map (fun r => (p.addr 7 + r * (p.dw 11).toNat, tileW p))
  | _ => if write then [(dstBase s x.fn p, va + n - dstBase s x.fn p)] else [(p.addr 5, srcLen p)]

/-- The first byte that a transfer needs in the device page of an address, in its order (R181). -/
def firstNeeded (s : State) (who : Nat) (x : Xfer) (p : Packet) (write : Bool) (va n : Nat) : Nat :=
  let d := devicePage s who x.fn va
  (((wholeRanges s x p write va n).find? (fun r => extentsMeet r.1 r.2 d.1 d.2)).map (fun r => max r.1 d.1)).getD va

/-- Ranges of the source or of the destination that a transfer still needs. -/
def restRanges (s : State) (x : Xfer) (p : Packet) (write : Bool) (va n : Nat) : List (Nat × Nat) :=
  match p.opcode with
  | 0x20 =>
    let base := if write then p.addr 7 else p.addr 5
    let stride := if write then (p.dw 11).toNat else (p.dw 10).toNat
    ((List.range (tileH p)).filter (fun r => decide (x.cursor / tileW p ≤ r))).map (fun r => (base + r * stride, tileW p))
  | 0x24 =>
    ((List.range (tileH p)).filter (fun r => decide (x.cursor / tileW p ≤ r))).map
      (fun r => (p.addr 7 + r * (p.dw 11).toNat, tileW p))
  | _ =>
    if !write then [(va, srcLen p - (va - p.addr 5))]
    else if p.opcode = 0x21 then [(va, x.data.length - x.cursor)]
    else if usesDecoder p then [(va, n)]
    else [(va, (nextBank s x.fn (p.bits 4 19 8) (p.bits 4 27 20)).2 - x.cursor)]

/-- 4 KiB pages of some ranges inside one device page. -/
def pagesIn (lo hi : Nat) (rs : List (Nat × Nat)) : List Nat :=
  sortNat ((rs.map (fun r =>
    let a := max lo r.1
    let b := min hi (r.1 + r.2)
    if b ≤ a then [] else (List.range ((b - 1) / 4096 + 1 - a / 4096)).map (fun i => (a / 4096 + i) * 4096))).flatten.dedup)

/-- The host part of `xferAcc`: a transfer that reaches a host-target page needs a translation, and the permission, for every byte that
it still needs in that device page (R162, R176). -/
def hostAcc (s : State) (who : Nat) (x : Xfer) (p : Packet) (va n : Nat) (write : Bool) : XAcc :=
  let f := x.fn
  let d := devicePage s who f va
  let accs := (pagesIn d.1 (d.1 + d.2) (restRanges s x p write va n)).map (fun v => xlate s who f v false write)
  let misses := accs.filterMap (fun a => match a with
    | .ats a => some (a / 4096 * 4096)
    | _ => none)
  let denied := accs.filterMap (fun a => match a with
    | .deny a => some (a / 4096 * 4096)
    | _ => none)
  match misses.head?, misses.getLast? with
  | some a, some b => .ats a (b + 4096 - a)
  | _, _ =>
    if accs.any (· == .hold) then .hold
    else if denied.isEmpty then .ok
    else if denied.any (fun a => x.asked.contains a) then .again
    else if !s.priEn then .fails St.PAGE_FAULT_UNRESOLVED
    else .deny denied

/-- What stands in the way of a piece of a transfer. -/
def xferAcc (s : State) (who : Nat) (x : Xfer) (p : Packet) (va n : Nat) (write : Bool) : XAcc :=
  let f := x.fn
  match xlate s who f va false write with
  | .loc _ => .ok
  | .hst _ => hostAcc s who x p va n write
  | .pod q a =>
    if !hasRoute s q then .fails St.ROUTE_NONE
    else if write || (podPieces a n).all (fun r => remoteHere s who f q r.1 r.2) then .ok else .remote
  | .ats _ => hostAcc s who x p va n write
  | .deny _ => hostAcc s who x p va n write
  | .hold => .hold
  | .bad => .fails St.PAGE_FAULT_UNRESOLVED

/-! ### Page request groups (R176, R177, R183) -/

/-- Page requests an engine has outstanding. -/
def outstanding (s : State) (e : Nat) : Nat :=
  ((s.xl.groups.filter (fun g => g.engine == e && !g.dead)).map (fun g => g.pages.length)).sum

/-- A group index of 9 bits that no group uses, from `nextGroup` on (R183). -/
def freeIndex (s : State) : Nat :=
  (((List.range 512).map (fun i => (s.xl.nextGroup + i) % 512)).find? (fun i =>
    !s.xl.groups.any (fun g => g.index == i && (g.dead || !g.pages.isEmpty)))).getD s.xl.nextGroup

/-- Send the next group of a held transfer, as far as ⌊A / 4⌋ allows (R177), and the page request capacity (Table 6.4). -/
def sendGroup (s : State) (g : PrgGroup) : State :=
  let all := ((s.xl.groups.filter (fun h => !h.dead)).map (fun h => h.pages.length)).sum
  let room := min (s.priAlloc / 4 - outstanding s g.engine) (pageRequestCapacity - all)
  let now := g.more.take room
  if now.isEmpty then s
  else
    let i := freeIndex s
    let g' := { g with index := i, pages := now, more := g.more.drop room }
    let s := { s with
      xl := { s.xl with groups := s.xl.groups.map (fun h => if h = g then g' else h), nextGroup := (i + 1) % 512 }
      out := s.out ++ now.zipIdx.map (fun q => .pageRequest g.fn i q.1 g.write (q.2 + 1 == now.length)) }
    traceEv (bump32 s R.MT_PRI_REQUESTS) 30 6 g.fn none false (bytesLE 1 g.engine ++ bytesLE 2 now.length)

/-- Send what the groups of an engine can send, oldest first. -/
def pumpGroups (s : State) (e : Nat) : State :=
  (s.xl.groups.filter (fun g => g.engine == e && !g.dead && g.pages.isEmpty)).foldl sendGroup s

/-! ### Moving bytes -/

/-- Forget an ended transfer's page request group and translation requests. -/
def dropXferRequests (s : State) (e : Nat) (x : Xfer) : State :=
  { s with xl := { s.xl with
    groups := (s.xl.groups.map (fun g => if g.engine = e ∧ g.fn = x.fn ∧ g.pos = x.pos then { g with dead := true } else g)).filter
      (fun g => !(g.dead && g.pages.isEmpty))
    reqs := s.xl.reqs.filter (fun r => !(r.engine == e && r.fn == x.fn && r.pos == x.pos)) } }

/-- Bytes written before the end become undefined: the part moved, or, for a decoder error, the whole destination (R182,
R222). -/
def undefPart (s : State) (x : Xfer) (p : Packet) (whole : Bool) : State :=
  if whole then (copyWrites s x.fn p).foldl (fun s r => undefVA s x.fn r.1 r.2) s
  else if p.opcode = 0x20 || p.opcode = 0x24 then
    (List.range (ceilDiv x.cursor (tileW p))).foldl (fun s r =>
      undefVA s x.fn (p.addr 7 + r * (p.dw 11).toNat) (min (tileW p) (x.cursor - r * tileW p))) s
  else undefVA s x.fn (dstBase s x.fn p) x.cursor

/-- A transfer ends with a status: the record of R181, the destination, and its requests. -/
def xferFails (s : State) (e : Nat) (x : Xfer) (p : Packet) (st result va : Nat) (write : Bool) : State :=
  let s := if [St.PAGE_FAULT_UNRESOLVED, St.TRANSLATION_TIMEOUT, St.REMOTE_REFUSED].contains st then
    xlateRecord s x.fn va write st x.pos else s
  let s := undefPart s x p false
  dropXferRequests (modXfer s e x (fun y => { y with phase := .failed, status := st, result := result })) e x

/-- Act on what stands in the way of a piece, whose page has been looked up. -/
def xferBlocked (s : State) (e : Nat) (x : Xfer) (p : Packet) (va n : Nat) (write : Bool) (k : XAcc) : State :=
  let v := firstNeeded s (16 + e) x p write va n
  let s := touchLeaf s (16 + e) x.fn va
  match k with
  | .ok => s
  | .ats a m => modXfer (sendAts s x.fn a m e x.pos v write) e x (fun y => { y with phase := .waitAts })
  | .hold => modXfer s e x (fun y => { y with phase := .waitAts })
  | .remote =>
    let s := askRanges s (.copy e) (16 + e) e 3 x.fn x.pos [⟨va, n, false⟩]
    modXfer s e x (fun y => { y with phase := .waitRemote })
  | .deny as =>
    let g : PrgGroup := ⟨0, x.fn, e, x.pos, [], v, write, as, false⟩
    let s := { s with xl := { s.xl with groups := s.xl.groups ++ [g] } }
    modXfer (sendGroup s g) e x (fun y => { y with phase := .heldPri })
  | .again => xferFails (bump32 s R.MT_PRI_FAILURES) e x p St.PAGE_FAULT_UNRESOLVED x.cursor v write
  | .fails st => xferFails s e x p st x.cursor v write

/-- Read bytes of a source piece that passed its check, and forget a peer's bytes once used. -/
def xferRead (s : State) (e : Nat) (x : Xfer) (va n : Nat) : State × List Byte :=
  let who := 16 + e
  let s := touchVA s who x.fn va n false false
  let bs := (List.range n).map (fun i => vaByte s who x.fn (va + i))
  (bumpBy (forgetRemote s who x.fn [⟨va, n, false⟩]) (ceCtr e 0) n, bs)

/-- Write bytes of a destination piece that passed its check. -/
def xferWrite (s : State) (e : Nat) (x : Xfer) (va : Nat) (bs : List Byte) : State :=
  let who := 16 + e
  let s := touchVA s who x.fn va bs.length false true
  bumpBy (vaWrite s (.copy e) who 3 x.fn x.pos (bs.zipIdx.map (fun b => (va + b.2, b.1)))) (ceCtr e 1) bs.length

/-- After a source piece of a codec pass: at the end of an emit pass's reading, a source that no longer compresses to the
trial pass's bytes leaves undefined ones (R218). -/
def tookSource (s : State) (e : Nat) (x : Xfer) (p : Packet) (bs : List Byte) : State :=
  let src := x.src ++ bs
  if x.emit && srcLen p ≤ src.length && compressed (codecFmt p) (p.bits 4 7 5) src != x.data then
    modXfer { s with freeCtr := s.freeCtr + x.data.length } e x (fun y =>
      { y with src := src, data := freeBytes s.freeCtr x.data.length })
  else modXfer s e x (fun y => { y with src := src })

/-- Move a running transfer on until it ends or waits. -/
def advance (e : Nat) : Nat → State → State
  | 0, s => s
  | fuel + 1, s =>
    match (getEng s e).running with
    | none => s
    | some x =>
      if x.phase != .moving then s
      else match getPkt s x.fn x.pos with
        | none => s
        | some p =>
          match nextMove s (16 + e) x p with
          | .copy a b n =>
            match xferAcc s (16 + e) x p a n false with
            | .ok =>
              match xferAcc s (16 + e) x p b n true with
              | .ok =>
                let r := xferRead s e x a n
                let s := xferWrite r.1 e x b r.2
                advance e fuel (modXfer s e x (fun y => { y with cursor := y.cursor + n }))
              | k => xferBlocked (touchLeaf s (16 + e) x.fn a) e x p b n true k
            | k => xferBlocked s e x p a n false k
          | .put b bs =>
            match xferAcc s (16 + e) x p b bs.length true with
            | .ok => advance e fuel (modXfer (xferWrite s e x b bs) e x (fun y => { y with cursor := y.cursor + bs.length }))
            | k => xferBlocked s e x p b bs.length true k
          | .read a n =>
            match xferAcc s (16 + e) x p a n false with
            | .ok =>
              let r := xferRead s e x a n
              advance e fuel (tookSource r.1 e x p r.2)
            | k => xferBlocked s e x p a n false k
          | .trial =>
            modXfer s e x (fun y => { y with phase := .trialDone, data := compressed (codecFmt p) (p.bits 4 7 5) y.src })
          | .finish r => modXfer s e x (fun y => { y with phase := .done, status := St.DONE, result := r })
          | .codec st r =>
            let free := freshNat s
            let s := if r.isNone then free.1 else s
            modXfer (undefPart s x p true) e x (fun y =>
              { y with phase := .failed, status := st, result := r.getD free.2 })

/-- Pieces a transfer can have: enough for every boundary it may meet. -/
def xferFuel (s : State) (x : Xfer) : Nat :=
  match getPkt s x.fn x.pos with
  | none => 0
  | some p =>
    if p.opcode = 0x20 || p.opcode = 0x24 then tileH p * (tileW p / 64 + 4) + 1
    else (srcLen p + decCap s x.fn p + x.data.length) / 64 + 16

/-! ### Queues (R110, R179, R206 to R208) -/

/-- Class of a queued transfer. -/
def queuedClass (s : State) (q : Nat × Nat) : Nat := ((getPkt s q.1 q.2).map (·.cls)).getD 0

/-- Place of a queued transfer in the order of dispatch. -/
def queuedOrder (s : State) (q : Nat × Nat) : Nat := ((getPkt s q.1 q.2).map (·.order)).getD 0

/-- The next queued transfer: class order, then dispatch order (R110), which a region update keeps from its own dispatch. -/
def nextQueued (s : State) (g : Engine) : Option (Nat × Nat) :=
  [0, 1, 2, 3].findSome? (fun c =>
    let l := g.queue.filter (fun q => queuedClass s q == c)
    l.find? (fun q => l.all (fun r => decide (queuedOrder s q ≤ queuedOrder s r))))

/-- A transfer starts: the RW-B boundary of the engine (Table 8.6), and the start of work. -/
def startXfer (s : State) (e : Nat) (q : Nat × Nat) : State :=
  let g := getEng s e
  let s := applyRwb s (fun k => k == R.CE_ENG_n_CTRL e)
  let x : Xfer := ⟨q.1, q.2, .moving, 0, false, [], [], [], St.DONE, 0⟩
  let s := startPkt (setEng s e { g with queue := g.queue.erase q, running := some x }) q.1 q.2
  let op := ((getPkt s q.1 q.2).map (·.opcode)).getD 0
  traceEv s 28 6 q.1 ((getPkt s q.1 q.2).map (·.tag)) false (bytesLE 1 e ++ bytesLE 1 op)

/-- Run the engine's transfer as far as it goes. -/
def runEng (s : State) (e : Nat) : State :=
  match (getEng s e).running with
  | none => s
  | some x => advance e (xferFuel s x) s

/-- Let an engine go on (R179, R208): a transfer that must be held leaves the engine while at most one is held; one that may
continue comes back; else the next queued transfer starts. -/
def kick (e : Nat) : Nat → State → State
  | 0, s => s
  | fuel + 1, s =>
    let g := getEng s e
    let ready := g.held.find? (fun y => y.phase == .moving)
    match g.running with
    | some x =>
      if x.phase == .moving then kick e fuel (runEng s e)
      else if x.phase != .heldPri then s
      else if g.held.length < 2 then kick e fuel (setEng s e { g with running := none, held := g.held ++ [x] })
      else match ready with
        | some y => kick e fuel (runEng (setEng s e { g with running := some y, held := g.held.erase y ++ [x] }) e)
        | none => s
    | none =>
      match ready with
      | some y => kick e fuel (runEng (setEng s e { g with running := some y, held := g.held.erase y }) e)
      | none =>
        match nextQueued s g with
        | some q => kick e fuel (runEng (startXfer s e q) e)
        | none => s

/-- Let an engine go on. -/
def kickEng (s : State) (e : Nat) : State := kick e (2 * (getEng s e).queue.length + 8) s

/-- A packet enters an engine's queue. -/
def enqueue (s : State) (e f pos : Nat) : State :=
  let g := getEng s e
  kickEng (setEng s e { g with queue := g.queue ++ [(f, pos)] }) e

/-! ### Regions (8.4) -/

/-- A job holds a bank of a region (R224). -/
def bankHeld (s : State) (f id r bank : Nat) : Bool :=
  s.tt.jobs.any (fun j => j.fn == f && j.prog == id && j.regionBind.contains (r, bank))

def getRgn (g : Prog) (r : Nat) : RegionState := Tab.get RegionState.reset g.rgn r
def setRgn (s : State) (f id r : Nat) (x : RegionState) : State :=
  modProg s f id (fun g => { g with rgn := Tab.set RegionState.reset g.rgn r x })

/-- A packet's transfer is at an engine: queued, running or held. -/
def atEngine (s : State) (f pos : Nat) : Bool :=
  [0, 1, 2, 3].any (fun e => (getEng s e).queue.contains (f, pos) ||
    ((getEng s e).running.toList ++ (getEng s e).held).any (fun x => x.fn == f && x.pos == pos))

/-- Move a region's pending update to its running slot, where nothing stands in the way (R226). -/
def toRunning (s : State) (f id r : Nat) : State :=
  match getProg s f id with
  | none => s
  | some g =>
    let x := getRgn g r
    match x.pend, x.running with
    | some pos, none =>
      if bankHeld s f id r ((x.version + 1) % 2) then s else setRgn s f id r { x with running := some pos, pend := none }
    | _, _ => s

/-- Move a region's pending update, and let the running one enter its engine's queue as soon as that has room (R206, R226). -/
def promote (s : State) (f id r : Nat) : State :=
  let s := toRunning s f id r
  match (getProg s f id).bind (fun g => (getRgn g r).running) with
  | none => s
  | some pos =>
    if atEngine s f pos then s
    else match getPkt s f pos with
      | none => s
      | some p =>
        match pickEngine s p with
        | none => s
        | some e => enqueue s e f pos

/-- Move every update that can move. -/
def promoteRegions (s : State) : State :=
  s.progs.foldl (fun s g => g.rgn.foldl (fun s e => promote s g.fn g.id e.1) s) s

/-! ### Dispatch -/

/-- COPY, COPY_COMPRESS, COPY_DECOMPRESS and FILL at dispatch: the checks, then the engine's queue (R206, R207). -/
def dispCopy (s : State) (f : Nat) (p : Packet) : State :=
  if copyBad s f p then refusePkt s f p.pos St.BAD_PARAM true
  else match pickEngine s p with
    | none => holdPkt s f p.pos
    | some e => enqueue s e f p.pos

/-- REGION_UPDATE at dispatch: the pending slot of its region, where it supersedes an update already there (R225). -/
def dispRegion (s : State) (f : Nat) (p : Packet) : State :=
  if copyBad s f p then refusePkt s f p.pos St.BAD_PARAM true
  else
    let id := p.bits 4 19 8
    let r := p.bits 4 27 20
    let s := toRunning s f id r
    match getProg s f id with
    | none => s
    | some g =>
      let x := getRgn g r
      let s := match x.pend with
        | none => s
        | some old =>
          match getPkt s f old with
          | none => s
          | some q =>
            traceEv (bump (finishPkt s f old St.SUPERSEDED x.version) (ceCtr (q.bits 4 1 0) 6)) 33 1 f (some q.tag) false
              (bytesLE 1 q.opcode ++ bytesLE 4 old)
      promote (setRgn s f id r { x with pend := some p.pos }) f id r

/-- COPY. -/
def execPktCopy (f pos : Nat) (s : State) : Out := .next (dispatchAs s f pos 0x20 dispCopy)

/-- COPY_COMPRESS. -/
def execPktCopyCompress (f pos : Nat) (s : State) : Out := .next (dispatchAs s f pos 0x21 dispCopy)

/-- COPY_DECOMPRESS. -/
def execPktCopyDecompress (f pos : Nat) (s : State) : Out := .next (dispatchAs s f pos 0x22 dispCopy)

/-- REGION_UPDATE. -/
def execPktRegionUpdate (f pos : Nat) (s : State) : Out := .next (dispatchAs s f pos 0x23 dispRegion)

/-- FILL. -/
def execPktFill (f pos : Nat) (s : State) : Out := .next (dispatchAs s f pos 0x24 dispCopy)

/-! ### Ends (R180, R217, R221, R227, R229) -/

/-- No response of a peer is outstanding for a packet's transfer. -/
def xferSettled (s : State) (e : Nat) (x : Xfer) : Bool :=
  !s.link.reqs.any (fun r => r.owner == .copy e && r.fn == x.fn && r.pos == x.pos)

/-- A region update has ended: version, slots and banks (R227, R229). RESULT of an end other than DONE that no decoder
reports is the version in force (Table 4.4). -/
def regionEnd (s : State) (x : Xfer) (p : Packet) : State × Nat :=
  let id := p.bits 4 19 8
  let r := p.bits 4 27 20
  match getProg s x.fn id with
  | none => (s, 0)
  | some g =>
    let q := getRgn g r
    if x.status = St.DONE then
      let v := (q.version + 1) % 2 ^ 32
      let s := setRgn s x.fn id r { q with version := v, running := none }
      (traceEv s 32 6 x.fn (some p.tag) false (bytesLE 2 id ++ bytesLE 1 r ++ bytesLE 4 v), v)
    else
      let b := nextBank s x.fn id r
      let s := setRgn (undefVA s x.fn b.1 b.2) x.fn id r { q with running := none }
      (s, if 0x0401 ≤ x.status ∧ x.status ≤ 0x0406 then x.result else q.version)

/-- Count an end (Table 8.8). -/
def countXferEnd (s : State) (e st : Nat) : State :=
  if st = St.DONE then bump s (ceCtr e 2)
  else if st = St.CODEC_NO_GAIN then bump s (ceCtr e 4)
  else if st / 256 = 4 then bump s (ceCtr e 3)
  else if st / 256 = 3 then bump s (ceCtr e 5)
  else s

/-- Finish one ended transfer: its packet, its counts, and what waited for it. -/
def finishXfer (s : State) (e : Nat) (x : Xfer) : State :=
  let g := getEng s e
  let s := setEng s e { g with running := g.running.filter (fun y => y != x), held := g.held.filter (fun y => y != x) }
  let s := dropFetched s (16 + e) x.fn
  match getPkt s x.fn x.pos with
  | none => kickEng s e
  | some p =>
    let r := if p.opcode = 0x23 then regionEnd s x p else (s, x.result)
    let s := finishPkt (countXferEnd r.1 e x.status) x.fn x.pos x.status r.2
    let s := traceEv s 29 6 x.fn (some p.tag) false (bytesLE 1 e ++ bytesLE 1 p.opcode ++ bytesLE 2 x.status)
    promoteRegions (kickEng (settleFn s x.fn) e)

/-- TRANSFER_END: an ended transfer of the engine, running or held, finishes, and the engine takes its next one (R180,
R208). -/
def execTransferEnd (e : Nat) (s : State) : Out :=
  .next (raiseMet (
    let g := getEng s e
    match (g.running.toList ++ g.held).find? (fun x => (x.phase == .failed || x.phase == .done) && xferSettled s e x) with
    | some x => finishXfer s e x
    | none => promoteRegions (kickEng s e)))

/-- COMPRESS_TRIAL_END: Table 8.4, in order. -/
def execCompressTrialEnd (e : Nat) (s : State) : Out :=
  .next (raiseMet (match (getEng s e).running with
    | none => s
    | some x =>
      if x.phase != .trialDone then s
      else match getPkt s x.fn x.pos with
        | none => s
        | some p =>
          let l := x.data.length
          if srcLen p ≤ l then modXfer s e x (fun y => { y with phase := .failed, status := St.CODEC_NO_GAIN, result := l })
          else if (p.dw 10).toNat < l then
            modXfer s e x (fun y => { y with phase := .failed, status := St.CODEC_OUTPUT_FULL, result := l })
          else kickEng (modXfer s e x (fun y => { y with phase := .moving, emit := true, src := [], cursor := 0 })) e))

/-! ### Continuing (R178, R219) -/

/-- A transfer whose wait has ended moves on; a compression that was held runs its pass again from the start (R219). -/
def resumeXfer (s : State) (e : Nat) (x : Xfer) (restart : Bool) : State :=
  let again := restart && (((getPkt s x.fn x.pos).map (·.opcode)) == some 0x21)
  kickEng (modXfer s e x (fun y => { y with phase := .moving
                                            src := if again then [] else y.src
                                            cursor := if again then 0 else y.cursor })) e

/-- The transfer of a packet at an engine, running or held. -/
def findXfer (s : State) (e f pos : Nat) : Option Xfer :=
  ((getEng s e).running.toList ++ (getEng s e).held).find? (fun x => x.fn == f && x.pos == pos)

/-- Transfers that wait for remote data look again (R401). -/
def resumeRemote (s : State) : State :=
  [0, 1, 2, 3].foldl (fun s e =>
    match (getEng s e).running with
    | some x => if x.phase == .waitRemote then resumeXfer s e x false else s
    | none => s) s

/-- A peer's answer ends a transfer (R160, R403). -/
def xferRemoteFails (s : State) (e f pos st va : Nat) (write : Bool) : State :=
  match findXfer s e f pos, getPkt s f pos with
  | some x, some p => if x.phase == .failed then s else xferFails s e x p st x.cursor va write
  | _, _ => s

end Sys2Proof.Machine
end

