-- ==== Sys2Proof/Machine/Timetable.lean ====
section
/-! DEFINITION. Timetable (chapter 5): pools, estimates, selection, job entry, start, end, ageing, budgets, step batching,
clusters (19.2) and QUOTA_SET. A queued job is one no pass has selected; a selected job holds its clusters. -/

namespace Sys2Proof.Machine

/-! ### Fields in force (Tables 5.7 to 5.9) -/

def ttQuantum (s : State) : Nat := max 1 (ff s R.TT_QUANTUM F.TT_QUANTUM.QUANTUM)

/-- N: standby clusters in force. -/
def standby (s : State) : Nat := min 4 (ff s R.TT_STANDBY F.TT_STANDBY.COUNT)

/-- Keys of the RW-B registers of the TT block. -/
def inTT (k : Nat) : Bool := decide (0x200000 ≤ k) && decide (k < 0x200010)

/-! ### Jobs -/

/-- The job one of whose elements belongs to a packet. -/
def getJob (s : State) (f pos : Nat) : Option Job :=
  s.tt.jobs.find? (fun j => j.fn == f && j.elems.any (fun e => e.pos == pos))

/-- Take a job out. -/
def dropJob (s : State) (j : Job) : State :=
  { s with tt := { s.tt with jobs := s.tt.jobs.filter (fun k => k.order != j.order) } }

/-- S and E_p of a job's program. -/
def jobSlate (s : State) (j : Job) : Nat := jobC s j * ((getProg s j.fn j.prog).map (·.slate)).getD 0
def jobEst (s : State) (j : Job) : Nat := ((getProg s j.fn j.prog).map (·.est)).getD 0

/-- Charge of a job: C × n × E_p (5.4). -/
def jobCharge (s : State) (j : Job) : Nat := jobC s j * j.n * jobEst s j

/-! ### Clusters (19.2, R137, R140) -/

/-- Free clusters in ascending order. -/
def freeClusters (s : State) : List Nat := (List.range 16).filter (fun n => !clusterBusy s n)

/-- Clusters that jobs of current class 1 to 3 occupy. -/
def lowerBusy (s : State) : Nat := ((s.tt.jobs.filter (fun j => j.holds && j.cls != 0)).map (fun j => j.clusters.length)).sum

/-- The free pool of a class (R137). -/
def pool (s : State) (c : Nat) : Nat :=
  if c = 0 then (freeClusters s).length else min (freeClusters s).length (16 - standby s - lowerBusy s)

/-- Clusters a starting job is given: idle ones first, then stopped ones, lowest-numbered first (R140). -/
def grant (s : State) (c : Nat) : List Nat :=
  let fr := freeClusters s
  let idle := fr.filter (fun n => clusterSt s n == .idle)
  (idle ++ fr.filter (fun n => clusterSt s n != .idle)).take c

/-! ### Eligibility and the estimate (R133, R139) -/

/-- Clusters and Slate a function's jobs occupy. -/
def fnClusters (s : State) (f : Nat) : Nat :=
  ((s.tt.jobs.filter (fun j => j.holds && j.fn == f)).map (fun j => j.clusters.length)).sum
def fnSlate (s : State) (f : Nat) : Nat := ((s.tt.jobs.filter (fun j => j.holds && j.fn == f)).map (jobSlate s)).sum

/-- Whether a queued job is eligible (R139). -/
def eligible (s : State) (j : Job) : Bool :=
  let q := (getFn s j.fn).quota
  let c := jobC s j
  let sl := jobSlate s j
  !j.holds &&
  ((decide (fnClusters s j.fn + c ≤ q.clusters) && decide (fnSlate s j.fn + sl ≤ q.slate)) ||
   ((decide (q.clusters < c) || decide (q.slate < sl)) && fnClusters s j.fn == 0))

/-- Estimated start of a job of class c that needs C clusters, in µs (R133). -/
def estimate (s : State) (c clusters : Nat) : Nat :=
  let queued := s.tt.jobs.filter (fun j => !j.holds && decide (j.cls ≤ c))
  if !queued.any (eligible s) && decide (clusters ≤ pool s c) then 0
  else
    let run := (s.tt.jobs.filter (·.holds)).map (fun j =>
      let elapsed := if j.running then (fineNow s - j.tStart) / 100 else 0
      jobC s j * j.n * jobEst s j - jobC s j * elapsed)
    let wait := queued.map (jobCharge s)
    (run.sum + wait.sum) / (if c = 0 then 16 else 16 - standby s)

/-! ### Deficits and the selection pass (R141, R143) -/

def visited (s : State) (c f : Nat) : Bool := Tab.get false s.tt.visited (cf c f)
def setVisited (s : State) (c f : Nat) (v : Bool) : State :=
  { s with tt := { s.tt with visited := Tab.set false s.tt.visited (cf c f) v } }
def ringPtr (s : State) (c : Nat) : Nat := Tab.get 0 s.tt.pointer c

/-- Function f holds a queued job of current class c. -/
def holdsQueued (s : State) (c f : Nat) : Bool := s.tt.jobs.any (fun j => !j.holds && j.cls == c && j.fn == f)

/-- ring[c].advance(). -/
def ringAdvance (s : State) (c : Nat) : State :=
  let p := ringPtr s c
  let s := setVisited s c p false
  match (List.range 128).find? (fun k => holdsQueued s c ((p + k + 1) % 128)) with
  | some k => { s with tt := { s.tt with pointer := Tab.set 0 s.tt.pointer c ((p + k + 1) % 128) } }
  | none => s

/-- Oldest of some jobs, by dispatch order. -/
def oldest (l : List Job) : Option Job :=
  l.foldl (fun m j => match m with
    | none => some j
    | some k => if j.order < k.order then some j else some k) none

/-- A pass selects a job: it takes its clusters, and stopped ones begin to start (R140). -/
def selectJob (s : State) (j : Job) : State :=
  let cl := grant s (jobC s j)
  let s := cl.foldl (fun s n => if clusterSt s n == .stopped then setCluster s n .starting else s) s
  let ch := jobCharge s j
  modJob s j (fun k => { k with selected := true, clusters := sortNat cl, charge := ch, startCls := k.cls })

/-- One turn of the procedure of R141: the next state, and whether the procedure goes on. Where it returns for want of clusters, the
deficit and the visited mark of the turn stand. -/
def passTurn (s : State) : State × Bool :=
  match (List.range 4).find? (fun c => s.tt.jobs.any (fun j => j.cls == c && eligible s j)) with
  | none => (s, false)
  | some c =>
    let f := ringPtr s c
    match oldest (s.tt.jobs.filter (fun j => j.fn == f && j.cls == c && eligible s j)) with
    | none => (ringAdvance s c, true)
    | some j =>
      if shareOf s f = 0 && s.tt.jobs.any (fun k => k.cls == c && decide (0 < shareOf s k.fn) && eligible s k) then
        (ringAdvance s c, true)
      else
        let s := if visited s c f then s
          else setVisited (if shareOf s f = 0 then s else setDeficit s c f (deficit s c f + shareOf s f * ttQuantum s)) c f true
        if 0 < shareOf s f && decide (deficit s c f < jobCharge s j) then (ringAdvance s c, true)
        else if pool s c < jobC s j then (s, false)
        else
          let ch := jobCharge s j
          let s := selectJob s j
          let s := if 0 < shareOf s f then setDeficit s c f (deficit s c f - ch) else s
          (if holdsQueued s c f then s
            else ringAdvance (setDeficit s c f (min (deficit s c f) 0)) c, true)

/-- The procedure, at most `fuel` turns. -/
def passLoop : Nat → State → State
  | 0, s => s
  | fuel + 1, s =>
    let r := passTurn s
    if r.2 then passLoop fuel r.1 else r.1

/-- One element for each packet of a job: a batch's elements share theirs. -/
def Job.packets (j : Job) : List Elem := if j.step then j.elems else j.elems.take 1

/-- Refuse a queued job (R131, R166): each of its packets is reported and counted in the refused counter of its submitted class. -/
def refuseJob (s : State) (j : Job) (status : Nat) : State :=
  let s := leaveAccounts s j
  let s := j.packets.foldl (fun s e =>
    let s := bump s (C.FN j.fn (0x1030 + 0x18 * e.sub))
    let s := traceEv s 9 1 j.fn none false (bytesLE 1 e.sub ++ bytesLE 2 j.prog ++ bytesLE 2 status)
    refusePkt s j.fn e.pos status false) s
  let s := if j.step then modProg s j.fn j.prog (fun p => { p with seqs := p.seqs.map (fun q =>
      (q.1, { q.2 with steps := q.2.steps.filter (fun x => !j.elems.any (fun e => e.pos == x)) })) }) else s
  powerNote s (promoteRegions (settleFn (dropJob s j) j.fn))

/-! ### The step boundary and the refusals of R131 -/

/-- Region versions a job binds when it is dispatched (R224): the bank of the version in force. -/
def regionBanks (g : Prog) : List (Nat × Nat) :=
  g.regions.map (fun r => (r.region, (Tab.get RegionState.reset g.rgn r.region).version % 2))

/-- The oldest pending step of each joined sequence, in dispatch order. -/
def headSteps (s : State) (f id : Nat) : List StepWait :=
  let mine := (s.tt.steps.filter (fun w => w.fn == f && w.prog == id)).foldl (fun l j => sortIn (fun a b => decide (a.order < b.order)) j l) []
  mine.foldl (fun l w => if l.any (fun v => v.slot == w.slot) then l else l ++ [w]) []

/-- Form a step job at a step boundary, if steps are pending and no step job of the program is queued or running (R149,
R150). -/
def stepBoundary (s : State) (f id : Nat) : State :=
  if s.tt.jobs.any (fun j => j.step && j.fn == f && j.prog == id) then s
  else match getProg s f id with
    | none => s
    | some g =>
      let ws := (headSteps s f id).take g.stepBatch
      match ws with
      | [] => s
      | w :: rest =>
        let now := fineNow s
        let c := rest.foldl (fun m v => min m v.cls) w.cls
        let j : Job :=
          { fn := f, prog := id, order := s.tt.nextOrder, step := true, batch := false, elems := ws.map (·.elem)
            submitted := c, cls := c, startCls := c, budget := rest.foldl (fun m v => min m v.budget) w.budget, deadline := 0
            tEntry := now, tPromo := now, passed := false, charge := 0, regionBind := regionBanks g, selected := false
            running := false, tStart := 0, clusters := [], stages := [], owner := [], cut := none }
        let s := { s with tt := { s.tt with
          jobs := s.tt.jobs ++ [j], nextOrder := s.tt.nextOrder + 1
          steps := s.tt.steps.filter (fun v => !ws.any (fun u => u.order == v.order)) } }
        traceEv s 13 1 f none false (bytesLE 2 id ++ bytesLE 2 ws.length)

/-- C of a pending step's program. -/
def stepC (s : State) (w : StepWait) : Nat := ((getProg s w.fn w.prog).map (·.c)).getD 1

/-- Refuse a pending step: counted in the refused counter of its submitted class (R131). -/
def refuseStep (s : State) (w : StepWait) (status : Nat) : State :=
  let s := bump s (C.FN w.fn (0x1030 + 0x18 * w.elem.sub))
  let s := traceEv s 9 1 w.fn none false (bytesLE 1 w.elem.sub ++ bytesLE 2 w.prog ++ bytesLE 2 status)
  let s := refusePkt s w.fn w.pos status false
  let s' := { s with tt := { s.tt with steps := s.tt.steps.filter (fun v => v.order != w.order) } }
  let s' := modProg s' w.fn w.prog (fun p => { p with seqs := Tab.modify Seq.reset p.seqs w.slot (fun q =>
    { q with steps := q.steps.filter (fun x => x != w.pos) }) })
  powerNote s (settleFn s' w.fn)

/-- A change of the standby count in force refuses, in dispatch order, the queued jobs that could never start (R131), the
pending steps among them; a refused step job is the end of that job (log entry 76). -/
def standbyRefusals (s : State) : State :=
  let n := 16 - standby s
  let bad := s.tt.jobs.filter (fun j => !j.holds && j.cls != 0 && decide (n < jobC s j))
  let late := s.tt.steps.filter (fun w => w.cls != 0 && decide (n < stepC s w))
  let both : List (Nat × (Job ⊕ StepWait)) :=
    bad.map (fun j => (j.order, Sum.inl j)) ++ late.map (fun w => (w.order, Sum.inr w))
  let all := both.foldl (fun l x => sortIn (fun a b => decide (a.1 < b.1)) x l) []
  let s := all.foldl (fun s x => match x.2 with
    | .inl j => refuseJob s j St.REFUSED_RESOURCES
    | .inr w => refuseStep s w St.REFUSED_RESOURCES) s
  (bad.filter (·.step)).foldl (fun s j => stepBoundary s j.fn j.prog) s

/-- Turns enough for any pass that returns: each selection is preceded by at most as many rounds as a deficit needs to grow from its
least to its largest value, and a round has one turn for each function with a queued job. A pass in which every deficit is at its largest
value and still below its charge never returns in R141's words: it ends here (log entry 100). -/
def passFuel (s : State) : Nat := (s.tt.jobs.length + 1) * ((s.tt.jobs.length + 2) * 16777218)

/-- A selection pass (R143): written values of the block take effect first (5.7 Registers); the jobs left queued have seen a
pass go by (R153). -/
def selectionPass (s : State) : State :=
  let s := { s with tt := { s.tt with passDue := false } }
  let n := standby s
  let s := applyRwb s inTT
  let s := if standby s = n then s else standbyRefusals s
  let before := (s.tt.jobs.filter (·.holds)).length
  let s := passLoop (passFuel s) s
  let after := (s.tt.jobs.filter (·.holds)).length
  let s := { s with tt := { s.tt with jobs := s.tt.jobs.map (fun j => if j.holds then j else { j with passed := true }) } }
  traceEv s 15 1 0xFF none false (bytesLE 1 (after - before))

/-- The pass that follows jobs ended by a fault or a reset, if it has not run yet (R143, R532). -/
def duePass (s : State) : State := if s.tt.passDue then selectionPass s else s

/-! ### Job entry (R130, R134) -/

/-- Jobs of a submitted class that a function has queued or running; each step counts as one (R130). -/
def classCount (s : State) (f c : Nat) : Nat :=
  (s.tt.jobs.map (fun j =>
    if j.fn != f then 0
    else if j.step then (j.elems.filter (fun e => e.sub == c)).length
    else if j.submitted == c then 1 else 0)).sum +
  (s.tt.steps.filter (fun w => w.fn == f && w.elem.sub == c)).length

/-- The entry tests of Table 5.3. `extra` is what R133 adds for a STEP_JOIN. -/
def entryTest (s : State) (f c clusters deadline extra : Nat) : Option Nat :=
  let lim := fld (getFn s f).quota.classLimit (8 * c + 7) (8 * c)
  if lim = 0 || (lim != 255 && decide (lim ≤ classCount s f c)) then some St.REFUSED_RESERVATION
  else if deadline != 0 && decide (deadline < estimate s c clusters + extra) then some St.REFUSED_DEADLINE
  else if c != 0 && decide (16 - standby s < clusters) then some St.REFUSED_RESOURCES
  else none

/-- A refusal at entry of one packet (R134). -/
def refuseEntry (s : State) (f : Nat) (p : Packet) (status : Nat) : State :=
  let s := bump s (C.FN f (0x1030 + 0x18 * p.cls))
  let s := traceEv s 9 1 f (some p.tag) false (bytesLE 1 p.cls ++ bytesLE 2 (p.bits 4 11 0) ++ bytesLE 2 status)
  refusePkt s f p.pos status false

/-- Job check 3: the bindings against the program's declarations (4.5.2). -/
def bindingsOk (g : Prog) (bs : List Binding) : Bool :=
  bs.length == g.operands.length &&
  (bs.map (·.index)).Nodup &&
  bs.all (fun b => g.operands.any (fun o => o.index == b.index && o.output == b.output && decide (o.minLen ≤ b.len)))

/-- Bytes of a binding's extent: n elements where it is per element. -/
def Binding.extent (b : Binding) (n : Nat) : Nat := if b.perElem then b.len * n else b.len

/-- Job check 7: every operand extent is pinned. -/
def bindingsPinned (s : State) (f n : Nat) (bs : List Binding) : Bool :=
  bs.all (fun b => pinned s f b.addr (b.extent n) b.output)

/-- The job checks 1 to 7, in order (4.5.2): the status of the first that fails. Status 0x0201 is check 6. -/
def jobChecks (s : State) (f : Nat) (p : Packet) : Option Nat :=
  let bs := bindingsOf p
  let n := if p.opcode = 0x13 then p.bits 8 22 16 else 1
  match usableProg s f p (p.bits 4 11 0) with
  | none => some St.BAD_PARAM
  | some g =>
    if (getFn s f).quota.budgetCap < p.bits 5 23 0 then some St.BAD_PARAM
    else if !bindingsOk g bs then some St.BAD_PARAM
    else if p.opcode = 0x13 && (n == 0 || decide (g.runBatch < n) || bs.any (fun b => b.perElem && b.len % 256 != 0)) then
      some St.BAD_PARAM
    else if p.opcode = 0x14 && decide (g.seqSlots ≤ p.bits 9 9 0) then some St.BAD_PARAM
    else if p.opcode = 0x14 && decide (4 ≤ (Tab.get Seq.reset g.seqs (p.bits 9 9 0)).steps.length) then
      some St.REFUSED_RESOURCES
    else if !bindingsPinned s f n bs then some St.UNPINNED_OPERAND
    else none

/-- The TLB's part in the pinned check of a job's operands: the check looks every page up, after one that fails too (log entry 104). -/
def touchBinds (s : State) (f n : Nat) (bs : List Binding) : State :=
  bs.foldl (fun s b => touchPages s f b.addr (b.extent n)) s

/-- Refuse a job packet with the status of a failed check; check 6 counts as a refusal of its class (Table 5.4), and check 7 has
looked the operands' pages up. -/
def refuseCheck (s : State) (f : Nat) (p : Packet) (st : Nat) : State :=
  if st = St.REFUSED_RESOURCES then refuseEntry s f p st
  else if st = St.UNPINNED_OPERAND then
    refusePkt (touchBinds s f (if p.opcode = 0x13 then p.bits 8 22 16 else 1) (bindingsOf p)) f p.pos st true
  else refusePkt s f p.pos st true

/-- Budget of a job (R146). -/
def jobBudget (s : State) (f : Nat) (p : Packet) : Nat :=
  if p.bits 5 23 0 = 0 then (getFn s f).quota.budgetCap else p.bits 5 23 0

/-- One element of a job. -/
def mkElem (s : State) (p : Packet) (idx : Nat) : Elem :=
  { pos := p.pos, idx := idx, binds := bindingsOf p, seed := (p.dw 7).toNat, prov := p.fProv, preds := [], stages := []
    sub := p.cls, tEntry := fineNow s, deadline := p.bits 6 23 0, passed := false, sat := false }

/-- RUN_JOB and RUN_BATCH: job checks, entry tests, and the job's place in the queue. -/
def dispJob (s : State) (f : Nat) (p : Packet) : State :=
  match jobChecks s f p with
  | some st => refuseCheck s f p st
  | none =>
    match getProg s f (p.bits 4 11 0) with
    | none => s
    | some g =>
      let n := if p.opcode = 0x13 then p.bits 8 22 16 else 1
      let s := touchBinds s f n (bindingsOf p)
      match entryTest s f p.cls g.c (p.bits 6 23 0) 0 with
      | some st => refuseEntry s f p st
      | none =>
        let now := fineNow s
        let j : Job :=
          { fn := f, prog := g.id, order := s.tt.nextOrder, step := false, batch := p.opcode == 0x13
            elems := (List.range n).map (mkElem s p), submitted := p.cls, cls := p.cls, startCls := p.cls
            budget := jobBudget s f p, deadline := p.bits 6 23 0, tEntry := now, tPromo := now, passed := false, charge := 0
            regionBind := regionBanks g, selected := false, running := false, tStart := 0, clusters := [], stages := [], owner := [], cut := none }
        let s' := powerNote s { s with tt := { s.tt with jobs := s.tt.jobs ++ [j], nextOrder := s.tt.nextOrder + 1 } }
        selectionPass (traceEv s' 8 1 f (some p.tag) false (bytesLE 1 p.cls ++ bytesLE 2 g.id))

/-- RUN_JOB. -/
def execPktRunJob (f pos : Nat) (s : State) : Out := .next (dispatchAs s f pos 0x12 dispJob)

/-- RUN_BATCH. -/
def execPktRunBatch (f pos : Nat) (s : State) : Out := .next (dispatchAs s f pos 0x13 dispJob)

/-! ### Steps (R120, R149 to R151) -/

/-- STEP_JOIN: one step for its sequence, which joins if it has not (R120). -/
def dispStep (s : State) (f : Nat) (p : Packet) : State :=
  match jobChecks s f p with
  | some st => refuseCheck s f p st
  | none =>
    match getProg s f (p.bits 4 11 0) with
    | none => s
    | some g =>
      let slot := p.bits 9 9 0
      let s := touchBinds s f 1 (bindingsOf p)
      let q := Tab.get Seq.reset g.seqs slot
      match entryTest s f p.cls g.c (p.bits 6 23 0) (q.steps.length * g.tLast) with
      | some st => refuseEntry s f p st
      | none =>
        let now := fineNow s
        let w : StepWait :=
          { fn := f, prog := g.id, slot := slot, pos := p.pos, order := s.tt.nextOrder, cls := p.cls
            budget := jobBudget s f p, tEntry := now, tPromo := now, elem := mkElem s p slot }
        let s := powerNote s { s with tt := { s.tt with steps := s.tt.steps ++ [w], nextOrder := s.tt.nextOrder + 1 } }
        let q' : Seq := { q with joined := true, steps := q.steps ++ [p.pos] }
        let s := modProg s f g.id (fun g => { g with seqs := Tab.set Seq.reset g.seqs slot q' })
        let s := traceEv s 8 1 f (some p.tag) false (bytesLE 1 p.cls ++ bytesLE 2 g.id)
        selectionPass (stepBoundary s f g.id)

/-- STEP_JOIN. -/
def execPktStepJoin (f pos : Nat) (s : State) : Out := .next (dispatchAs s f pos 0x14 dispStep)

/-- STEP_LEAVE: refused where the program is not loaded or the sequence is not joined; `settleFn` ends it after the earlier
steps (R151). -/
def dispLeave (s : State) (f : Nat) (p : Packet) : State :=
  match usableProg s f p (p.bits 4 11 0) with
  | none => refusePkt s f p.pos St.BAD_PARAM true
  | some g =>
    let q := Tab.get Seq.reset g.seqs (p.bits 5 9 0)
    if !q.joined || q.leaving.isSome then refusePkt s f p.pos St.BAD_PARAM true
    else
      let q' : Seq := { q with leaving := some p.pos }
      modProg s f g.id (fun g => { g with seqs := Tab.set Seq.reset g.seqs (p.bits 5 9 0) q' })

/-- STEP_LEAVE. -/
def execPktStepLeave (f pos : Nat) (s : State) : Out := .next (settleFn (dispatchAs s f pos 0x15 dispLeave) f)

/-- UNLOAD_PROGRAM: refused where the program is not loaded; `settleFn` ends it once every earlier packet that names the
program is complete (R119). -/
def dispUnload (s : State) (f : Nat) (p : Packet) : State :=
  match usableProg s f p (p.bits 4 11 0) with
  | none => refusePkt s f p.pos St.BAD_PARAM true
  | some _ => s

/-- UNLOAD_PROGRAM. -/
def execPktUnloadProgram (f pos : Nat) (s : State) : Out := .next (settleFn (dispatchAs s f pos 0x11 dispUnload) f)

/-! ### Start of a job (R165, R166, Table 6.5) -/

/-- An operator may write the state area (R254): an output reference or output short reference has `KIND` 5, or a SHADER
operator has `SCR_WR` 1. -/
def opWritesState (w : List W32) : Bool :=
  let fl (i hi lo : Nat) : Nat := fld ((w[i]?).getD 0) hi lo
  let fam := fl 0 7 0
  fl 16 2 0 == 5 || fl 9 2 0 == 5 || (fam == 0x15 && fl 58 2 0 == 5) ||
  (fam == 0x20 && (fl 14 17 17 == 1 || (fl 14 16 16 == 1 && fl 52 2 0 == 5)))

/-- Resident extents (R254): address, length, written. -/
def residentExtents (g : Prog) : List (Nat × Nat × Bool) :=
  g.residents.map (fun r => (r.1, r.2, false)) ++
  g.regions.map (fun r => (r.bank, 2 * r.size, false)) ++
  (if g.seqSlots = 0 then [] else [(g.stateAddr, g.seqSlots * g.stateBytes, g.ops.any opWritesState)])

/-- Every extent checked at a job's start: program image, resident extents, bindings. -/
def startExtents (g : Prog) (j : Job) : List (Nat × Nat × Bool) :=
  (g.imgAddr, g.imgLen, false) :: residentExtents g ++
  (if j.step then (j.elems.map (fun e => e.binds.map (fun b => (b.addr, b.len, b.output)))).flatten
   else match j.elems with
     | [] => []
     | e :: _ => e.binds.map (fun b => (b.addr, b.extent j.n, b.output)))

/-- The pinned check of a list of extents. -/
def extentsPinned (s : State) (f : Nat) (l : List (Nat × Nat × Bool)) : Bool := l.all (fun x => pinned s f x.1 x.2.1 x.2.2)

/-- RW-B registers of the clusters a job starts on take effect (Table 10.11). -/
def clusterBoundary (s : State) (cl : List Nat) : State := applyRwb s (fun k => cl.any (fun n => k == 0x600000 + 0x10000 * n))

/-- A selected job whose clusters are powered starts, or is refused (R165, R166). -/
def jobStart (s : State) (j : Job) : State :=
  match getProg s j.fn j.prog with
  | none => s
  | some g =>
    let ext := startExtents g j
    let ok := extentsPinned s j.fn ext
    let s := ext.foldl (fun s x => touchPages s j.fn x.1 x.2.1) s
    if !ok then selectionPass (stepBoundary (refuseJob s j St.UNPINNED_OPERAND) j.fn j.prog)
    else
      let now := fineNow s
      let s := clusterBoundary s j.clusters
      let s := movePoints s (modJob s j (fun k => { k with running := true, tStart := now }))
      let late (t d : Nat) : Bool := d != 0 && decide (t + 100 * d < now)
      let s := if j.step then
          j.elems.foldl (fun s e =>
            let s := bump s (C.FN j.fn ((if e.passed then 0x1028 else 0x1020) + 0x18 * e.sub))
            let s := if late e.tEntry e.deadline then bump32 s R.TT_LATE_COUNT else s
            startPkt s j.fn e.pos) s
        else
          let s := bump s (C.FN j.fn ((if j.passed then 0x1028 else 0x1020) + 0x18 * j.submitted))
          let s := if late j.tEntry j.deadline then bump32 s R.TT_LATE_COUNT else s
          j.elems.foldl (fun s e => startPkt s j.fn e.pos) s
      let s := if !j.step then s
        else { s with tt := { s.tt with steps := s.tt.steps.map (fun w =>
          if w.fn = j.fn ∧ w.prog = j.prog then { w with elem := { w.elem with passed := true } } else w) } }
      let mask := (j.clusters.map (fun n => 2 ^ n)).sum
      traceEv s 10 1 j.fn none false (bytesLE 2 mask ++ bytesLE 4 (min top32 (now - j.tEntry)))

/-- CLUSTER_START: a starting cluster is powered, once the rail allows its target point (R507); so is a stopped one that Timetable holds
ready as a standby cluster, only while N or fewer clusters are free (R138). -/
def execClusterStart (n : Nat) (s : State) : Out :=
  .next (if 16 ≤ n then s
    else
      let idleFree := ((freeClusters s).filter (fun m => clusterSt s m == .idle)).length
      if (clusterSt s n == .starting && railReady s n) || (clusterSt s n == .stopped && decide (idleFree < standby s) && decide ((freeClusters s).length ≤ standby s)) then
        traceEv (setCluster s n .idle) 27 1 0xFF none false (bytesLE 1 n ++ [1])
      else s)

/-- CLUSTER_STOP: a free idle cluster stops, unless the standby count keeps it (R138, R506). -/
def execClusterStop (n : Nat) (s : State) : Out :=
  .next (if n < 16 && !clusterBusy s n && clusterSt s n == .idle && decide (standby s < (freeClusters s).length) then
    traceEv (setCluster s n .stopped) 27 1 0xFF none false (bytesLE 1 n ++ [0])
  else s)

/-! ### End of a job (R132, R142, R292) -/

/-- Stage-elements of an element that ended in given ways. -/
def countEnd (e : Elem) (l : List SeEnd) : Nat := (e.stages.filter (fun x => l.contains x.2.ending)).length

/-- RESULT of the stage-elements of some elements (R292). -/
def stageResult (es : List Elem) : Nat :=
  (es.map (fun e => countEnd e [.inked, .ran])).sum % 65536 + (es.map (fun e => countEnd e [.erased, .skipped])).sum % 65536 * 65536

/-- Status of elements that ended well (R250). -/
def elemStatus (es : List Elem) : Nat := if es.any (·.sat) then St.DONE_SATURATED else St.DONE

/-- A step of a sequence has been reported on: it leaves the pending list and counts as run (R120). -/
def stepDone (s : State) (f id : Nat) (e : Elem) : State :=
  modProg s f id (fun p => { p with seqs := Tab.modify Seq.reset p.seqs e.idx (fun q =>
    { q with steps := q.steps.filter (fun x => x != e.pos), run := q.run + 1 }) })

/-- Finish every packet of a job. `st` overrides the status of the elements. -/
def finishJob (s : State) (j : Job) (st : Option Nat) : State :=
  if j.step then
    j.elems.foldl (fun s e =>
      let num := ((getProg s j.fn j.prog).map (fun p => (Tab.get Seq.reset p.seqs e.idx).run + 1)).getD 0
      let s := finishPkt s j.fn e.pos (st.getD (elemStatus [e])) num
      stepDone s j.fn j.prog e) s
  else match j.elems with
    | [] => s
    | e :: _ => finishPkt s j.fn e.pos (st.getD (elemStatus j.elems)) (stageResult j.elems)

/-- A job leaves its clusters: its packets finish, its accounts are made, the next step job forms and a pass follows (R142,
R143, R149). -/
def endJob (s : State) (j0 : Job) (st : Option Nat) : State :=
  let j := sameJob s j0
  let s := traceEv s 11 1 j.fn none false (bytesLE 4 0 ++ bytesLE 2 (st.getD (elemStatus j.elems)))
  let s := j.clusters.foldl (fun s n => dropFetched s n j.fn) s
  let s := jobAccounts (finishJob s j st) j
  powerNote s (selectionPass (promoteRegions (stepBoundary (settleFn (dropJob s j) j.fn) j.fn j.prog)))

/-- Remote writes of a job that no peer has acknowledged yet (R92). -/
def remotePending (s : State) (j : Job) : Bool :=
  s.link.reqs.any (fun r => r.owner == .job && r.fn == j.fn && j.elems.any (fun e => e.pos == r.pos))

/-- Every stage of a job has ended (R292). -/
def stagesEnded (s : State) (j : Job) : Bool :=
  match getProg s j.fn j.prog with
  | none => false
  | some g => (List.range g.stages.length).all (fun i => (Tab.get StageRun.reset j.stages i).phase == .ended)

/-- JOB_END: every stage has ended, or the job has been ended before them, and every peer has acknowledged its writes. -/
def execJobEnd (f pos : Nat) (s : State) : Out :=
  .next (match getJob s f pos with
    | some j => if j.running && (j.cut.isSome || stagesEnded s j) && !remotePending s j then endJob s j j.cut else s
    | none => s)

/-! ### Ageing and budgets (R144, R147, R293) -/

/-- Promotion of a waiting job or step: its class and whether it is promoted. -/
def aged (s : State) (now cls tEntry tPromo : Nat) : Option Nat :=
  let a3 := ff s R.TT_AGE_3 F.TT_AGE_3.WAIT
  let a2 := ff s R.TT_AGE_2 F.TT_AGE_2.WAIT
  if cls = 3 && a3 != 0 && decide (tEntry + 100 * a3 ≤ now) then some 2
  else if cls = 2 && a2 != 0 && decide (tPromo + 100 * a2 ≤ now) then some 1
  else none

/-- AGEING_STEP: promotions, then a pass (R143, R144). -/
def execAgeingStep (s : State) : Out :=
  let now := fineNow s
  let promoted := s.tt.jobs.filter (fun j => !j.holds && (aged s now j.cls j.tEntry j.tPromo).isSome)
  let s' := promoted.foldl (fun s j => traceEv s 12 1 j.fn none false
    (bytesLE 1 (j.cls - 1) ++ bytesLE 4 ((j.elems.head?.map (·.pos)).getD 0))) s
  .next (selectionPass { s' with tt := { s'.tt with
    jobs := s.tt.jobs.map (fun j => if j.holds then j else match aged s now j.cls j.tEntry j.tPromo with
      | some c => { j with cls := c, tPromo := now }
      | none => j)
    steps := s.tt.steps.map (fun w => match aged s now w.cls w.tEntry w.tPromo with
      | some c => { w with cls := c, tPromo := now }
      | none => w) } })

/-- The lowest-indexed stage that has not ended is provisional, and its predicate is unresolved in some element (R293). -/
def stuckOnPredicate (s : State) (j : Job) : Bool :=
  match getProg s j.fn j.prog with
  | none => false
  | some g =>
    match (List.range g.stages.length).find? (fun i => (Tab.get StageRun.reset j.stages i).phase != .ended) with
    | none => false
    | some i =>
      match g.stages[i]? with
      | none => false
      | some d => d.prov && j.elems.any (fun e => (Tab.get none e.preds d.predicate).isNone)

/-- A job is ended before its stages: all its work stops and its granules are free; it leaves its clusters at once, or, with WR_ACKs
outstanding, at JOB_END (R405). -/
def overJob (s : State) (j : Job) (st : Nat) : State :=
  let s := dropShader (eraseJobPencil s j st) (fun g q _ _ => g == j.fn && j.elems.any (fun e => e.pos == q))
  let s := modJob s j (fun k => { k with
    cut := some st
    stages := k.stages.map (fun r => (r.1, { r.2 with phase := .ended, clusters := [], granules := [], claimWaiting := false })) })
  if remotePending s j then s else endJob s j (some st)

/-- BUDGET_EXPIRY: PENCIL_UNRESOLVED under R293, else a function-scope fault (R147). -/
def execBudgetExpiry (f pos : Nat) (s : State) : Out :=
  .next (match getJob s f pos with
    | some j =>
      if !j.live then s
      else if stuckOnPredicate s j then overJob s j St.PENCIL_UNRESOLVED
      else functionFault s f St.BUDGET_EXCEEDED pos
    | none => s)

/-! ### QUOTA_SET (Table 4.15, R126) -/

/-- The sum of shares if a function took a new one. -/
def shareSum (s : State) (f share : Nat) : Nat :=
  share + ((List.range 128).map (fun k => if k = f then 0 else shareOf s k)).sum

/-- QUOTA_SET. -/
def dispQuota (s : State) (f : Nat) (p : Packet) : State :=
  let g := p.bits 4 6 0
  let v (i : Nat) : Nat := (p.dw i).toNat
  if decide (s.vfs < g) || decide (16 < p.bits 5 4 0) || decide (16384 < v 6) || decide (16384 < v 7) || decide (16384 < v 8) ||
      decide (64 < p.bits 10 6 0) || p.bits 11 23 0 == 0 || decide (64 < shareSum s g (p.bits 10 6 0)) then
    refusePkt s f p.pos St.BAD_PARAM true
  else
    let s := modFn s g (fun x => { x with quota :=
      { clusters := p.bits 5 4 0, slate := v 6, scratch := v 7, pencil := v 8, classLimit := p.dw 9, share := p.bits 10 6 0
        budgetCap := p.bits 11 23 0 } })
    let s := if p.bits 10 6 0 = 0 then (List.range 4).foldl (fun s c => setDeficit s c g 0) s else s
    selectionPass (finishPkt s f p.pos St.DONE 0)

/-- QUOTA_SET. -/
def execPktQuotaSet (f pos : Nat) (s : State) : Out := .next (dispatchAs s f pos 0x72 dispQuota)

end Sys2Proof.Machine
end

