-- ==== Sys2Proof/Machine/Image.lean ====
section
/-! DEFINITION. Program images: the header and tables of 10.1, tensor references of 10.2, operator descriptors of 10.3, the
stage table of 11.1, with every load check of chapters 9 to 12 but the shader section's. -/

namespace Sys2Proof.Machine

/-! ### Words -/

/-- A word of a list, 0 beyond its end, and a field of it. -/
def wd (w : List W32) (i : Nat) : Nat := ((w[i]?).getD 0).toNat
def wf (w : List W32) (i hi lo : Nat) : Nat := nbits (wd w i) hi lo

/-- Whether a word sets a bit outside a mask. -/
def stray (w : List W32) (i mask : Nat) : Bool := strayBits ((w[i]?).getD 0) mask

/-- n words from word i on. -/
def slice (w : List W32) (i n : Nat) : List W32 := (w.drop i).take n

/-- Doublewords of little-endian bytes. -/
def wordsOf : Nat → List Byte → List W32
  | 0, _ => []
  | n + 1, bs => BitVec.ofNat 32 (ofBytesLE (bs.take 4)) :: wordsOf n (bs.drop 4)

/-! ### Tensor references (Table 10.5) and short references -/

/-- A tensor reference. -/
structure TRef where
  kind : Nat
  index : Nat
  fmt : Nat
  off : Nat
  d0 : Nat
  d1 : Nat
  d2 : Nat
  d3 : Nat
  s1 : Nat
  s2 : Nat
  s3 : Nat
  scale : Nat
  deriving DecidableEq, Repr

/-- The tensor reference at word i of a descriptor. -/
def tref (w : List W32) (i : Nat) : TRef :=
  { kind := wf w i 2 0, index := wf w i 15 8, fmt := wf w i 19 16, off := wd w (i + 1) + wf w (i + 2) 15 0 * 2 ^ 32
    d0 := wf w (i + 3) 15 0, d1 := wf w (i + 3) 31 16, d2 := wf w (i + 4) 15 0, d3 := wf w (i + 4) 31 16
    s1 := wd w (i + 5), s2 := wd w (i + 6), s3 := wd w (i + 7), scale := wd w (i + 8) + wf w (i + 9) 15 0 * 2 ^ 32 }

/-- A short reference. -/
structure SRef where
  kind : Nat
  index : Nat
  off : Nat
  deriving DecidableEq, Repr

/-- The short reference at word i. -/
def sref (w : List W32) (i : Nat) : SRef := ⟨wf w i 2 0, wf w i 15 8, wd w (i + 1) + wf w i 31 16 * 2 ^ 32⟩

def TRef.present (r : TRef) : Bool := r.kind != 0
def SRef.present (r : SRef) : Bool := r.kind != 0

/-- Bytes of a row of DIM_0 elements. -/
def TRef.rowBytes (r : TRef) : Nat := ceilDiv (r.d0 * codeBits r.fmt) 8

/-- Bytes of the scale array (R255). -/
def TRef.scaleBytes (r : TRef) : Nat := if r.fmt = 9 then r.d3 * r.d2 * r.d1 * ceilDiv r.d0 32 else 0

/-- Byte offset of the row (d3, d2, d1). -/
def TRef.rowOff (r : TRef) (i3 i2 i1 : Nat) : Nat := r.off + i3 * r.s3 + i2 * r.s2 + i1 * r.s1

/-- Bytes from the first element to the last byte of the last (R257). -/
def TRef.span (r : TRef) : Nat := (r.d3 - 1) * r.s3 + (r.d2 - 1) * r.s2 + (r.d1 - 1) * r.s1 + r.rowBytes

/-- The intervals of a reference's extent: offset and length (R257). -/
def TRef.extent (r : TRef) : List (Nat × Nat) :=
  (r.off, r.span) :: (if r.fmt = 9 then [(r.scale, r.scaleBytes)] else [])

/-- An extent in its space: kind, index and intervals. -/
structure Extent where
  kind : Nat
  index : Nat
  parts : List (Nat × Nat)
  deriving DecidableEq, Repr

def TRef.ext (r : TRef) : Extent := ⟨r.kind, r.index, r.extent⟩
def SRef.ext (r : SRef) (n : Nat) : Extent := ⟨r.kind, r.index, [(r.off, n)]⟩

/-- Extents overlap: same space, and two intervals that share a byte (11.1). Scratch and state are one space each, whatever a short
reference's `INDEX`. -/
def Extent.overlaps (a b : Extent) : Bool :=
  a.kind == b.kind && (a.index == b.index || decide (4 ≤ a.kind)) &&
  a.parts.any (fun x => b.parts.any (fun y => decide (x.1 < y.1 + y.2) && decide (y.1 < x.1 + x.2)))

/-- Bytes a named space holds; none where the index is undeclared (R257). -/
def spaceLimit (g : Prog) (kind index : Nat) : Option Nat :=
  match kind with
  | 1 => (g.operands.find? (fun o => o.index == index)).map (·.minLen)
  | 2 => (g.residents[index]?).map (·.2)
  | 3 => (g.regions.find? (fun r => r.region == index)).map (·.size)
  | 4 => some (g.scratch * 1024)
  | 5 => if g.seqSlots = 0 then none else some g.stateBytes
  | _ => none

/-- Every interval lies within the space's limit. -/
def Extent.fits (g : Prog) (x : Extent) : Bool :=
  match spaceLimit g x.kind x.index with
  | none => false
  | some n => x.parts.all (fun p => decide (p.1 + p.2 ≤ n))

/-- The output rule for `KIND` and `OUTPUT` (R257). -/
def outputOk (g : Prog) (kind index : Nat) : Bool :=
  kind != 2 && kind != 3 && (kind != 1 || g.operands.any (fun o => o.index == index && o.output))

/-- A present tensor reference is well formed (R231, R236, R257, R258). -/
def trefOk (g : Prog) (w : List W32) (i : Nat) (out : Bool) : Bool :=
  let r := tref w i
  !stray w i 0x000FFF07 && !stray w (i + 2) 0xFFFF && !stray w (i + 9) 0xFFFF && !stray w (i + 10) 0 && !stray w (i + 11) 0 &&
  decide (r.kind ≤ 5) && (decide (r.kind ≤ 3) || r.index == 0) && decide (r.fmt ≤ 10) &&
  decide (1 ≤ r.d0) && decide (1 ≤ r.d1) && decide (1 ≤ r.d2) && decide (1 ≤ r.d3) &&
  (r.s1 % 16 == 0 && r.s2 % 16 == 0 && r.s3 % 16 == 0) &&
  (r.fmt == 9 || r.scale == 0) && (r.fmt != 9 || r.d0 % 32 == 0) && (codeBits r.fmt != 4 || r.d0 % 2 == 0) &&
  (decide (codeBits r.fmt ≤ 8) || r.off % (codeBits r.fmt / 8) == 0) &&
  r.ext.fits g &&
  (!out || (outputOk g r.kind r.index && decide (r.rowBytes ≤ r.s1) && decide (r.d1 * r.s1 ≤ r.s2) && decide (r.d2 * r.s2 ≤ r.s3)))

/-- An absent tensor reference: every word 0. -/
def trefAbsent (w : List W32) (i : Nat) : Bool := (slice w i 12).all (· == 0)

/-- A short reference that names n bytes is well formed (R593). -/
def srefOk (g : Prog) (w : List W32) (i n align : Nat) (out : Bool) : Bool :=
  let r := sref w i
  !stray w i 0xFFFFFF07 && decide (1 ≤ r.kind) && decide (r.kind ≤ 5) && r.off % align == 0 && (r.ext n).fits g &&
  (!out || outputOk g r.kind r.index)

/-- An absent short reference. -/
def srefAbsent (w : List W32) (i : Nat) : Bool := wd w i == 0 && wd w (i + 1) == 0

/-- A short reference that an enable governs: present exactly when it is 1 (R258). -/
def srefEn (g : Prog) (w : List W32) (i n align : Nat) (out en : Bool) : Bool :=
  if en then srefOk g w i n align out else srefAbsent w i

/-! ### Operator descriptors (Tables 10.6 to 10.8) -/

def opFamily (w : List W32) : Nat := wf w 0 7 0
def opStage (w : List W32) : Nat := wf w 0 13 8
def opMode (w : List W32) : Nat := wf w 1 1 0
def opChunk (w : List W32) : Nat := wf w 1 3 2
def opAct (w : List W32) : Nat := wf w 1 6 4
def opBiasEn (w : List W32) : Bool := wf w 1 8 8 == 1
def opScaleEn (w : List W32) : Bool := wf w 1 9 9 == 1
def opMapEn (w : List W32) : Bool := wf w 1 10 10 == 1

/-- Families of the tensor array. -/
def famArray (fam : Nat) : Bool := [0x01, 0x02, 0x03].contains fam

/-- Every family of Table 10.7. -/
def famKnown (fam : Nat) : Bool := [0x01, 0x02, 0x03, 0x10, 0x11, 0x12, 0x13, 0x14, 0x15, 0x20].contains fam

/-- Formats that hold integers. -/
def fmtInt (c : Nat) : Bool := [0, 1, 2, 3, 10].contains c

/-- Bits of words W0 to W15 and W52 to W63 that a family gives a field; references are checked apart (R258). -/
def famMask (fam i : Nat) : Nat :=
  match i with
  | 0 => 0x3FFF
  | 1 => (if famArray fam then 0xF else 0) + (if fam = 0x15 ∨ fam = 0x20 then 0x400 else 0x770)
  | 2 => if fam = 0x15 ∨ fam = 0x20 then 0 else mAll
  | 3 => if fam = 0x15 ∨ fam = 0x20 then 0 else mAll
  | 4 => if fam = 0x20 then 0 else 0xFFFF
  | 11 => if fam = 0x03 then mAll else if fam = 0x20 then 0x7FFF else 0
  | 12 => if fam = 0x03 then 3 else if fam = 0x20 then mAll else 0
  | 13 => if fam = 0x03 then mAll else if fam = 0x20 then 0x1FFFFFF else 0
  | 14 => if fam = 0x03 then mAll else if fam = 0x20 then 0x301FF else 0
  | 15 => if fam = 0x20 then mAll else 0
  | 52 =>
    match fam with
    | 0x01 => 0xFFFFFF
    | 0x10 => 0xFFFFFF
    | 0x11 => 0xFF
    | 0x12 => 0xF0F
    | 0x13 => 3
    | 0x14 => 0xF
    | 0x15 => mAll
    | _ => 0
  | 53 =>
    match fam with
    | 0x01 => mAll
    | 0x10 => 0xFFFF
    | 0x11 => mAll
    | 0x14 => mAll
    | 0x15 => mAll
    | _ => 0
  | 54 =>
    match fam with
    | 0x01 => 0xFFFF
    | 0x10 => 0x70000
    | 0x11 => mAll
    | 0x14 => mAll
    | 0x15 => 0x1FFF
    | _ => 0
  | 55 => if fam = 0x14 then mAll else if fam = 0x15 then 1 else 0
  | 56 => if fam = 0x15 then mAll else 0
  | 57 => if fam = 0x15 then mAll else 0
  | 58 => if fam = 0x15 then mAll else 0
  | 59 => if fam = 0x15 then mAll else 0
  | _ => 0

/-- Words W5 to W10 hold short references, W16 to W51 references, and W52 to W63 a fourth one in two families. -/
def famChecked (fam i : Nat) : Bool :=
  decide (i < 5) || (decide (11 ≤ i) && decide (i < 16)) || (decide (52 ≤ i) && fam != 0x03 && fam != 0x20)

/-- No bit is set that the tables do not give to the family. -/
def famClean (w : List W32) : Bool :=
  (List.range 64).all (fun i => !famChecked (opFamily w) i || !stray w i (famMask (opFamily w) i))

/-- The window of CONV and POOL (Table 10.8). -/
structure Window where
  kh : Nat
  kw : Nat
  sh : Nat
  sw : Nat
  dh : Nat
  dw : Nat
  pt : Nat
  pb : Nat
  pl : Nat
  pr : Nat
  deriving DecidableEq, Repr

/-- The window an operator's words give. -/
def window (w : List W32) : Window :=
  ⟨wf w 52 3 0, wf w 52 7 4, wf w 52 11 8, wf w 52 15 12, wf w 52 19 16, wf w 52 23 20, wf w 53 3 0, wf w 53 7 4, wf w 53 11 8,
   wf w 53 15 12⟩

/-- Output size of one dimension (10.4.1). -/
def outDim (n pa pb d k st : Nat) : Int := ((n : Int) + pa + pb - d * ((k : Int) - 1) - 1).fdiv st + 1

/-- Ranges of a window. -/
def windowOk (x : Window) : Bool :=
  decide (1 ≤ x.kh) && decide (1 ≤ x.kw) && decide (1 ≤ x.sh) && decide (x.sh ≤ 8) && decide (1 ≤ x.sw) && decide (x.sw ≤ 8) &&
  decide (1 ≤ x.dh) && decide (x.dh ≤ 8) && decide (1 ≤ x.dw) && decide (x.dw ≤ 8)

/-- The output plane of a window over an input plane equals that of `REF_0`. -/
def planeOk (x : Window) (i o : TRef) : Bool :=
  outDim i.d2 x.pt x.pb x.dh x.kh x.sh == (o.d2 : Int) && outDim i.d1 x.pl x.pr x.dw x.kw x.sw == (o.d1 : Int)

/-- Accumulation modes that an operand pair allows (Table 9.4). -/
def pairModes (a b : Nat) : List Nat :=
  let fl (c : Nat) : Bool := decide (4 ≤ c) && decide (c ≤ 7)
  if a ≤ 3 ∧ b ≤ 3 then [0]
  else if a = 9 ∧ b = 9 then [1, 2, 3]
  else if fl a && fl b then [1, 2, 3]
  else []

/-- Mode and chunk are allowed for an operand pair (R238, Table 9.5). -/
def modeOk (w : List W32) (a b : Nat) : Bool :=
  (pairModes a b).contains (opMode w) && (opMode w == 1 || opChunk w == 0)

/-- Groups of a CONV. -/
def convG (w : List W32) : Nat := wf w 53 31 16

/-- Output columns: entries of `BIAS` and `SCALE`. -/
def opColumns (w : List W32) : Nat := (tref w 16).d0

/-- N of one tensor-array product. -/
def opN (w : List W32) : Nat :=
  match opFamily w with
  | 0x01 => (tref w 16).d0 / max 1 (convG w)
  | _ => (tref w 16).d0

/-- Rows of M of one tensor-array product. -/
def opM (w : List W32) : Nat :=
  match opFamily w with
  | 0x01 => (tref w 16).d3 * (tref w 16).d2 * (tref w 16).d1
  | _ => (tref w 16).d1

/-- TM and TN of an operator (R268). -/
def opTM (w : List W32) : Nat :=
  match opFamily w with
  | 0x01 => ceilDiv (opM w) 128
  | 0x02 => ceilDiv (opM w) 128 * (tref w 16).d2
  | 0x03 => ceilDiv (opM w) 128 * (tref w 16).d2
  | _ => 1
def opTN (w : List W32) : Nat :=
  match opFamily w with
  | 0x01 => convG w * ceilDiv (opN w) 128
  | 0x02 => ceilDiv (opN w) 128
  | 0x03 => ceilDiv (opN w) 128
  | _ => 1

/-- Elements of a status map: B_run, or Q (R270). -/
def mapElems (g : Prog) : Nat := if g.seqSlots = 0 then g.runBatch else g.seqSlots

/-- Bytes of an operator's status map. -/
def mapBytes (g : Prog) (w : List W32) : Nat := mapElems g * opTM w * opTN w

/-- Output references of an operator, by word. -/
def outWords (w : List W32) : List Nat := if opFamily w = 0x20 ∧ wf w 14 16 16 = 1 then [16, 52] else [16]

/-- Input references of an operator, by word. -/
def inWords (w : List W32) : List Nat :=
  match opFamily w with
  | 0x03 => [28, 40, 52]
  | 0x20 => if wf w 14 16 16 = 1 then [28, 40] else [28, 40, 52]
  | _ => [28, 40]

/-- Output extents of an operator. -/
def outExtents (g : Prog) (w : List W32) : List Extent :=
  ((outWords w).map (tref w)).filterMap (fun r => if r.present then some r.ext else none) ++
  (if opMapEn w then [(sref w 9).ext (mapBytes g w)] else []) ++
  (if opFamily w = 0x15 ∧ (sref w 58).present then [(sref w 58).ext 4] else [])

/-- Short input references of an operator: word and bytes named. -/
def inShorts (w : List W32) : List (Nat × Nat) :=
  (if opBiasEn w then [(5, 4 * opColumns w)] else []) ++ (if opScaleEn w then [(7, 4 * opColumns w)] else []) ++
  (if opFamily w = 0x03 ∧ wf w 12 1 0 = 2 then [(13, 4 * (tref w 28).d1 * (tref w 40).d1)] else []) ++
  (if opFamily w = 0x14 ∧ (sref w 53).present then [(53, 4)] else []) ++
  (if opFamily w = 0x15 ∧ (sref w 56).present then [(56, 4)] else [])

/-- Input extents of an operator. -/
def inExtents (w : List W32) : List Extent :=
  ((inWords w).map (tref w)).filterMap (fun r => if r.present then some r.ext else none) ++
  (inShorts w).map (fun x => (sref w x.1).ext x.2)

/-- References that a family requires; the others it must leave absent. -/
def needWords (w : List W32) : List Nat :=
  match opFamily w with
  | 0x01 => [16, 28, 40]
  | 0x02 => [16, 28, 40]
  | 0x03 => [16, 28, 40, 52]
  | 0x10 => [16, 28]
  | 0x11 => if decide (1 ≤ wf w 52 7 0) && decide (wf w 52 7 0 ≤ 5) then [16, 28, 40] else [16, 28]
  | 0x12 => [16, 28]
  | 0x13 => [16, 28]
  | 0x14 => [16, 28, 40]
  | 0x15 => [16, 28, 40]
  | _ => []

/-- The tensor references of an operator are present or absent as its family says, and well formed. -/
def refsOk (g : Prog) (w : List W32) : Bool :=
  (outWords w ++ inWords w).all (fun i =>
    let r := tref w i
    let ok := trefOk g w i ((outWords w).contains i)
    if opFamily w = 0x20 then (if r.present then ok else trefAbsent w i)
    else if (needWords w).contains i then r.present && ok
    else trefAbsent w i)

/-- The short references of an operator. -/
def shortsOk (g : Prog) (w : List W32) : Bool :=
  let cols := 4 * opColumns w
  srefEn g w 5 cols 4 false (opBiasEn w) && srefEn g w 7 cols 4 false (opScaleEn w) &&
  srefEn g w 9 (mapBytes g w) 1 true (opMapEn w) &&
  (opFamily w != 0x03 || srefEn g w 13 (4 * (tref w 28).d1 * (tref w 40).d1) 4 false (wf w 12 1 0 == 2)) &&
  (opFamily w != 0x14 || srefEn g w 53 4 4 false (sref w 53).present) &&
  (opFamily w != 0x15 || (srefEn g w 56 4 4 false (sref w 56).present && srefEn g w 58 4 4 true (sref w 58).present))

/-- Reduction length K of a tensor-array family. -/
def opK (w : List W32) : Nat :=
  match opFamily w with
  | 0x01 => (window w).kh * (window w).kw * ((tref w 28).d0 / max 1 (convG w))
  | 0x02 => (tref w 28).d0
  | _ => (tref w 28).d0

/-- Shapes, formats and limits of each family (Tables 10.7, 10.8 and 10.10). -/
def familyOk (w : List W32) : Bool :=
  let o := tref w 16
  let a := tref w 28
  let b := tref w 40
  let x := window w
  match opFamily w with
  | 0x01 =>
    let gr := convG w
    windowOk x && decide (1 ≤ gr) && a.d0 % gr == 0 && o.d0 % gr == 0 && b.d0 == a.d0 / gr && b.d1 == x.kw && b.d2 == x.kh &&
    b.d3 == o.d0 && o.d3 == a.d3 && planeOk x a o && modeOk w a.fmt b.fmt && decide (1 ≤ opK w) && decide (opK w ≤ 262144) &&
    decide (opTM w * opTN w ≤ 65536)
  | 0x02 =>
    a.d3 == 1 && b.d3 == 1 && o.d3 == 1 && b.d0 == a.d0 && (b.d2 == a.d2 || b.d2 == 1) && o.d2 == a.d2 && o.d1 == a.d1 &&
    o.d0 == b.d1 && modeOk w a.fmt b.fmt && decide (opK w ≤ 262144) && decide (opTM w * opTN w ≤ 65536)
  | 0x03 =>
    let v := tref w 52
    let fl (c : Nat) : Bool := decide (4 ≤ c) && decide (c ≤ 7)
    a.d3 == 1 && b.d3 == 1 && v.d3 == 1 && o.d3 == 1 && fl a.fmt && fl b.fmt && fl v.fmt && modeOk w a.fmt b.fmt &&
    b.d0 == a.d0 && b.d2 == a.d2 && v.d2 == a.d2 && v.d1 == b.d1 && o.d2 == a.d2 && o.d1 == a.d1 && o.d0 == v.d0 &&
    decide (a.d0 ≤ 256) && decide (v.d0 ≤ 256) && decide (b.d1 ≤ 1024) && decide (a.d2 ≤ 256) && decide (wf w 12 1 0 ≤ 2) &&
    decide (opTM w * opTN w ≤ 65536)
  | 0x10 =>
    decide (wf w 54 17 16 ≤ 2) && o.d0 == a.d0 && o.d3 == a.d3 &&
    (if wf w 54 18 18 = 1 then wd w 52 == 0 && wf w 53 15 0 == 0 && o.d1 == 1 && o.d2 == 1
     else windowOk x && x.dh == 1 && x.dw == 1 && planeOk x a o)
  | 0x11 =>
    let same (r : TRef) : Bool := r.d0 == o.d0 && r.d1 == o.d1 && r.d2 == o.d2 && r.d3 == o.d3
    [0x00, 0x01, 0x02, 0x03, 0x04, 0x05, 0x10, 0x11, 0x12, 0x13, 0x14].contains (wf w 52 7 0) && same a && (!b.present || same b)
  | 0x12 =>
    let ax := wf w 52 3 0
    let rop := wf w 52 11 8
    let dim (d n m : Nat) : Bool := if nbit ax d then m == 1 else m == n
    ax != 0 && decide (rop ≤ 4) && (rop != 4 || ([1, 2, 4, 8].contains ax && o.fmt == 10)) &&
    dim 0 a.d0 o.d0 && dim 1 a.d1 o.d1 && dim 2 a.d2 o.d2 && dim 3 a.d3 o.d3
  | 0x13 => decide (wf w 52 1 0 ≤ 1) && o.d0 == a.d0 && o.d3 == a.d3
  | 0x14 =>
    decide (1 ≤ wf w 52 3 0) && decide (wf w 52 3 0 ≤ 4) && b.fmt == 8 && b.d0 == 4 && o.d0 == a.d0
  | 0x15 =>
    decide (1 ≤ wf w 54 12 0) && decide (wf w 54 12 0 ≤ 4096) && a.fmt == 8 && b.fmt == 8 &&
    decide (a.d1 * (if wf w 55 0 0 = 1 then b.d0 else 1) ≤ 32768) &&
    decide (b.d0 ≤ 256)
  | _ => true

/-- No output overlaps an input or another output, but ELTWISE in place (Table 10.10). -/
def overlapOk (g : Prog) (w : List W32) : Bool :=
  let outs := outExtents g w
  let inPlace := opFamily w == 0x11 && slice w 16 12 == slice w 28 12
  let ins := (if inPlace then [] else [(tref w 28)].filterMap (fun r => if r.present then some r.ext else none)) ++
    ((inWords w).drop 1).filterMap (fun i => if (tref w i).present then some (tref w i).ext else none) ++
    (inShorts w).map (fun x => (sref w x.1).ext x.2)
  outs.all (fun x => !ins.any (fun y => x.overlaps y)) &&
  (List.range outs.length).all (fun i => (List.range i).all (fun j =>
    match outs[i]?, outs[j]? with
    | some x, some y => !x.overlaps y
    | _, _ => true))

/-! ### Slate need (Table 10.9, Table 12.17) -/

/-- Element size in 1/32 byte (10.6). -/
def size32 (c : Nat) : Nat := if c = 9 then 17 else codeBits c * 4

/-- Groups of a SHADER operator that one core holds (12.11). -/
def groupsPerCore (w : List W32) : Nat :=
  let wv := max 1 (wf w 13 19 16)
  min (8 / wv) (1024 / max 1 (wv * (wf w 13 24 20 * 8)))

/-- Slate need of a SHADER operator (Table 12.17). -/
def shaderSlate (w : List W32) : Nat := 65536 + 4 * groupsPerCore w * wf w 14 8 0 * 1024

/-- Slate need of an operator in bytes, before rounding. -/
def slateNeed (w : List W32) : Nat :=
  let o := tref w 16
  let a := tref w 28
  let b := tref w 40
  match opFamily w with
  | 0x01 => ceilDiv (256 * min (opK w) 512 * (size32 a.fmt + size32 b.fmt) + 32768 * size32 o.fmt) 32
  | 0x02 => ceilDiv (256 * min (opK w) 512 * (size32 a.fmt + size32 b.fmt) + 32768 * size32 o.fmt) 32
  | 0x03 =>
    let v := tref w 52
    ceilDiv (128 * a.d0 * size32 a.fmt + 256 * (a.d0 * size32 b.fmt + v.d0 * size32 v.fmt) + 512 * b.d1 * 32 +
      256 * v.d0 * size32 o.fmt) 32
  | 0x15 => 65536 + 24 * (a.d1 * (if wf w 55 0 0 = 1 then b.d0 else 1))
  | 0x20 => shaderSlate w
  | _ => 65536

/-! ### The header and its tables (Tables 10.1 to 10.4) -/

/-- A resident declaration's words are clean and in range (Table 10.3). -/
def residentOk (w : List W32) : Bool :=
  !stray w 1 0xFFFF && !stray w 3 0 && wd w 0 % 256 == 0 && wd w 2 % 256 == 0 && decide (256 ≤ wd w 2)

/-- An operand declaration (Table 10.2). -/
def operandOk (w : List W32) : Bool := !stray w 0 0x13F && decide (1 ≤ wd w 1) && !stray w 2 0 && !stray w 3 0

/-- A region declaration (Table 10.4). -/
def regionOk (w : List W32) : Bool :=
  !stray w 0 0xFF && !stray w 2 0xFFFF && wd w 1 % 256 == 0 && wd w 3 % 256 == 0 && decide (256 ≤ wd w 3) &&
  decide (wd w 3 ≤ 1073741824)

/-- n entries of k words from a byte offset on. -/
def tableOf (w : List W32) (off n k : Nat) : List (List W32) := (List.range n).map (fun i => slice w (off / 4 + k * i) k)

/-- The sections of an image: byte offset and length; one of no entries has offset 0 (R253). -/
def sections (w : List W32) : List (Nat × Nat) :=
  [(wd w 19, 16 * wd w 11), (wd w 20, 16 * wd w 12), (wd w 21, 16 * wd w 13), (wd w 22, 32 * wd w 14), (wd w 23, 256 * wd w 15),
   (wd w 24, wd w 25)]

/-- R253. -/
def sectionsOk (w : List W32) (len : Nat) : Bool :=
  let ss := sections w
  ss.all (fun x => if x.2 = 0 then x.1 == 0 else x.1 % 64 == 0 && decide (256 ≤ x.1) && decide (x.1 + x.2 ≤ len)) &&
  (List.range 6).all (fun i => (List.range i).all (fun j =>
    match ss[i]?, ss[j]? with
    | some a, some b => a.2 == 0 || b.2 == 0 || decide (a.1 + a.2 ≤ b.1) || decide (b.1 + b.2 ≤ a.1)
    | _, _ => true))

/-- The header: magic, version, ranges (Tables 5.1 and 10.1), reserved bits. -/
def headerOk (w : List W32) (len : Nat) : Bool :=
  let q := wd w 7
  wd w 0 == 0x47504B48 && wd w 1 == 0x00010000 && wd w 2 == len && decide (1 ≤ wd w 3) && decide (wd w 3 ≤ 16) &&
  wd w 4 % 4 == 0 && decide (4 ≤ wd w 4) && decide (wd w 4 ≤ 1024) && wd w 5 % 64 == 0 && decide (wd w 5 ≤ 16384) &&
  wd w 6 % 64 == 0 && decide (wd w 6 ≤ 16384) && decide (q ≤ 1024) &&
  (if q = 0 then wd w 8 == 0 else decide (1 ≤ wd w 8) && decide (wd w 8 ≤ q)) &&
  decide (1 ≤ wd w 9) && decide (wd w 9 ≤ 64) && !stray w 10 0xFFFFFF && decide (wd w 11 ≤ 64) && decide (wd w 12 ≤ 256) &&
  decide (wd w 13 ≤ 256) && decide (1 ≤ wd w 14) && decide (wd w 14 ≤ 64) && decide (1 ≤ wd w 15) && decide (wd w 15 ≤ 4096) &&
  wd w 16 % 256 == 0 && !stray w 17 0xFFFF &&
  (if q = 0 then wd w 18 == 0 else wd w 18 % 256 == 0 && decide (256 ≤ wd w 18) && decide (wd w 18 ≤ 1048576)) &&
  (slice w 26 38).all (· == 0) && sectionsOk w len

/-- A stage entry as declared (Table 11.1). -/
def stageOf (w : List W32) : StageDecl :=
  { prov := wf w 0 0 0 == 1, predHost := wf w 0 1 1 == 1, resolves := wf w 0 2 2 == 1, predicate := wf w 0 13 8
    resolvePred := wf w 0 21 16, earlyClusters := wf w 0 28 24, earlyAfter := wf w 1 6 0, resolveRef := slice w 2 2 }

/-- The program an image declares; nothing granted yet. -/
def progOf (f id addr len : Nat) (w : List W32) : Prog :=
  { fn := f, id := id, imgAddr := addr, imgLen := len, c := wd w 3, slate := wd w 4, scratch := wd w 5, pencil := wd w 6
    seqSlots := wd w 7, stepBatch := wd w 8, runBatch := wd w 9, nominal := wd w 10
    stateAddr := wd w 16 + wf w 17 15 0 * 2 ^ 32, stateBytes := wd w 18
    operands := (tableOf w (wd w 19) (wd w 11) 4).map (fun t => ⟨wf t 0 5 0, wf t 0 8 8 == 1, wd t 1⟩)
    residents := (tableOf w (wd w 20) (wd w 12) 4).map (fun t => (wd t 0 + wf t 1 15 0 * 2 ^ 32, wd t 2))
    regions := (tableOf w (wd w 21) (wd w 13) 4).map (fun t => ⟨wf t 0 7 0, wd t 1 + wf t 2 15 0 * 2 ^ 32, wd t 3⟩)
    stages := (tableOf w (wd w 22) (wd w 14) 8).map stageOf
    ops := tableOf w (wd w 23) (wd w 15) 64
    code := (tableOf w (wd w 24) (wd w 25 / 8) 2).map (fun t => BitVec.ofNat 64 (wd t 0 + wd t 1 * 2 ^ 32))
    blocks := [], pblocks := [], est := if wd w 10 = 0 then 1000 else wd w 10, tLast := 0, seqs := [], rgn := [] }

/-- Declarations of the tables are well formed, with distinct indices. -/
def tablesOk (w : List W32) (g : Prog) : Bool :=
  (tableOf w (wd w 19) (wd w 11) 4).all operandOk && decide ((g.operands.map (·.index)).Nodup) &&
  (tableOf w (wd w 20) (wd w 12) 4).all residentOk &&
  (tableOf w (wd w 21) (wd w 13) 4).all regionOk && decide ((g.regions.map (·.region)).Nodup)

/-! ### Stages (R275, R282, 11.4) -/

/-- Operators of a stage, in ascending op. -/
def stageOps (g : Prog) (st : Nat) : List Nat := (List.range g.ops.length).filter (fun i => opStage ((g.ops[i]?).getD []) == st)

/-- The descriptor of an operator. -/
def opWords (g : Prog) (op : Nat) : List W32 := (g.ops[op]?).getD []

/-- A firm stage's declaration. -/
def firmStage : StageDecl := ⟨false, false, false, 0, 0, 0, 0, []⟩

/-- A stage's declaration. -/
def stageDecl (g : Prog) (st : Nat) : StageDecl := (g.stages[st]?).getD firmStage

/-- Output and input extents of a stage. -/
def stageOuts (g : Prog) (st : Nat) : List Extent := ((stageOps g st).map (fun o => outExtents g (opWords g o))).flatten
def stageIns (g : Prog) (st : Nat) : List Extent := ((stageOps g st).map (fun o => inExtents (opWords g o))).flatten

/-- Some input of stage t overlaps some output of stage s. -/
def stageReads (g : Prog) (t s : Nat) : Bool := (stageIns g t).any (fun x => (stageOuts g s).any (fun y => x.overlaps y))

/-- A provisional stage t depends on a lower provisional stage s (R282). -/
def dependsOn (g : Prog) (t s : Nat) : Bool :=
  decide (s < t) && (stageDecl g t).prov && (stageDecl g s).prov && stageReads g t s

/-- Bytes of one output extent rounded to granules. -/
def granuleBytes (n : Nat) : Nat := ceilDiv n 4096 * 4096

/-- Pencil need of an operator for one element (11.4). -/
def opPencil (w : List W32) : Nat :=
  (((outWords w).map (tref w)).map (fun r => if r.present then granuleBytes (r.span + r.scaleBytes) else 0)).sum +
  (if opMapEn w then granuleBytes (opTM w * opTN w) else 0) +
  (if opFamily w = 0x15 ∧ (sref w 58).present then 4096 else 0)

/-- Pencil need of a stage for one element. -/
def stagePencil (g : Prog) (st : Nat) : Nat := ((stageOps g st).map (fun o => opPencil (opWords g o))).sum

/-- A stage entry's reserved bits and form (Table 11.1). -/
def stageWordsOk (w : List W32) : Bool :=
  (slice w 4 4).all (· == 0) &&
  (if wf w 0 0 0 = 1 then !stray w 0 0x1F003F03 && !stray w 1 0x7F && !stray w 2 0 && !stray w 3 0
   else if wf w 0 2 2 = 1 then !stray w 0 0x003F0004 && !stray w 1 0
   else wd w 0 == 0 && !stray w 1 0 && !stray w 2 0 && !stray w 3 0)

/-- A `RESOLVE_REF` (R275). -/
def resolveRefOk (g : Prog) (d : StageDecl) : Bool :=
  let r := sref d.resolveRef 0
  [1, 4, 5].contains r.kind && srefOk g d.resolveRef 0 4 4 true

/-- Firm stages that an early start of provisional stage i could overtake (R275). -/
def overtaken (g : Prog) (i : Nat) : List Nat :=
  let d := stageDecl g i
  (List.range i).filter (fun k => !(stageDecl g k).prov && (d.earlyAfter == 0x7F || decide (d.earlyAfter < k)))

/-- One stage meets R275. -/
def stageOk (g : Prog) (i : Nat) : Bool :=
  let d := stageDecl g i
  let n := if g.seqSlots = 0 then g.runBatch else g.stepBatch
  if d.prov then
    decide (d.earlyClusters ≤ g.c - 1) &&
    (d.earlyAfter == 0x7F || (decide (d.earlyAfter < i) && !(stageDecl g d.earlyAfter).prov)) &&
    (d.predHost || g.stages.any (fun e => e.resolves && e.resolvePred == d.predicate)) &&
    g.stages.all (fun e => !(e.prov && e.predicate == d.predicate) || e.predHost == d.predHost) &&
    !(overtaken g i).any (fun k => stageReads g i k) &&
    (d.earlyClusters == 0 || decide (n * stagePencil g i ≤ g.pencil * 1024))
  else
    !d.resolves ||
    (resolveRefOk g d &&
     (List.range g.stages.length).all (fun k =>
       let e := stageDecl g k
       !(e.prov && e.predicate == d.resolvePred && decide (k ≤ i)) && !(k != i && e.resolves && e.resolvePred == d.resolvePred)))

/-- One operator descriptor but for its shader conditions (R252 to R274). -/
def opOk (g : Prog) (w : List W32) : Bool :=
  famKnown (opFamily w) && decide (opStage w < g.stages.length) && famClean w && decide (opAct w ≤ 3) && refsOk g w &&
  (wd w 4 == 0 || fmtInt (tref w 16).fmt) && familyOk w && shortsOk g w && overlapOk g w &&
  decide (ceilDiv (slateNeed w) 4096 * 4096 ≤ g.slate * 1024)

/-- Everything but the shader section (R252, R253, R257, R258, R273 to R275). -/
def imageOk (w : List W32) (g : Prog) : Bool :=
  tablesOk w g && (tableOf w (wd w 22) (wd w 14) 8).all stageWordsOk && g.ops.all (opOk g) &&
  (List.range g.stages.length).all (stageOk g)

end Sys2Proof.Machine
end

