-- ==== Sys2Proof/Machine/ShaderIsa.lean ====
section
/-! DEFINITION. Shader instruction words (12.4, 12.5) and the load checks of R321; LOAD_PROGRAM (Table 4.6, R127 to R129). -/

namespace Sys2Proof.Machine

/-! ### Fields of an instruction word (Tables 12.3 to 12.7) -/

def iOpc (i : W64) : Nat := fld i 7 0
def iPred (i : W64) : Nat := fld i 10 8
def iNeg (i : W64) : Bool := fld i 11 11 == 1
def iFmt (i : W64) : Nat := fld i 14 12
def iU (i : W64) : Bool := fld i 15 15 == 1
def iD (i : W64) : Nat := fld i 22 16
def iA (i : W64) : Nat := fld i 29 23
/-- `AS`: bit 44 in format V, bit 30 in formats I and M. -/
def iAS (i : W64) : Bool := if iFmt i = 0 then fld i 44 44 == 1 else fld i 30 30 == 1
def iB (i : W64) : Nat := fld i 36 30
def iBS (i : W64) : Bool := fld i 45 45 == 1
/-- `C` and `CS`, formats V and M. -/
def iC (i : W64) : Nat := if iFmt i = 0 then fld i 43 37 else fld i 50 44
def iCS (i : W64) : Bool := if iFmt i = 0 then fld i 46 46 == 1 else fld i 51 51 == 1
def iSub (i : W64) : Nat := fld i 50 47
def iSub2 (i : W64) : Nat := fld i 54 51
def iRnd (i : W64) : Nat := fld i 56 55
def iPD (i : W64) : Nat := fld i 59 57
def iImm (i : W64) : Nat := fld i 63 32
def iSpace (i : W64) : Nat := fld i 33 31
def iSize (i : W64) : Nat := fld i 36 34
def iSX (i : W64) : Bool := fld i 37 37 == 1
def iRef (i : W64) : Nat := fld i 39 38
def iAop (i : W64) : Nat := fld i 43 40
def iOff (i : W64) : Int := signedOf 12 (fld i 63 52)
def iTarget (i : W64) : Nat := fld i 30 16
def iImm16 (i : W64) : Nat := fld i 47 32

/-! ### Classes of opcodes -/

def opcInt (o : Nat) : Bool := decide (0x01 ≤ o) && decide (o ≤ 0x12)
def opcFloat (o : Nat) : Bool := decide (0x20 ≤ o) && decide (o ≤ 0x2F)
/-- Unary forms, which ignore B. -/
def opcUnary (o : Nat) : Bool := [0x11, 0x12, 0x26, 0x27, 0x29, 0x2A, 0x2B, 0x2C, 0x2D, 0x2E, 0x2F].contains o
def opcCmp (o : Nat) : Bool := o == 0x40 || o == 0x41 || o == 0x42
def opcCtl (o : Nat) : Bool := decide (0x70 ≤ o) && decide (o ≤ 0x7F)
/-- Control instructions with a condition (Table 12.13). -/
def opcCond (o : Nat) : Bool := [0x71, 0x72, 0x76, 0x77, 0x7D].contains o

/-- The formats that an opcode's table gives it; none for an unlisted opcode. -/
def opcFmts (o : Nat) : List Nat :=
  if o = 0x06 ∨ o = 0x23 then [0]
  else if opcInt o || opcFloat o then [0, 1]
  else if o = 0x50 then [0, 1]
  else if o = 0x51 then [1]
  else if [0x40, 0x41, 0x42, 0x43, 0x44, 0x48, 0x52, 0x53].contains o then [0]
  else if [0x60, 0x61, 0x62].contains o then [2]
  else if opcCtl o then [3]
  else []

/-- Register sources an instruction uses: (index, is scalar). -/
def srcRegs (i : W64) : List (Nat × Bool) :=
  let o := iOpc i
  let a := (iA i, iAS i || iU i)
  let b := (iB i, iBS i || iU i)
  let c := (iC i, iCS i || iU i)
  if opcInt o || opcFloat o then
    [a] ++ (if iFmt i = 0 && !opcUnary o then [b] else []) ++ (if o = 0x06 ∨ o = 0x23 then [c] else [])
  else if opcCmp o then [a, b]
  else if o = 0x44 then [a, b]
  else if o = 0x48 then [a]
  else if o = 0x50 then (if iFmt i = 0 then [a] else [])
  else if o = 0x52 then [a, b]
  else if o = 0x60 then [a]
  else if o = 0x61 then [a]
  else if o = 0x62 then [a, c] ++ (if iAop i = 9 then [(iC i + 1, iCS i || iU i)] else [])
  else []

/-- Registers an access of a size covers. -/
def sizeRegs (sz : Nat) : Nat := if sz = 3 then 2 else if sz = 4 then 4 else 1

/-- Destination registers, and the data registers of ST: (index, is scalar). -/
def dstRegs (i : W64) : List (Nat × Bool) :=
  let o := iOpc i
  if opcInt o || opcFloat o || [0x44, 0x48, 0x50, 0x51, 0x52, 0x53].contains o then [(iD i, iU i)]
  else if o = 0x60 ∨ o = 0x61 then (List.range (sizeRegs (iSize i))).map (fun k => (iD i + k, iU i))
  else if o = 0x62 then [(iD i, iU i)]
  else []

/-- Format codes that CVT accepts (12.5.4). -/
def cvtFmt (c : Nat) : Bool := [1, 2, 3, 4, 5, 6, 7, 8, 10].contains c

/-- Fields of a format V instruction that must be 0 or in range. -/
def fmtVOk (i : W64) : Bool :=
  let o := iOpc i
  fld i 63 60 == 0 &&
  (if opcCmp o then
     decide (iSub2 i ≤ 2) && decide (iSub i ≤ if o = 0x42 then 7 else 5) && iRnd i == 0
   else if o = 0x43 then decide (iSub i ≤ 2) && iSub2 i == 0 && iRnd i == 0
   else if o = 0x48 then
     cvtFmt (iSub i) && cvtFmt (iSub2 i) && iPD i == 0 && (iRnd i == 0 || (!fmtInt (iSub i) && fmtInt (iSub2 i)))
   else iSub2 i == 0 && iRnd i == 0 && iPD i == 0)

/-- A format I instruction. -/
def fmtIOk (i : W64) : Bool :=
  fld i 31 31 == 0 && (iOpc i != 0x50 || iA i == 0) && (iOpc i != 0x51 || decide (iImm i ≤ 13))

/-- A format M instruction; `refHere r` says that the operator's reference r is present. -/
def fmtMOk (refHere : Nat → Bool) (i : W64) : Bool :=
  let o := iOpc i
  decide (iSpace i ≤ 3) && decide (iSize i ≤ 4) && iD i % sizeRegs (iSize i) == 0 &&
  (if iSpace i = 0 then refHere (iRef i) else iRef i == 0) &&
  (if o = 0x62 then iSize i == 2 && decide (iAop i ≤ 9) else iAop i == 0 && iC i == 0) &&
  !(iU i && o != 0x60)

/-- The opcode at an index of a section, 0 beyond it. -/
def codeOpc (code : List W64) (k : Nat) : Nat := ((code[k]?).map iOpc).getD 0

/-- A format C instruction of a section (R321). -/
def fmtCOk (code : List W64) (i : W64) : Bool :=
  let o := iOpc i
  let t := codeOpc code (iTarget i)
  fld i 31 31 == 0 && fld i 63 48 == 0 && (opcCond o || (iPred i == 0 && !iNeg i)) && decide (iTarget i < code.length) &&
  (match o with
   | 0x72 => t == 0x73 || t == 0x74
   | 0x73 => t == 0x74
   | 0x76 => t == 0x78
   | 0x77 => t == 0x78
   | 0x78 => decide (1 ≤ iTarget i) && codeOpc code (iTarget i - 1) == 0x75
   | 0x7E => iImm16 i % 4 == 0 && decide (iImm16 i + 3 < 64)
   | 0x7F => decide (iImm16 i ≤ 3)
   | _ => true)

/-- An instruction of a section (R302, R321). `v` is the number of vector registers. -/
def instrOk (code : List W64) (v : Nat) (refHere : Nat → Bool) (i : W64) : Bool :=
  (opcFmts (iOpc i)).contains (iFmt i) &&
  (match iFmt i with
   | 0 => fmtVOk i
   | 1 => fmtIOk i
   | 2 => fmtMOk refHere i
   | _ => fmtCOk code i) &&
  (!iU i || (iPred i == 0 && !iNeg i && (iFmt i == 3 || (!iAS i && (iFmt i != 0 || !iBS i) && (iFmt i == 1 || !iCS i))))) &&
  (iOpc i != 0x53 || iU i) &&
  (srcRegs i ++ dstRegs i).all (fun r => if r.2 then decide (r.1 < 64) else decide (r.1 < v))

/-- A shader section of non-zero length, for a number of vector registers and the references at hand. -/
def sectionOk (code : List W64) (len v : Nat) (refHere : Nat → Bool) : Bool :=
  len % 8 == 0 && decide (8 ≤ len) && decide (len ≤ 262144) && code.all (instrOk code v refHere)

/-- Vector registers of a SHADER operator. -/
def shV (w : List W32) : Nat := wf w 13 24 20 * 8

/-- Word of reference r of a SHADER operator. -/
def shRefWord (r : Nat) : Nat := match r with | 0 => 16 | 1 => 28 | 2 => 40 | _ => 52

/-- Groups of a SHADER operator. -/
def shGroups (w : List W32) : Nat := wf w 12 15 0 * wf w 12 31 16 * wf w 13 15 0

/-- A SHADER operator against R321. -/
def shaderOk (g : Prog) (len : Nat) (w : List W32) : Bool :=
  let wv := wf w 13 19 16
  len != 0 && sectionOk g.code len (shV w) (fun r => (tref w (shRefWord r)).present) && decide (wf w 11 14 0 < len / 8) &&
  decide (1 ≤ wf w 12 15 0) && decide (1 ≤ wf w 12 31 16) && decide (1 ≤ wf w 13 15 0) && decide (1 ≤ wv) && decide (wv ≤ 8) &&
  decide (1 ≤ wf w 13 24 20) && decide (wf w 13 24 20 ≤ 16) && decide (wf w 14 8 0 ≤ 256) && decide (wv * shV w ≤ 1024) &&
  decide (shGroups w ≤ 16777216) && decide (shaderSlate w ≤ 1048576) &&
  !(wf w 14 17 17 == 1 && (stageDecl g (opStage w)).prov)

/-- The shader conditions of an image (R321). -/
def shadersOk (g : Prog) (len : Nat) : Bool :=
  (len == 0 || sectionOk g.code len 128 (fun _ => true)) &&
  g.ops.all (fun w => opFamily w != 0x20 || shaderOk g len w)

/-! ### LOAD_PROGRAM (Table 4.6, R127 to R129, R197) -/

/-- Admission (Table 5.2): quotas of the function, then what the carve-out holds. -/
def admits (s : State) (f : Nat) (g : Prog) : Bool :=
  let q := (getFn s f).quota
  let mine := s.progs.filter (fun p => p.fn == f)
  decide (g.c ≤ q.clusters) && decide (g.c * g.slate ≤ q.slate) &&
  decide (g.scratch + (mine.map (·.scratch)).sum ≤ q.scratch) &&
  decide (g.scratch + (s.progs.map (·.scratch)).sum ≤ scratchKiB s - pencilKiB s) &&
  decide (g.pencil + (mine.map (·.pencil)).sum ≤ q.pencil) &&
  decide (g.pencil + (s.progs.map (·.pencil)).sum ≤ pencilKiB s)

/-- The n lowest-numbered blocks that no program holds. -/
def freeBlocks (held : List Nat) (total n : Nat) : List Nat := ((List.range total).filter (fun b => !held.contains b)).take n

/-- An admitted program takes its scratch, written 0, and its pencil blocks (R197, 11.4). -/
def admitProgram (s : State) (g : Prog) : State :=
  let bl := freeBlocks ((s.progs.map (·.blocks)).flatten) (areaBlocks s) (g.scratch / 64)
  let pb := freeBlocks ((s.progs.map (·.pblocks)).flatten) (s.cache.wP * 32) (g.pencil / 64)
  { zeroBlocks s bl with progs := s.progs ++ [{ g with blocks := bl, pblocks := pb }] }

/-- The checks of the image itself, once its bytes are at hand (check 4). -/
def imageChecks (w : List W32) (g : Prog) (len : Nat) : Bool :=
  headerOk w len && imageOk w g && shadersOk g (wd w 25)

/-- LOAD_PROGRAM: its checks in order, admission and the load. A page of the image that ATS must translate first holds the
packet at dispatch. -/
def dispLoad (s : State) (f : Nat) (p : Packet) : State :=
  let id := p.bits 4 11 0
  let a := p.addr 5
  let len := (p.dw 7).toNat
  if s.cache.transition.isSome then holdPkt s f p.pos
  else if (getProg s f id).isSome || (earlier (getFn s f) p.pos).any (fun q => q.opcode == 0x10 && q.phase != .complete &&
      q.bits 4 11 0 == id) then refuseLoad s f p St.BAD_PARAM
  else if a % 256 != 0 || len % 256 != 0 || decide (len < 256) || decide (67108864 < len) then
    refuseLoad s f p St.BAD_PARAM
  else
    let s := touchPages s f a len
    if !pinned s f a len false then refuseLoad s f p St.UNPINNED_OPERAND
    else
      let r : Range := ⟨a, len, false⟩
      match blockRanges s 20 f [r] with
      | .waits => holdPkt (askRanges s .job 20 6 1 f p.pos [r]) f p.pos
      | .fails st va _ => rangesFault s 20 f [r] va false st p.pos
      | .none =>
        let bs := (List.range len).map (fun i => vaByte s 20 f (a + i))
        let w := wordsOf (len / 4) bs
        let g := progOf f id a len w
        let s := forgetRemote (touchVA s 20 f a len true false) 20 f [r]
        if !imageChecks w g len then refuseLoad s f p St.BAD_PARAM
        else
          let ext := residentExtents g
          let s' := ext.foldl (fun s x => touchPages s f x.1 x.2.1) s
          if !extentsPinned s f ext then refuseLoad s' f p St.UNPINNED_OPERAND
          else
            let tr (s : State) (st : Nat) : State := traceEv s 14 1 f (some p.tag) false (bytesLE 2 id ++ bytesLE 2 st)
            if !admits s f g then refuseLoad (tr s' St.REFUSED_RESOURCES) f p St.REFUSED_RESOURCES
            else finishPkt (tr (admitProgram s' g) St.DONE) f p.pos St.DONE (g.c + g.pencil * 2 ^ 16)

/-- LOAD_PROGRAM. -/
def execPktLoadProgram (f pos : Nat) (s : State) : Out := .next (dispatchAs s f pos 0x10 dispLoad)

end Sys2Proof.Machine
end

