-- ==== Sys2Proof/Machine/Groups.lean ====
section
/-! DEFINITION. Groups of SHADER operators (12.2): where one finds room, how it starts, and how room that becomes free is filled. -/

namespace Sys2Proof.Machine

/-- Every lane. -/
def allLanes : Nat := 0xFFFFFFFF

/-- Groups that a rank of k runs, of G. -/
def rankGroups (total k r : Nat) : Nat := (total + k - 1 - r) / k

/-- The lowest-numbered core of a cluster with room for one more group (12.11). -/
def roomyCore (s : State) (w : List W32) (cl : Nat) : Option Nat :=
  ((List.range 4).map (fun c => 4 * cl + c)).find? (fun k =>
    decide ((s.groups.filter (fun q => q.core == k)).length < groupsPerCore w) &&
    decide ((s.waves.filter (fun v => v.core == k)).length + wf w 13 19 16 ≤ 8))

/-- Free wave slots of a core, ascending. -/
def freeSlots (s : State) (core : Nat) : List Nat := (List.range 8).filter (fun n => !s.waves.any (fun v => v.core == core && v.slot == n))

/-- The operator is early work (11.2). -/
def ShOp.early (s : State) (o : ShOp) : Bool :=
  match getJob s o.fn o.pos with
  | some j => (stageRun j o.stage).phase == .early
  | none => false

/-- Start group g of an operator on a core (R299). -/
def startGroup (s : State) (o : ShOp) (w : List W32) (core g : Nat) : State :=
  let slots := (freeSlots s core).take (wf w 13 19 16)
  let ws : List Wave := slots.mapIdx (fun n sl =>
    { core := core, slot := sl, fn := o.fn, pos := o.pos, stage := o.stage, op := o.op, elem := o.elem, group := g, num := n
      pc := wf w 11 14 0, active := allLanes, vregs := [], sregs := [], preds := [], masks := [], calls := [], bars := 0, atBar := false })
  traceEv { s with waves := s.waves ++ ws, groups := s.groups ++ [⟨core, o.fn, o.pos, o.stage, o.op, o.elem, g, []⟩] }
    25 (8 + core / 4) o.fn none (o.early s) (bytesLE 2 o.op ++ bytesLE 4 g)

/-- The same operator, for one element. -/
def ShOp.same (a b : ShOp) : Bool := a.fn == b.fn && a.pos == b.pos && a.stage == b.stage && a.op == b.op && a.elem == b.elem

/-- Change one operator's record. -/
def modShOp (s : State) (o : ShOp) (h : ShOp → ShOp) : State :=
  { s with shOps := s.shOps.map (fun x => if x.same o then h x else x) }

/-- Start a rank's groups in ascending order while its cluster has room (R298). -/
def fillRank (w : List W32) (o : ShOp) (r : Nat) : Nat → State → State
  | 0, s => s
  | fuel + 1, s =>
    match s.shOps.find? (fun x => x.same o) with
    | none => s
    | some o =>
      let k := min (shGroups w) o.clusters.length
      let n := Tab.get 0 o.started r
      if rankGroups (shGroups w) k r ≤ n then s
      else match roomyCore s w ((o.clusters[r]?).getD 0) with
        | none => s
        | some core => fillRank w o r fuel (modShOp (startGroup s o w core (r + k * n)) o (fun x => { x with started := Tab.set 0 x.started r (n + 1) }))

/-- Start every group of an operator that there is room for. -/
def fillOp (s : State) (w : List W32) (o : ShOp) : State :=
  (List.range (min (shGroups w) o.clusters.length)).foldl (fun s r => fillRank w o r 32 s) s

/-- Start every group that there is room for, of every operator under way: of one operator, elements in ascending order (R298). -/
def refill (s : State) : State :=
  s.shOps.foldl (fun s o =>
    match getJob s o.fn o.pos with
    | none => s
    | some j => match getProg s o.fn j.prog with
      | none => s
      | some g => fillOp s (opWords g o.op) o) s

end Sys2Proof.Machine
end

