-- ==== Sys2Proof/Machine/Pencil.lean ====
section
/-! DEFINITION. Pencil and ink (chapter 11): where operators read and write, what sees pencilled bytes, predicates, early
starts, inking, erasing, and the ends of stages; RESOLVE_PENCIL (4.5.2). -/

namespace Sys2Proof.Machine

/-! ### Places (R256) -/

/-- A byte's place: a virtual address or a program scratch offset. -/
inductive Place where
  | va (a : Nat)
  | scr (x : Nat)
  deriving DecidableEq, Repr

/-- The place n bytes on. -/
def Place.add (p : Place) (n : Nat) : Place :=
  match p with
  | .va a => .va (a + n)
  | .scr x => .scr (x + n)

/-- The place lies in the n bytes from another. -/
def Place.within (p q : Place) (n : Nat) : Bool :=
  match p, q with
  | .va a, .va b => decide (b ≤ a) && decide (a < b + n)
  | .scr a, .scr b => decide (b ≤ a) && decide (a < b + n)
  | _, _ => false

/-- One operator at work for one element of a job. `cl` holds the operator's clusters in ascending order (R281). -/
structure OpCtx where
  j : Job
  g : Prog
  e : Elem
  st : Nat
  op : Nat
  w : List W32
  early : Bool
  cl : List Nat
  deriving DecidableEq, Repr

/-- TLB that the operator's accesses use. -/
def OpCtx.who (c : OpCtx) : Nat := c.cl.headD 0

/-- The binding of an operand index. -/
def OpCtx.binding (c : OpCtx) (i : Nat) : Option Binding := c.e.binds.find? (fun b => b.index == i)

/-- Base of a kind and index for the element (R256). -/
def OpCtx.base (c : OpCtx) (kind index : Nat) : Place :=
  match kind with
  | 1 => match c.binding index with
    | some b => .va (b.addr + if b.perElem then b.len * c.e.idx else 0)
    | none => .va 0
  | 2 => .va (((c.g.residents[index]?).map (·.1)).getD 0)
  | 3 => match c.g.regions.find? (fun r => r.region == index) with
    | some r => .va (r.bank + (((c.j.regionBind.find? (fun x => x.1 == index)).map (·.2)).getD 0) * r.size)
    | none => .va 0
  | 4 => .scr 0
  | _ => .va (c.g.stateAddr + c.e.idx * c.g.stateBytes)

/-- First byte of a tensor reference's space, and of a short reference. -/
def OpCtx.at (c : OpCtx) (kind index off : Nat) : Place := (c.base kind index).add off

/-- Offset of element b's part of a status map: none where the map's operand is bound per element (R270). -/
def OpCtx.mapIndex (c : OpCtx) : Nat :=
  let m := sref c.w 9
  if m.kind = 1 && ((c.binding m.index).map (·.perElem)).getD false then 0 else c.e.idx

/-! ### Reading (R286) -/

/-- Places of one operator's output references for the context's element, in the order that 11.4 lists them: `REF_0`, the element's part
of `MAP`, `OUT_COUNT`, `REF_3` (log entry 108). -/
def OpCtx.outRefs (c : OpCtx) (o : Nat) : List (List (Place × Nat)) :=
  let w := opWords c.g o
  let cw : OpCtx := { c with w := w, op := o }
  let m := sref w 9
  let n := sref w 58
  let tiles := opTM w * opTN w
  let ref (i : Nat) : List (Place × Nat) :=
    let r := tref w i
    if r.present && (outWords w).contains i then r.extent.map (fun p => (cw.at r.kind r.index p.1, p.2)) else []
  [ref 16, if opMapEn w then [(cw.at m.kind m.index (m.off + cw.mapIndex * tiles), tiles)] else [],
   if opFamily w = 0x15 && n.present then [(cw.at n.kind n.index n.off, 4)] else [], ref 52]

/-- Places of a stage's output extents for the context's element. -/
def OpCtx.outPlaces (c : OpCtx) (st : Nat) : List (Place × Nat) := ((stageOps c.g st).map (fun o => (c.outRefs o).flatten)).flatten

/-- Stages whose pencil an early operator sees: its own, then those its stage depends on that have not ended (R286). -/
def OpCtx.layers (c : OpCtx) : List Nat :=
  if !c.early then []
  else c.st :: ((List.range c.st).filter (fun s => dependsOn c.g c.st s && (stageRun c.j s).phase != .ended &&
    (stageElem c.e s).ending == .undecided)).reverse

/-- A pencilled byte of a stage-element. -/
def StageElem.byteAt (x : StageElem) (p : Place) : Option Byte :=
  match p with
  | .va a => (Tab.get none x.pva a).map (·.2)
  | .scr o => (Tab.get none x.pscr o).map (·.2)

/-- A byte of architectural content. -/
def OpCtx.archByte (c : OpCtx) (s : State) (p : Place) : Byte :=
  match p with
  | .va a => vaByte s c.who c.j.fn a
  | .scr x => sget s c.g x

/-- A byte as the operator reads it: pencil where a layer has written it, 0 elsewhere in a layer's output extents, the
destination's content otherwise (R286). -/
def OpCtx.byte (c : OpCtx) (s : State) (p : Place) : Byte :=
  match c.layers.findSome? (fun st => (stageElem c.e st).byteAt p) with
  | some b => b
  | none =>
    if c.layers.any (fun st => (c.outPlaces st).any (fun q => p.within q.1 q.2)) then 0 else c.archByte s p

/-- n bytes. -/
def OpCtx.bytes (c : OpCtx) (s : State) (p : Place) (n : Nat) : List Byte := (List.range n).map (fun i => c.byte s (p.add i))

/-- A little-endian number of n bytes. -/
def OpCtx.num (c : OpCtx) (s : State) (p : Place) (n : Nat) : Nat := ofBytesLE (c.bytes s p n)

/-! ### Writing -/

/-- One byte of a result. -/
abbrev Wr := Place × Byte

/-- Put an operator's bytes in a stage-element's pencil. -/
def StageElem.pencil (x : StageElem) (op : Nat) (ws : List Wr) : StageElem :=
  ws.foldl (fun x w =>
    match w.1 with
    | .va a => { x with pva := Tab.set none x.pva a (some (op, w.2)) }
    | .scr o => { x with pscr := Tab.set none x.pscr o (some (op, w.2)) }) x

/-- Write results to their destinations. -/
def writeOut (s : State) (who cls f pos : Nat) (g : Prog) (ws : List Wr) : State :=
  let s := vaWrite s .job who cls f pos (ws.filterMap (fun w => match w.1 with
    | .va a => some (a, w.2)
    | .scr _ => none))
  if wedgedNow s then s
  else ws.foldl (fun s w => match w.1 with
    | .va _ => s
    | .scr x => sset s g x w.2) s

/-! ### Jobs, elements and stages -/

/-- Byte a lies in an output operand that the elements of a batch share. -/
def sharedOut (e : Elem) (a : Nat) : Bool :=
  e.binds.any (fun b => b.output && !b.perElem && decide (b.addr ≤ a) && decide (a < b.addr + b.len))

/-- Write results of element i of a job. In an operand that the elements of a batch share, a byte that a higher element has written keeps
its value (R271); an atomic takes effect on what it finds (log entry 109). -/
def writeElem (s : State) (who : Nat) (j : Job) (g : Prog) (i : Nat) (atomic : Bool) (ws : List Wr) : State :=
  let k := sameJob s j
  match k.elems[i]? with
  | none => s
  | some e =>
    if k.elems.length ≤ 1 || !k.batch then writeOut s who 1 j.fn e.pos g ws
    else
      let shared (w : Wr) : Option Nat := match w.1 with
        | .va a => if sharedOut e a then some a else none
        | .scr _ => none
      let ws := ws.filter (fun w => atomic || ((shared w).map (fun a => decide (Tab.get 0 k.owner a ≤ i + 1))).getD true)
      modJob (writeOut s who 1 j.fn e.pos g ws) j (fun k => { k with
        owner := (ws.filterMap shared).foldl (fun t a => Tab.set 0 t a (max (Tab.get 0 t a) (i + 1))) k.owner })

/-- The ending of element i of a stage. -/
def seEnding (s : State) (j : Job) (i st : Nat) : SeEnd :=
  (((sameJob s j).elems[i]?).map (fun e => (stageElem e st).ending)).getD .undecided

/-- Ending codes of Table 11.2 by row, for trace point 19. -/
def endCode (x : SeEnd) : Nat :=
  match x with
  | .inked => 1
  | .ran => 3
  | .erased => 4
  | .skipped => 5
  | _ => 0

/-- Clusters of a job that early work holds. -/
def earlyClusters (j : Job) : List Nat :=
  ((j.stages.filter (fun x => x.2.phase == .early)).map (fun x => x.2.clusters)).flatten

/-- Clusters that an operator of a stage runs on (R281). -/
def opClusters (j : Job) (st : Nat) : List Nat :=
  let r := stageRun j st
  if r.phase = .early then r.clusters else j.clusters.filter (fun n => !(earlyClusters j).contains n)

/-- The trap record of a function (Table 12.18). `w` holds cause, op, instruction and wave bits [25:16] of TRAP_1. -/
def trapRecord (s : State) (f prog cluster : Nat) (t : Nat × Nat × Nat × Nat) (detail pos : Nat) (early : Bool) : State :=
  let s := wr s (R.HI_FN_SHADER_TRAP_0 f) (BitVec.ofNat 32 (t.1 + t.2.1 * 2 ^ 8 + prog * 2 ^ 20))
  let s := wr s (R.HI_FN_SHADER_TRAP_1 f) (BitVec.ofNat 32 (t.2.2.1 + t.2.2.2 * 2 ^ 16 + cluster * 2 ^ 26 + b2n early * 2 ^ 30 + 2 ^ 31))
  let s := wr s (R.HI_FN_SHADER_TRAP_2 f) (BitVec.ofNat 32 detail)
  wr s (R.HI_FN_SHADER_TRAP_3 f) (BitVec.ofNat 32 pos)

/-- A trap that takes effect: the record, its counter, and a function-scope fault (R318). -/
def trapFault (s : State) (f prog cluster : Nat) (t : Nat × Nat × Nat × Nat) (detail pos : Nat) (early : Bool) : State :=
  let s := bump (trapRecord s f prog cluster t detail pos early) 0x701018
  let s := traceEv s 24 (8 + cluster) f none false (bytesLE 1 t.1 ++ bytesLE 2 t.2.1 ++ bytesLE 2 t.2.2.1)
  functionFault s f St.SHADER_TRAP pos

/-- The predicate of a provisional stage for an element. -/
def predOf (g : Prog) (e : Elem) (st : Nat) : Option Bool := Tab.get none e.preds (stageDecl g st).predicate

/-- A stage that the stage depends on has been erased for the element (R282). -/
def parentErased (g : Prog) (e : Elem) (st : Nat) : Bool :=
  (List.range st).any (fun s => dependsOn g st s && (stageElem e s).ending == .erased)

/-- Every lower stage has ended for every element (R278). -/
def lowerEnded (j : Job) (st : Nat) : Bool := (List.range st).all (fun k => (stageRun j k).phase == .ended)

/-- A stage has ended: its granules and clusters are released (R288). -/
def endStage (s : State) (j : Job) (st : Nat) : State :=
  modStage s j st (fun r => { r with phase := .ended, clusters := [], granules := [], claimWaiting := false })

/-- The fate of the elements of an early stage, in ascending element order: erased where a stage it depends on has been erased, whatever
its own predicate (R282), or where its predicate is false. -/
def settleEarly (s : State) (j : Job) (g : Prog) (st : Nat) : State :=
  (List.range j.elems.length).foldl (fun s i =>
    match (sameJob s j).elems[i]? with
    | none => s
    | some e =>
      let x := stageElem e st
      if x.ending != .undecided then s
      else if parentErased g e st || predOf g e st == some false then eraseSe s j i st St.PENCIL_ERASED
      else match x.trap with
        | some t =>
          if predOf g e st == some true && !fnHalted s j.fn then
            trapFault s j.fn j.prog (t.2.2.2 / 1024 % 16) (t.1, t.2.1, t.2.2.1, t.2.2.2 % 1024) (t.2.2.2 / 2 ^ 14) e.pos true
          else s
        | none => s) s

/-- A stage whose undecided elements, if any, run under R280: those of `mine`, true without an erased parent. It ends where none is left. -/
def runFirm (s : State) (j : Job) (g : Prog) (st : Nat) (mine : StageElem → Bool) : State :=
  let k := sameJob s j
  let s := (List.range k.elems.length).foldl (fun s i =>
    match k.elems[i]? with
    | none => s
    | some e =>
      let x := stageElem e st
      if x.ending != .undecided || !mine x then s
      else if parentErased g e st then eraseSe s j i st St.PENCIL_ERASED
      else if predOf g e st == some false then modSe (bump s (penCtr 3)) j i st (fun x => { x with ending := .skipped })
      else modSe s j i st (fun x => { x with ending := .ran })) s
  if (sameJob s j).elems.any (fun e => (stageElem e st).ending == .ran) then
    modStage s j st (fun r => { r with phase := .firm, nextOp := 0, clusters := [], claimWaiting := false })
  else endStage s j st

/-- Begin a provisional stage that did not start early, once every lower stage has ended and every element's predicate is known, or
needless for an erased parent: it runs for the true elements and skips the others (R280, R282). -/
def beginLate (s : State) (j : Job) (g : Prog) (st : Nat) : State :=
  let k := sameJob s j
  if k.elems.all (fun e => (predOf g e st).isSome || parentErased g e st) then
    runFirm (if (stageRun k st).claimWaiting then bump s (penCtr 5) else s) j g st (fun _ => true)
  else s

/-- An early stage whose every element is decided ends; one that left elements to R280 runs for them once every lower stage has ended,
its early clusters released before. -/
def closeEarly (s : State) (j : Job) (g : Prog) (st : Nat) : State :=
  let k := sameJob s j
  if k.elems.any (fun e => (stageElem e st).ending == .undecided && !(stageElem e st).late) then s
  else if !(k.elems.any (fun e => (stageElem e st).ending == .undecided)) then endStage s j st
  else if lowerEnded k st then runFirm s j g st (·.late)
  else modStage s j st (fun r => { r with phase := .earlyDone, clusters := [] })

/-- Bring the provisional stages of a job up to date, in ascending order, after a predicate or a stage has changed. Room that erased work
leaves on the shader cores is filled (R298). -/
def settleStages (s : State) (j : Job) (g : Prog) : State :=
  refill ((List.range g.stages.length).foldl (fun s st =>
    if !(s.tt.jobs.any (fun k => k.order == j.order && k.live)) || !(stageDecl g st).prov then s
    else match (stageRun (sameJob s j) st).phase with
      | .early => closeEarly (settleEarly s j g st) j g st
      | .earlyDone => closeEarly (settleEarly s j g st) j g st
      | .waiting => if lowerEnded (sameJob s j) st then beginLate s j g st else s
      | _ => s) s)

/-- Resolve a predicate of element i, if nothing has resolved it (R121, R277). -/
def resolvePred (s : State) (j : Job) (i pred : Nat) (v host : Bool) : State :=
  match (sameJob s j).elems[i]? with
  | none => s
  | some e =>
    if (Tab.get none e.preds pred).isSome then s
    else
      let s := modElem s j i (fun e => { e with preds := Tab.set none e.preds pred (some v) })
      traceEv s 21 1 j.fn none false (bytesLE 1 pred ++ [BitVec.ofNat 8 (b2n v), BitVec.ofNat 8 (b2n host)])

/-! ### RESOLVE_PENCIL (Table 4.9, R121, R276, R277) -/

/-- A program declares a predicate host-resolved. -/
def hostResolved (g : Prog) (pred : Nat) : Bool := g.stages.any (fun d => d.prov && d.predHost && d.predicate == pred)

/-- The word is kept by a step that waits for its step job. -/
def resolveStepWait (s : State) (f pos pred : Nat) (v : Bool) : State :=
  { s with tt := { s.tt with steps := s.tt.steps.map (fun w =>
      if w.fn = f ∧ w.pos = pos then { w with elem := { w.elem with preds := Tab.set none w.elem.preds pred (some v) } } else w) } }

/-- RESOLVE_PENCIL: BAD_PARAM under its checks; RESULT 2 where no job stands there, 1 where every element is resolved. A target still
held at dispatch gets no word (log entry 98). -/
def dispResolve (s : State) (f : Nat) (p : Packet) : State :=
  let target := (p.dw 4).toNat
  let pred := p.bits 5 5 0
  let v := p.dw 6 != 0
  if p.fBarrier then refusePkt s f p.pos St.BAD_PARAM true
  else match getJob s f target with
    | some j =>
      match (if j.cut.isSome then none else getProg s f j.prog) with
      | none => finishPkt s f p.pos St.DONE 2
      | some g =>
        if !hostResolved g pred then refusePkt s f p.pos St.BAD_PARAM true
        else
          let is := (List.range j.elems.length).filter (fun i => ((j.elems[i]?).map (·.pos)) == some target)
          let open_ := is.filter (fun i => ((j.elems[i]?).map (fun e => (Tab.get none e.preds pred).isNone)).getD false)
          if open_.isEmpty then finishPkt s f p.pos St.DONE 1
          else
            let s := open_.foldl (fun s i => resolvePred s j i pred v true) s
            finishPkt (if j.running then settleStages s j g else s) f p.pos St.DONE 0
    | none =>
      match s.tt.steps.find? (fun w => w.fn == f && w.pos == target) with
      | none => finishPkt s f p.pos St.DONE 2
      | some w =>
        match getProg s f w.prog with
        | none => finishPkt s f p.pos St.DONE 2
        | some g =>
          if !hostResolved g pred then refusePkt s f p.pos St.BAD_PARAM true
          else if (Tab.get none w.elem.preds pred).isSome then finishPkt s f p.pos St.DONE 1
          else finishPkt (resolveStepWait s f target pred v) f p.pos St.DONE 0

/-- RESOLVE_PENCIL. -/
def execPktResolvePencil (f pos : Nat) (s : State) : Out := .next (dispatchAs s f pos 0x16 dispResolve)

/-! ### The start of a job -/

/-- JOB_START. A pass that is due runs first; a stage whose predicate the host has resolved while the job was queued takes its way at once
(R121, R280). -/
def execJobStart (f pos : Nat) (s : State) : Out :=
  .next (let s := duePass s
    match getJob s f pos with
    | some j =>
      if j.selected && !j.running && j.clusters.all (fun n => clusterSt s n == .idle) then
        let s := jobStart s j
        match getProg s j.fn j.prog with
        | some g => settleStages s j g
        | none => s
      else s
    | none => s)

/-! ### Early start (R279, R287) -/

/-- Granules of a program's pool that its jobs hold. -/
def heldGranules (s : State) (f id : Nat) : List Nat :=
  ((s.tt.jobs.filter (fun j => j.fn == f && j.prog == id)).map (fun j => (j.stages.map (fun x => x.2.granules)).flatten)).flatten

/-- A claim of the program that comes before a stage of a job is waiting: by job dispatch, then stage (R287). -/
def earlierClaim (s : State) (j : Job) (st : Nat) : Bool :=
  s.tt.jobs.any (fun k => k.fn == j.fn && k.prog == j.prog && k.stages.any (fun x =>
    x.2.claimWaiting && (decide (k.order < j.order) || (k.order == j.order && decide (x.1 < st)))))

/-- Every condition of R279 but the claim. -/
def mayStartEarly (j : Job) (g : Prog) (st : Nat) : Bool :=
  let d := stageDecl g st
  j.live && d.prov && (j.elems.all (·.prov)) && decide (0 < d.earlyClusters) && (stageRun j st).phase == .waiting &&
  (d.earlyAfter == 0x7F || (stageRun j d.earlyAfter).phase == .ended) &&
  j.elems.any (fun e => (predOf g e st).isNone) &&
  (List.range st).all (fun s => !(dependsOn g st s && j.elems.all (fun e => (stageElem e s).ending == .erased))) &&
  decide (d.earlyClusters < (j.clusters.filter (fun n => !(earlyClusters j).contains n)).length)

/-- Start a stage in pencil, or leave its claim waiting (R279, R281, R287). Only elements whose predicate is unresolved start: a false one
is skipped, a true one is left to R280 (Table 11.2, log entry 110). -/
def startEarly (s : State) (j : Job) (g : Prog) (st : Nat) : State :=
  let d := stageDecl g st
  let need := j.elems.length * stagePencil g st / 4096
  let held := heldGranules s j.fn j.prog
  let free := (List.range (g.pblocks.length * 16)).filter (fun n => !held.contains n)
  let tr (s : State) (ok : Bool) : State := traceEv s 20 1 j.fn none true ([BitVec.ofNat 8 (b2n ok), BitVec.ofNat 8 st] ++ bytesLE 2 need)
  if earlierClaim s j st || decide (free.length < need) then
    if (stageRun j st).claimWaiting then s
    else tr (modStage (bump s (penCtr 4)) j st (fun r => { r with claimWaiting := true })) false
  else
    let avail := j.clusters.filter (fun n => !(earlyClusters j).contains n)
    let cl := avail.drop (avail.length - d.earlyClusters)
    let s := modStage s j st (fun r => { r with phase := .early, clusters := cl, granules := free.take need, claimWaiting := false })
    let s := tr s true
    (List.range j.elems.length).foldl (fun s i =>
      match j.elems[i]? with
      | none => s
      | some e =>
        if parentErased g e st then eraseSe s j i st St.PENCIL_ERASED
        else match predOf g e st with
          | some false => modSe (bump s (penCtr 3)) j i st (fun x => { x with ending := .skipped })
          | some true => modSe s j i st (fun x => { x with late := true })
          | none => bump s (penCtr 0)) s

/-- EARLY_START. -/
def execEarlyStart (f pos st : Nat) (s : State) : Out :=
  .next (match getJob s f pos with
    | none => s
    | some j => match getProg s f j.prog with
      | none => s
      | some g => if mayStartEarly j g st then settleStages (startEarly s j g st) j g else s)

/-- Every operator of a stage has finished. -/
def opsDone (g : Prog) (j : Job) (st : Nat) : Bool := decide ((stageOps g st).length ≤ (stageRun j st).nextOp)

/-- EARLY_WORK_END: the last operator has finished; the clusters are released (R281). -/
def execEarlyWorkEnd (f pos st : Nat) (s : State) : Out :=
  .next (match getJob s f pos with
    | none => s
    | some j => match getProg s f j.prog with
      | none => s
      | some g =>
        if j.live && (stageRun j st).phase == .early && opsDone g j st then
          settleStages (modStage s j st (fun r => { r with phase := .earlyDone, clusters := [] })) j g
        else s)

/-! ### Inking (R290) -/

/-- A stage-element is ready to be inked: its predicate is true, its early work has finished, and the stages it depends on
have been inked, have run, or were skipped (log entry 75). -/
def inkReady (g : Prog) (e : Elem) (st : Nat) : Bool :=
  (stageElem e st).ending == .undecided && !(stageElem e st).late && predOf g e st == some true && (stageElem e st).trap.isNone &&
  (List.range st).all (fun s => !dependsOn g st s || [SeEnd.inked, SeEnd.ran, SeEnd.skipped].contains (stageElem e s).ending)

/-- The context of an element for inking, and for reading `RESOLVE_REF`. -/
def stageCtx (j : Job) (g : Prog) (e : Elem) (st : Nat) : OpCtx := ⟨j, g, e, st, 0, [], false, opClusters j st⟩

/-- The pencilled bytes of a stage-element by the operator that wrote them, then by its reference, then by address (R290). -/
def OpCtx.inkBytes (c : OpCtx) : List Wr :=
  let x := stageElem c.e c.st
  let all : List (Nat × Wr) := x.pva.filterMap (fun e => e.2.map (fun b => (b.1, (Place.va e.1, b.2)))) ++
    x.pscr.filterMap (fun e => e.2.map (fun b => (b.1, (Place.scr e.1, b.2))))
  ((stageOps c.g c.st).map (fun o =>
    let refs := c.outRefs o
    let mine := (all.filter (fun w => w.1 == o)).map (fun w =>
      ((refs.findIdx? (fun r => r.any (fun q => w.2.1.within q.1 q.2))).getD refs.length, w.2))
    ((List.range (refs.length + 1)).map (fun k => (mine.filter (fun w => w.1 == k)).map (·.2))).flatten)).flatten

/-- Ranges that inking writes. -/
def inkRanges (ws : List Wr) : List Range :=
  ws.filterMap (fun w => match w.1 with
    | .va a => some ⟨a, 1, true⟩
    | .scr _ => none)

/-- Ink element i of a stage. -/
def inkSe (s : State) (j : Job) (g : Prog) (st i : Nat) : State :=
  match (sameJob s j).elems[i]? with
  | none => s
  | some e =>
    let x := stageElem e st
    let ws := (stageCtx j g e st).inkBytes
    let s := traceEv s 22 1 j.fn none false ([1, BitVec.ofNat 8 st] ++ bytesLE 4 ws.length)
    let s := writeElem s (j.clusters.headD 0) j g i false ws
    let s := bumpBy (bump s (penCtr 1)) (penCtr 6) ws.length
    let s := traceEv s 22 1 j.fn none false ([0, BitVec.ofNat 8 st] ++ bytesLE 4 ws.length)
    let s := modElem s j i (fun e => { e with sat := e.sat || x.sat })
    modSe s j i st (fun x => { StageElem.reset with ending := .inked, tiles := x.tiles })

/-- INK_END: every ready element of the stage is inked, in ascending order, and what waited for it proceeds. -/
def execInkEnd (f pos st : Nat) (s : State) : Out :=
  .next (match getJob s f pos with
    | none => s
    | some j => match getProg s f j.prog with
      | none => s
      | some g =>
        if !j.live || (stageRun j st).phase != .earlyDone then s
        else
          let is := (List.range j.elems.length).filter (fun i => ((j.elems[i]?).map (fun e => inkReady g e st)).getD false)
          let rs := (is.map (fun i => ((j.elems[i]?).map (fun e => inkRanges (stageCtx j g e st).inkBytes)).getD [])).flatten
          match blockRanges s (j.clusters.headD 0) f rs with
          | .fails code va wr => rangesFault s (j.clusters.headD 0) f rs va wr code pos
          | .waits => askRanges s .job (j.clusters.headD 0) 4 1 f pos rs
          | .none =>
            let s := is.foldl (fun s i => inkSe s j g st i) s
            settleStages (raiseMet s) j g)

/-! ### The end of a firm stage (R277, R278) -/

/-- Ranges that reading a stage's predicate words needs. -/
def resolveRanges (j : Job) (g : Prog) (st : Nat) : List Range :=
  let r := sref (stageDecl g st).resolveRef 0
  j.elems.filterMap (fun e => match (stageCtx j g e st).at r.kind r.index r.off with
    | .va a => some ⟨a, 4, false⟩
    | .scr _ => none)

/-- Resolve the stage's predicate in every element from its word. -/
def resolveAll (s : State) (j : Job) (g : Prog) (st : Nat) : State :=
  let d := stageDecl g st
  let r := sref d.resolveRef 0
  (List.range j.elems.length).foldl (fun t i =>
    match j.elems[i]? with
    | none => t
    | some e =>
      let c := stageCtx j g e st
      resolvePred t j i d.resolvePred (c.num s (c.at r.kind r.index r.off) 4 != 0) false) s

/-- A firm stage, or one that runs as firm, ends. -/
def finishStage (s : State) (j : Job) (g : Prog) (st : Nat) : State :=
  let s := endStage s j st
  let s := traceEv s 19 1 j.fn none false [BitVec.ofNat 8 st, BitVec.ofNat 8 (if (stageDecl g st).prov then 3 else 0)]
  settleStages s j g

/-- STAGE_END: the last operator has written all its results. -/
def execStageEnd (f pos st : Nat) (s : State) : Out :=
  .next (match getJob s f pos with
    | none => s
    | some j => match getProg s f j.prog with
      | none => s
      | some g =>
        let d := stageDecl g st
        let r := stageRun j st
        if !j.live || decide (g.stages.length ≤ st) || !opsDone g j st || !lowerEnded j st then s
        else if d.prov then (if r.phase = .firm then finishStage s j g st else settleStages s j g)
        else if r.phase = .ended then s
        else if !d.resolves then finishStage s j g st
        else
          let rs := resolveRanges j g st
          let who := (opClusters j st).headD 0
          match blockRanges s who f rs with
          | .fails code va wr => rangesFault s who f rs va wr code pos
          | .waits => askRanges s .job who 4 1 f pos rs
          | .none =>
            let s' := resolveAll (rs.foldl (fun s x => touchVA s who f x.va x.len true false) s) j g st
            finishStage (raiseMet (forgetRemote s' who f rs)) j g st)

end Sys2Proof.Machine
end

