-- ==== Sys2Proof/Machine/Tensor.lean ====
section
/-! DEFINITION. The tensor-array and vector-unit operators (10.4, 10.5): what each family computes, status maps, tensor tiles,
and the rows of the operators. Every family computes the rows of its output; one routine converts and writes them. -/

namespace Sys2Proof.Machine

/-! ### Elements of a tensor (R255) -/

/-- Bits of one element. -/
def OpCtx.bitsAt (c : OpCtx) (s : State) (r : TRef) (i3 i2 i1 i0 : Nat) : Nat :=
  let row := r.rowOff i3 i2 i1
  if codeBits r.fmt = 4 then
    let b := (c.byte s (c.at r.kind r.index (row + i0 / 2))).toNat
    if i0 % 2 = 0 then b % 16 else b / 16
  else
    let n := codeBits r.fmt / 8
    c.num s (c.at r.kind r.index (row + i0 * n)) n

/-- One element as a number. -/
def OpCtx.elem (c : OpCtx) (s : State) (r : TRef) (i3 i2 i1 i0 : Nat) : Num :=
  let b := c.bitsAt s r i3 i2 i1 i0
  if r.fmt = 9 then
    decodeMx b (c.byte s (c.at r.kind r.index (r.scale + ((i3 * r.d2 + i2) * r.d1 + i1) * ceilDiv r.d0 32 + i0 / 32))).toNat
  else decodeNum r.fmt b

/-- One element of a dense vector of 32-bit values at a short reference: S32 (code 10) or FP32 (code 8). -/
def OpCtx.vec (c : OpCtx) (s : State) (r : SRef) (code i : Nat) : Num :=
  decodeNum code (c.num s (c.at r.kind r.index (r.off + 4 * i)) 4)

/-- An FP32 word of the descriptor. -/
def OpCtx.f32At (c : OpCtx) (i : Nat) : Num := decodeNum 8 (wd c.w i)

/-- An element as the tensor array reads it, with the flags of reading it (R242, R243). -/
def OpCtx.arr (c : OpCtx) (s : State) (r : TRef) (i3 i2 i1 i0 : Nat) : Flagged Num := arrayOperand r.fmt (c.elem s r i3 i2 i1 i0)

/-- An element as the vector unit reads it (R265). -/
def OpCtx.vin (c : OpCtx) (s : State) (r : TRef) (i3 i2 i1 i0 : Nat) : Flagged Num := f32 (c.elem s r i3 i2 i1 i0)

/-! ### FP32 steps that carry flags -/

/-- Flags of two values. -/
def fl2 (a b : Nat) : Nat := Nat.lor a b

def fAdd (a b : Flagged Num) : Flagged Num := let r := f32 (Num.add a.1 b.1); (r.1, fl2 (fl2 a.2 b.2) r.2)
def fMul (a b : Flagged Num) : Flagged Num := let r := f32 (Num.mul a.1 b.1); (r.1, fl2 (fl2 a.2 b.2) r.2)
def fSub (a b : Flagged Num) : Flagged Num := let r := f32 (Num.add a.1 b.1.neg); (r.1, fl2 (fl2 a.2 b.2) r.2)
def fDiv (a b : Flagged Num) : Flagged Num := let r := f32 (Num.div 24 a.1 b.1); (r.1, fl2 (fl2 a.2 b.2) r.2)
def fMax (a b : Flagged Num) : Flagged Num := (Num.max a.1 b.1, fl2 a.2 b.2)
def fMin (a b : Flagged Num) : Flagged Num := (Num.min a.1 b.1, fl2 a.2 b.2)

/-- A value without flags, and an integer. -/
def fV (x : Num) : Flagged Num := (x, if x = .nan then Fl.NAN else 0)
def fI (i : Int) : Flagged Num := (Num.ofInt i, 0)

/-- One half. -/
def fHalf : Flagged Num := (.fin false 1 (-1), 0)

/-- Sum of a list in order: the first value, then each addition rounded (R265). -/
def fSum : List (Flagged Num) → Flagged Num
  | [] => (Num.zero, 0)
  | x :: xs => xs.foldl fAdd x

/-- A function of the vector unit: its exact value, and the device's own bits within the bound (R264). -/
def fUn (exact : Num → Num) (device : W32 → W32) (x : Flagged Num) : Flagged Num :=
  let y := vBounded (exact x.1) (num32 (device (word32 x.1)))
  (y.1, fl2 x.2 y.2)

/-! ### The epilogue (R262) -/

/-- Steps 1 to 3 of the epilogue on an FP32 value of output column n. -/
def OpCtx.epilogue (c : OpCtx) (s : State) (n : Nat) (v : Flagged Num) : Flagged Num :=
  let w := c.w
  let v := if opScaleEn w then fMul v (fV (c.vec s (sref w 7) 8 n)) else v
  let v := match opAct w with
    | 1 => fMax v (Num.zero, 0)
    | 2 => fMin (fMax v (fV (c.f32At 2))) (fV (c.f32At 3))
    | 3 => if v.1.isNeg && v.1 != .nan && Num.lt v.1 Num.zero then fMul v (fV (c.f32At 2)) else v
    | _ => v
  if fmtInt (tref w 16).fmt then fAdd v (fI (signedOf 16 (wf w 4 15 0))) else v

/-- Initial value of output column n: `BIAS`, or 0 (R261). -/
def OpCtx.bias (c : OpCtx) (s : State) (n : Nat) : Num :=
  if opBiasEn c.w then c.vec s (sref c.w 5) (if opMode c.w = 0 && famArray (opFamily c.w) then 10 else 8) n else Num.zero

/-! ### Rows of results -/

/-- One output row: its place (d3, d2, d1), and each element's value before conversion; `none` is a plain zero that sets no
flag. -/
structure Row where
  i3 : Nat
  i2 : Nat
  i1 : Nat
  vals : List (Option (Flagged Num))
  deriving DecidableEq, Repr

/-- Elements of a row in the output format, and each one's flags; scale bytes for MXFP4 (R235, R237). -/
def packRow (fmt : Nat) (vs : List (Option (Flagged Num))) : List Nat × List Nat × List Nat :=
  let num (v : Option (Flagged Num)) : Num := (v.map (·.1)).getD Num.zero
  let fl (v : Option (Flagged Num)) : Nat := (v.map (·.2)).getD 0
  if fmt = 9 then
    let bs := (runsOf 32 vs.length vs).map (fun b => (b, mxBlock (b.map num)))
    ((bs.map (fun b => b.2.2.1)).flatten, (bs.map (fun b => b.1.map (fun v => if v.isNone then 0 else fl2 (fl v) b.2.2.2))).flatten,
      bs.map (fun b => b.2.1))
  else
    let es := vs.map (fun v => match v with
      | none => ((0, 0) : Flagged Nat)
      | some x => let r := encodeNum .rne fmt x.1; (r.1, fl2 x.2 r.2))
    (es.map (·.1), es.map (·.2), [])

/-- Bytes of packed elements. -/
def packBytes (fmt : Nat) : List Nat → List Byte
  | [] => []
  | [x] => if codeBits fmt = 4 then [BitVec.ofNat 8 x] else bytesLE (codeBits fmt / 8) x
  | x :: y :: xs =>
    if codeBits fmt = 4 then BitVec.ofNat 8 (x + 16 * y) :: packBytes fmt xs
    else bytesLE (codeBits fmt / 8) x ++ packBytes fmt (y :: xs)

/-- Tensor tile (tm × TN + tn) of an output element (R268). -/
def tileOf (w : List W32) (i3 i2 i1 i0 : Nat) : Nat :=
  let o := tref w 16
  match opFamily w with
  | 0x01 =>
    let n := opN w
    ((i3 * o.d2 + i2) * o.d1 + i1) / 128 * opTN w + i0 / max 1 n * ceilDiv n 128 + i0 % max 1 n / 128
  | 0x02 => (i2 * ceilDiv (opM w) 128 + i1 / 128) * opTN w + i0 / 128
  | 0x03 => (i2 * ceilDiv (opM w) 128 + i1 / 128) * opTN w + i0 / 128
  | _ => 0

/-- What an operator leaves for one element: bytes to write, and the status byte of each tensor tile. -/
structure OpResult where
  writes : List Wr
  flags : Tab Nat
  deriving DecidableEq, Repr

/-- Bytes and flags of an output row. -/
def OpCtx.rowOut (c : OpCtx) (r : Row) : List Wr × List (Nat × Nat) :=
  let o := tref c.w 16
  let q := packRow o.fmt r.vals
  let base := c.at o.kind o.index (o.rowOff r.i3 r.i2 r.i1)
  let sb := c.at o.kind o.index (o.scale + ((r.i3 * o.d2 + r.i2) * o.d1 + r.i1) * ceilDiv o.d0 32)
  ((packBytes o.fmt q.1).mapIdx (fun k b => (base.add k, b)) ++ q.2.2.mapIdx (fun k b => (sb.add k, BitVec.ofNat 8 b)),
   q.2.1.mapIdx (fun k f => (tileOf c.w r.i3 r.i2 r.i1 k, f)))

/-- Bytes of the status map: the status of each tensor tile, bit 7 set (R249, 9.8). -/
def OpCtx.mapOut (c : OpCtx) (flags : Tab Nat) : List Wr :=
  if !opMapEn c.w then []
  else
    let m := sref c.w 9
    let tiles := opTM c.w * opTN c.w
    let base := c.at m.kind m.index (m.off + c.mapIndex * tiles)
    (List.range tiles).map (fun t => (base.add t, BitVec.ofNat 8 (Nat.lor Fl.DONE (Tab.get 0 flags t))))

/-- The result of an operator that computes rows. -/
def OpCtx.result (c : OpCtx) (rows : List Row) : OpResult :=
  let rs := rows.map c.rowOut
  let flags := (rs.map (·.2)).flatten.foldl (fun (t : Tab Nat) x => Tab.set 0 t x.1 (Nat.lor (Tab.get 0 t x.1) x.2)) []
  { writes := (rs.map (·.1)).flatten ++ c.mapOut flags, flags := flags }

/-- Rows of the output, in ascending order of (d3, d2, d1). -/
def rowsOf (o : TRef) (vals : Nat → Nat → Nat → List (Option (Flagged Num))) : List Row :=
  ((List.range o.d3).map (fun a => ((List.range o.d2).map (fun b =>
    (List.range o.d1).map (fun d => ⟨a, b, d, vals a b d⟩))).flatten)).flatten

/-- A row computed element by element. -/
def rowVals (n : Nat) (v : Nat → Flagged Num) : List (Option (Flagged Num)) := (List.range n).map (fun k => some (v k))

/-! ### CONV and MATMUL (R261) -/

/-- A product of two operands, with their flags. -/
def prod (a b : Flagged Num) : Flagged Num := (Num.mul a.1 b.1, fl2 a.2 b.2)

/-- The LFSR of an output element's lane before its first draw: row i of the tile uses draws i × K + 1 on (R245, R246). -/
def OpCtx.lane (c : OpCtx) (tm tn row lane k : Nat) : Nat :=
  if opMode c.w = Mode.lean then lfsrAfter (laneSeed c.e.seed tm tn c.op c.e.idx lane) (row * k) else 0

/-- One output element: the accumulation, then the epilogue. -/
def OpCtx.dot (c : OpCtx) (s : State) (u n : Nat) (ps : List (Flagged Num)) : Flagged Num :=
  let a := accumulate (opMode c.w) (opChunk c.w) u (c.bias s n) (ps.map (·.1))
  let v := f32 a.1
  c.epilogue s n (v.1, fl2 (fl2 a.2 v.2) (ps.foldl (fun f p => fl2 f p.2) 0))

/-- The value that a tap in padding reads (R261): as many low bits of `PAD_VALUE` as the input format has (log entry 111). -/
def OpCtx.pad (c : OpCtx) : Flagged Num :=
  let a := tref c.w 28
  let b := wf c.w 54 15 0 % 2 ^ codeBits a.fmt
  arrayOperand a.fmt (if a.fmt = 9 then decodeMx (b % 16) (Config.padScale % 256) else decodeNum a.fmt b)

/-- A tap of a window: input index of output index y and kernel index k, where it lies inside. -/
def tap (y st k d pad size : Nat) : Option Nat :=
  let p := y * st + k * d
  if p < pad then none else if size ≤ p - pad then none else some (p - pad)

/-- Products of one CONV output in the order (kh, kw, c). -/
def OpCtx.convProducts (c : OpCtx) (s : State) (bt oy ox col : Nat) : List (Flagged Num) :=
  let a := tref c.w 28
  let b := tref c.w 40
  let x := window c.w
  let grp := col / max 1 (opN c.w)
  let cin := b.d0
  ((List.range x.kh).map (fun kh => ((List.range x.kw).map (fun kw =>
    (List.range cin).map (fun ch =>
      let v := match tap oy x.sh kh x.dh x.pt a.d2, tap ox x.sw kw x.dw x.pl a.d1 with
        | some iy, some ix => c.arr s a bt iy ix (grp * cin + ch)
        | _, _ => c.pad
      prod v (c.arr s b col kh kw ch)))).flatten)).flatten

/-- CONV. -/
def OpCtx.conv (c : OpCtx) (s : State) : OpResult :=
  let o := tref c.w 16
  let n := max 1 (opN c.w)
  let k := opK c.w
  c.result (rowsOf o (fun bt oy ox => rowVals o.d0 (fun col =>
    let m := (bt * o.d2 + oy) * o.d1 + ox
    let tn := col / n * ceilDiv n 128 + col % n / 128
    c.dot s (c.lane (m / 128) tn (m % 128) (col % n % 128) k) col (c.convProducts s bt oy ox col))))

/-- MATMUL. -/
def OpCtx.matmul (c : OpCtx) (s : State) : OpResult :=
  let o := tref c.w 16
  let a := tref c.w 28
  let b := tref c.w 40
  let k := opK c.w
  c.result (rowsOf o (fun _ bt m => rowVals o.d0 (fun n =>
    let tm := bt * ceilDiv (opM c.w) 128 + m / 128
    c.dot s (c.lane tm (n / 128) (m % 128) (n % 128) k) n
      ((List.range k).map (fun i => prod (c.arr s a 0 bt m i) (c.arr s b 0 (if b.d2 = 1 then 0 else bt) n i))))))

/-! ### ATTENTION (R263) -/

/-- A dot product under the operator's mode, converted to FP32. -/
def OpCtx.attnDot (c : OpCtx) (u : Nat) (ps : List (Flagged Num)) : Flagged Num :=
  let a := accumulate (opMode c.w) (opChunk c.w) u Num.zero (ps.map (·.1))
  let v := f32 a.1
  (v.1, fl2 (fl2 a.2 v.2) (ps.foldl (fun f p => fl2 f p.2) 0))

/-- The LFSR before a dot product of K steps for row i of head h, in the lane of a column: the lane is seeded for its tensor tile (R245),
and a row's draws follow those of the rows before it (R246). Where in the lane's sequence each part of the work begins is free, and so is
the tile column of a block of keys (log entry 20). -/
def OpCtx.attnLane (c : OpCtx) (pass h i col k : Nat) : Nat :=
  let tm := h * ceilDiv (opM c.w) 128 + i / 128
  let blk := col / 128
  let tn := if pass = 0 then Config.attnTile blk % max 1 (opTN c.w) else blk
  let start := Config.attnStart pass (if pass = 0 then blk else 0) % 65536
  if opMode c.w = Mode.lean then lfsrAfter (laneSeed c.e.seed tm tn c.op c.e.idx (col % 128)) (start + i % 128 * k) else 0

/-- Scores of row i of head h: key index and score of each key kept. -/
def OpCtx.scores (c : OpCtx) (s : State) (h i : Nat) : List (Nat × Flagged Num) :=
  let q := tref c.w 28
  let kk := tref c.w 40
  let mask := wf c.w 12 1 0
  ((List.range kk.d1).filter (fun (j : Nat) => mask != 1 || decide ((j : Int) ≤ (i : Int) + kk.d1 - q.d1))).map (fun j =>
    let d := c.attnDot (c.attnLane 0 h i j q.d0)
      ((List.range q.d0).map (fun x => prod (c.arr s q 0 h i x) (c.arr s kk 0 h j x)))
    let v := fMul d (fV (c.f32At 11))
    (j, if mask = 2 then fAdd v (fV (c.vec s (sref c.w 13) 8 (i * kk.d1 + j))) else v))

/-- One output row of ATTENTION; a row that keeps no key is written as zeros. -/
def OpCtx.attnRow (c : OpCtx) (s : State) (h i : Nat) : List (Option (Flagged Num)) :=
  let v := tref c.w 52
  let sc := c.scores s h i
  match sc with
  | [] => List.replicate v.d0 none
  | x :: xs =>
    let m := xs.foldl (fun a y => fMax a y.2) x.2
    let es := sc.map (fun y => (y.1, fUn Num.exp Config.expF (fSub y.2 m)))
    let z := fSum (es.map (·.2))
    let ps := es.map (fun y =>
      let p := fDiv y.2 z
      let b := encodeNum .rne v.fmt p.1
      let q := arrayOperand v.fmt (decodeNum v.fmt b.1)
      (y.1, ((q.1, fl2 (fl2 p.2 b.2) q.2) : Flagged Num)))
    (List.range v.d0).map (fun n =>
      let d := c.attnDot (c.attnLane 1 h i n v.d1) (ps.map (fun p => prod p.2 (c.arr s v 0 h p.1 n)))
      some (c.epilogue s n d))

/-- ATTENTION. -/
def OpCtx.attention (c : OpCtx) (s : State) : OpResult := c.result (rowsOf (tref c.w 16) (fun _ h i => c.attnRow s h i))

/-! ### Vector-unit families (R265) -/

/-- A value of a vector-unit family after bias and the rest of the epilogue. -/
def OpCtx.vout (c : OpCtx) (s : State) (n : Nat) (v : Flagged Num) : Flagged Num :=
  c.epilogue s n (if opBiasEn c.w then fAdd v (fV (c.bias s n)) else v)

/-- The operation of ELTWISE on one element. -/
def OpCtx.eltOp (c : OpCtx) (s : State) (i3 i2 i1 i0 : Nat) : Flagged Num :=
  let o := wf c.w 52 7 0
  let a := c.vin s (tref c.w 28) i3 i2 i1 i0
  let al := fV (c.f32At 53)
  let be := fV (c.f32At 54)
  if 1 ≤ o ∧ o ≤ 5 then
    let x := fMul al a
    let y := fMul be (c.vin s (tref c.w 40) i3 i2 i1 i0)
    match o with
    | 1 => fAdd x y
    | 2 => fSub x y
    | 3 => fMul x y
    | 4 => fMax x y
    | _ => fMin x y
  else
    let x := fAdd (fMul al a) be
    match o with
    | 0x10 => (x.1.abs, x.2)
    | 0x11 => (x.1.neg, x.2)
    | 0x12 => fUn Num.exp Config.expF x
    | 0x13 => fUn Num.sigmoid Config.sigmoidF x
    | 0x14 => fUn Num.tanh Config.tanhF x
    | _ => x

/-- ELTWISE. -/
def OpCtx.eltwise (c : OpCtx) (s : State) : OpResult :=
  let o := tref c.w 16
  c.result (rowsOf o (fun a b d => rowVals o.d0 (fun n => c.vout s n (c.eltOp s a b d n))))

/-- A free FP32 value for a result the spec does not state: the same for the same program, element and place (R248, log entry 2). -/
def OpCtx.open_ (c : OpCtx) (place : List Nat) : Flagged Num := fV (num32 (Config.openResult c.w (c.op :: c.e.idx :: c.e.seed :: place)))

/-- Largest, smallest of a list; a NaN makes it NaN. `d` where the list is empty. -/
def fMaxL (d : Flagged Num) : List (Flagged Num) → Flagged Num
  | [] => d
  | x :: xs => xs.foldl fMax x
def fMinL (d : Flagged Num) : List (Flagged Num) → Flagged Num
  | [] => d
  | x :: xs => xs.foldl fMin x

/-- Taps of a POOL window: the input where it lies inside the plane. -/
def OpCtx.poolTaps (c : OpCtx) (s : State) (bt oy ox n : Nat) : List (Option (Flagged Num)) :=
  let a := tref c.w 28
  let x := window c.w
  if wf c.w 54 18 18 = 1 then
    ((List.range a.d2).map (fun y => (List.range a.d1).map (fun z => some (c.vin s a bt y z n)))).flatten
  else
    ((List.range x.kh).map (fun kh => (List.range x.kw).map (fun kw =>
      match tap oy x.sh kh 1 x.pt a.d2, tap ox x.sw kw 1 x.pl a.d1 with
      | some y, some z => some (c.vin s a bt y z n)
      | _, _ => none))).flatten

/-- POOL of one output. A window that lies wholly in padding has no stated maximum, and no stated average without padding. -/
def OpCtx.poolOp (c : OpCtx) (s : State) (bt oy ox n : Nat) : Flagged Num :=
  let ts := c.poolTaps s bt oy ox n
  let ins := ts.filterMap (fun t => t)
  match wf c.w 54 17 16 with
  | 0 => fMaxL (c.open_ [bt, oy, ox, n]) ins
  | 1 => fDiv (fSum (ts.map (fun t => t.getD (Num.zero, 0)))) (fI ts.length)
  | _ => if ins.isEmpty then c.open_ [bt, oy, ox, n] else fDiv (fSum ins) (fI ins.length)

/-- POOL. -/
def OpCtx.pool (c : OpCtx) (s : State) : OpResult :=
  let o := tref c.w 16
  c.result (rowsOf o (fun a b d => rowVals o.d0 (fun n => c.vout s n (c.poolOp s a b d n))))

/-- Indices of a dimension that a REDUCE runs over at an output index. -/
def redIdx (axes d i n : Nat) : List Nat := if nbit axes d then List.range n else [i]

/-- REDUCE of one output. -/
def OpCtx.redOp (c : OpCtx) (s : State) (i3 i2 i1 i0 : Nat) : Flagged Num :=
  let a := tref c.w 28
  let ax := wf c.w 52 3 0
  let vs := ((redIdx ax 3 i3 a.d3).map (fun k3 => ((redIdx ax 2 i2 a.d2).map (fun k2 => ((redIdx ax 1 i1 a.d1).map (fun k1 =>
    (redIdx ax 0 i0 a.d0).map (fun k0 => c.vin s a k3 k2 k1 k0))).flatten)).flatten)).flatten
  match wf c.w 52 11 8 with
  | 0 => fSum vs
  | 1 => fDiv (fSum vs) (fI vs.length)
  | 2 => fMaxL (Num.zero, 0) vs
  | 3 => fMinL (Num.zero, 0) vs
  | _ =>
    let m := fMaxL (Num.zero, 0) vs
    if m.1 = .nan then m else (Num.ofInt ((vs.findIdx? (fun v => Num.eqv v.1 m.1)).getD 0 : Nat), m.2)

/-- REDUCE. -/
def OpCtx.reduce (c : OpCtx) (s : State) : OpResult :=
  let o := tref c.w 16
  c.result (rowsOf o (fun a b d => rowVals o.d0 (fun n => c.vout s n (c.redOp s a b d n))))

/-! ### RESIZE and CROP_GATHER (R265, R266) -/

/-- ⌊x⌋ of a finite value; 0 otherwise. -/
def floorNum (x : Num) : Int :=
  match x with
  | .fin n m e => roundInt .rdn n m e
  | _ => 0

/-- A coordinate clamped to 0 to n − 1. -/
def clampF (x : Flagged Num) (n : Nat) : Flagged Num := fMin (fMax x (Num.zero, 0)) (fI ((n : Int) - 1))

/-- The source coordinate of an output index (R265). -/
def srcCoord (y nIn nOut : Nat) : Flagged Num := clampF (fSub (fDiv (fMul (fAdd (fI y) fHalf) (fI nIn)) (fI nOut)) fHalf) nIn

/-- The two neighbours of a coordinate and the weight of the second. -/
def neighbours (x : Flagged Num) (n : Nat) : Nat × Nat × Flagged Num :=
  let y0 := floorNum x.1
  let c (i : Int) : Nat := (clampInt 0 ((n : Int) - 1) i).toNat
  (c y0, c (y0 + 1), fSub x (fI y0))

/-- a × (1 − f) + b × f. -/
def blend (a b f : Flagged Num) : Flagged Num := fAdd (fMul a (fSub (fI 1) f)) (fMul b f)

/-- Bilinear sample of a plane: columns before rows. -/
def OpCtx.bilinear (c : OpCtx) (s : State) (r : TRef) (bt : Nat) (y x : Flagged Num) (n : Nat) : Flagged Num :=
  let p := neighbours y r.d2
  let q := neighbours x r.d1
  blend (blend (c.vin s r bt p.1 q.1 n) (c.vin s r bt p.1 q.2.1 n) q.2.2)
    (blend (c.vin s r bt p.2.1 q.1 n) (c.vin s r bt p.2.1 q.2.1 n) q.2.2) p.2.2

/-- RESIZE of one output. -/
def OpCtx.resizeOp (c : OpCtx) (s : State) (bt y x n : Nat) : Flagged Num :=
  let a := tref c.w 28
  let o := tref c.w 16
  let sy := srcCoord y a.d2 o.d2
  let sx := srcCoord x a.d1 o.d1
  if wf c.w 52 1 0 = 0 then
    let near (v : Flagged Num) (k : Nat) : Nat := (clampInt 0 ((k : Int) - 1) (floorNum (fAdd v fHalf).1)).toNat
    c.vin s a bt (near sy a.d2) (near sx a.d1) n
  else c.bilinear s a bt sy sx n

/-- RESIZE. -/
def OpCtx.resize (c : OpCtx) (s : State) : OpResult :=
  let o := tref c.w 16
  c.result (rowsOf o (fun a b d => rowVals o.d0 (fun n => c.vout s n (c.resizeOp s a b d n))))

/-- An S32 count at a short reference, or a default where it is absent. -/
def OpCtx.count (c : OpCtx) (s : State) (i dflt : Nat) : Int :=
  let r := sref c.w i
  if r.present then signedOf 32 (c.num s (c.at r.kind r.index r.off) 4) else dflt

/-- Coordinate k of box b, in input coordinates; a box beyond the boxes given is free (log entry 2). -/
def OpCtx.boxAt (c : OpCtx) (s : State) (b k : Nat) : Flagged Num :=
  let r := tref c.w 40
  fMul (if b < r.d1 then c.vin s r 0 0 b k else c.open_ [b, k]) (fV (c.f32At 55))

/-- A sample's coordinate: lo + (i + (a + 0.5) / SAMPLES) × max(hi − lo, 0) / n. -/
def sampleAt (lo hi : Flagged Num) (i a smp n : Nat) : Flagged Num :=
  fAdd lo (fDiv (fMul (fAdd (fI i) (fDiv (fAdd (fI a) fHalf) (fI smp))) (fMax (fSub hi lo) (Num.zero, 0))) (fI n))

/-- A coordinate lies outside −1 to n. -/
def outside (x : Num) (n : Nat) : Bool := Num.lt x (Num.ofInt (-1)) || Num.lt (Num.ofInt n) x

/-- CROP_GATHER of one output. -/
def OpCtx.cropOp (c : OpCtx) (s : State) (b i j n : Nat) : Option (Flagged Num) :=
  let a := tref c.w 28
  let o := tref c.w 16
  let smp := wf c.w 52 3 0
  let x0 := c.boxAt s b 0
  let y0 := c.boxAt s b 1
  let x1 := c.boxAt s b 2
  let y1 := c.boxAt s b 3
  if x0.1 = .nan ∨ y0.1 = .nan ∨ x1.1 = .nan ∨ y1.1 = .nan then some (Num.zero, Fl.NAN)
  else
    let vs := ((List.range smp).map (fun p => (List.range smp).map (fun q =>
      let y := sampleAt y0 y1 i p smp o.d2
      let x := sampleAt x0 x1 j q smp o.d1
      if outside y.1 a.d2 || outside x.1 a.d1 then (Num.zero, fl2 y.2 x.2)
      else c.bilinear s a 0 (clampF y a.d2) (clampF x a.d1) n))).flatten
    some (c.vout s n (fDiv (fSum vs) (fI (smp * smp))))

/-- CROP_GATHER: boxes from the count on are written 0. -/
def OpCtx.crop (c : OpCtx) (s : State) : OpResult :=
  let o := tref c.w 16
  let k := (clampInt 0 o.d3 (c.count s 53 (tref c.w 40).d1)).toNat
  c.result (rowsOf o (fun b i j => (List.range o.d0).map (fun n => if b < k then c.cropOp s b i j n else none)))

/-! ### NMS (R267) -/

/-- A candidate: score, box, class. -/
structure Cand where
  score : Num
  box : Nat
  cls : Nat
  deriving DecidableEq, Repr

/-- Order of candidates: descending score, then ascending (box, class). -/
def Cand.first (a b : Cand) : Bool :=
  Num.lt b.score a.score || (Num.eqv a.score b.score && (decide (a.box < b.box) || (a.box == b.box && decide (a.cls < b.cls))))

/-- The best class of a box among scores that are not NaN, the lowest winning a tie. -/
def bestClass : List Cand → Option Cand
  | [] => none
  | x :: xs => some (xs.foldl (fun m y => if Num.lt m.score y.score then y else m) x)

/-- Area of a box, and IoU of two boxes, in FP32 (R267). -/
def boxArea (b : List (Flagged Num)) : Flagged Num :=
  let v (i : Nat) : Flagged Num := (b[i]?).getD (Num.zero, 0)
  fMul (fMax (Num.zero, 0) (fSub (v 2) (v 0))) (fMax (Num.zero, 0) (fSub (v 3) (v 1)))
def iou (a b : List (Flagged Num)) : Flagged Num :=
  let v (l : List (Flagged Num)) (i : Nat) : Flagged Num := (l[i]?).getD (Num.zero, 0)
  let inter := boxArea [fMax (v a 0) (v b 0), fMax (v a 1) (v b 1), fMin (v a 2) (v b 2), fMin (v a 3) (v b 3)]
  let union := fSub (fAdd (boxArea a) (boxArea b)) inter
  if Num.eqv union.1 Num.zero then (Num.zero, fl2 inter.2 union.2) else fDiv inter union

/-- Keep candidates in order: each whose IoU with every kept one (of its class, with `PER_CLASS`) is at most the threshold. -/
def nmsKeep (box : Nat → List (Flagged Num)) (thr : Num) (per : Bool) (top : Nat) : List Cand → List Cand → List Cand
  | kept, [] => kept
  | kept, x :: xs =>
    if top ≤ kept.length then kept
    else
      let ok := kept.all (fun k => (per && k.cls != x.cls) ||
        (let v := (iou (box k.box) (box x.box)).1; Num.lt v thr || Num.eqv v thr))
      nmsKeep box thr per top (if ok then kept ++ [x] else kept) xs

/-- NMS: `REF_1` holds the boxes, `REF_2` the scores (log entry 22). Unused rows are −1. -/
def OpCtx.nms (c : OpCtx) (s : State) : OpResult :=
  let a := tref c.w 28
  let sc := tref c.w 40
  let o := tref c.w 16
  let per := wf c.w 55 0 0 == 1
  let n := (clampInt 0 a.d1 (c.count s 56 a.d1)).toNat
  let score (b k : Nat) : Num := (c.vin s sc 0 0 b k).1
  let all := (List.range n).map (fun b => (List.range sc.d0).map (fun k => (⟨score b k, b, k⟩ : Cand)))
  let nan := all.any (fun l => l.any (fun x => x.score == .nan))
  let good := all.map (fun l => l.filter (fun x => x.score != .nan))
  let cands := (if per then good.flatten else good.filterMap bestClass).filter (fun x => !Num.lt x.score (c.f32At 53))
  let sorted := cands.foldl (fun l x => sortIn Cand.first x l) []
  let box (b : Nat) : List (Flagged Num) := (List.range 4).map (fun k => c.vin s a 0 0 b k)
  let kept := nmsKeep box (c.f32At 52) per (wf c.w 54 12 0) [] sorted
  let boxNan := cands.any (fun x => (box x.box).any (fun v => v.1 == .nan))
  let flags := if nan || boxNan then Fl.NAN else 0
  let row (i : Nat) : Nat × Nat := match kept[i]? with
    | some k => (k.box, k.cls)
    | none => (0xFFFFFFFF, 0xFFFFFFFF)
  let wr (i3 i2 i1 : Nat) : List Wr :=
    let r := row ((i3 * o.d2 + i2) * o.d1 + i1)
    (bytesLE 4 r.1 ++ bytesLE 4 r.2).mapIdx (fun k b => ((c.at o.kind o.index (o.rowOff i3 i2 i1)).add k, b))
  let oc := sref c.w 58
  { writes := ((List.range o.d3).map (fun x => ((List.range o.d2).map (fun y =>
        ((List.range o.d1).map (fun z => wr x y z)).flatten)).flatten)).flatten ++
      (if oc.present then (bytesLE 4 kept.length).mapIdx (fun k b => ((c.at oc.kind oc.index oc.off).add k, b)) else []) ++
      c.mapOut (Tab.set 0 [] 0 flags)
    flags := Tab.set 0 [] 0 flags }

/-! ### Running an operator -/

/-- Rows of a tensor reference as ranges; scale bytes with them. -/
def OpCtx.refRanges (c : OpCtx) (r : TRef) (write : Bool) : List Range :=
  if !r.present then []
  else match c.base r.kind r.index with
    | .scr _ => []
    | .va a =>
      ((List.range r.d3).map (fun x => ((List.range r.d2).map (fun y =>
        (List.range r.d1).map (fun z => (⟨a + r.rowOff x y z, r.rowBytes, write⟩ : Range)))).flatten)).flatten ++
      (if r.fmt = 9 then [⟨a + r.scale, r.scaleBytes, write⟩] else [])

/-- A short reference's bytes as a range. -/
def OpCtx.shortRange (c : OpCtx) (i n : Nat) (write : Bool) : List Range :=
  let r := sref c.w i
  if !r.present || n == 0 then []
  else match c.at r.kind r.index r.off with
    | .va a => [⟨a, n, write⟩]
    | .scr _ => []

/-- Short references an operator reads, as ranges. -/
def OpCtx.shortReads (c : OpCtx) : List Range := ((inShorts c.w).map (fun x => c.shortRange x.1 x.2 false)).flatten

/-- The status map and `OUT_COUNT` that an operator writes to their destinations, as ranges. -/
def OpCtx.shortWrites (c : OpCtx) : List Range :=
  if c.early then []
  else
    (if opMapEn c.w then
       let m := sref c.w 9
       let tiles := opTM c.w * opTN c.w
       match c.at m.kind m.index (m.off + c.mapIndex * tiles) with
       | .va a => [⟨a, tiles, true⟩]
       | .scr _ => []
     else []) ++
    (if opFamily c.w = 0x15 then c.shortRange 58 4 true else [])

/-- Everything an operator reads, and, where it writes to its destinations, everything it writes. -/
def OpCtx.ranges (c : OpCtx) : List Range :=
  ((inWords c.w).map (fun i => c.refRanges (tref c.w i) false)).flatten ++ c.shortReads ++
  (if c.early then [] else c.refRanges (tref c.w 16) true) ++ c.shortWrites

/-! ### Which cluster makes which access (R191, R269, log entry 113) -/

/-- Elements lo to hi − 1 of a row, with their scale bytes, as ranges. -/
def OpCtx.part (c : OpCtx) (r : TRef) (write : Bool) (lo hi : Nat) (i : Nat × Nat × Nat) : List Range :=
  if !r.present then []
  else
    let n := lo * codeBits r.fmt / 8
    let sb := r.scale + ((i.1 * r.d2 + i.2.1) * r.d1 + i.2.2) * ceilDiv r.d0 32 + lo / 32
    match c.base r.kind r.index with
    | .va a => ⟨a + r.rowOff i.1 i.2.1 i.2.2 + n, ceilDiv (hi * codeBits r.fmt) 8 - n, write⟩ ::
        (if r.fmt = 9 then [⟨a + sb, ceilDiv hi 32 - lo / 32, write⟩] else [])
    | .scr _ => []

/-- Whole rows. -/
def OpCtx.rows (c : OpCtx) (r : TRef) (write : Bool) (is : List (Nat × Nat × Nat)) : List Range :=
  (is.map (c.part r write 0 r.d0)).flatten

/-- Numbers from lo to hi − 1. -/
def span (lo hi : Nat) : List Nat := (List.range (hi - lo)).map (fun k => lo + k)

/-- Every triple of three lists, the last varying fastest. -/
def triples (as bs cs : List Nat) : List (Nat × Nat × Nat) := (as.map (fun a => (bs.map (fun b => cs.map (fun d => (a, b, d)))).flatten)).flatten

/-- What tensor tile t of an element reads and writes: rows of its M from the first input, of its N from the second. -/
def OpCtx.tileWork (c : OpCtx) (t : Nat) : List Range :=
  let w := c.w
  let o := tref w 16
  let a := tref w 28
  let b := tref w 40
  let tm := t / opTN w
  let tn := t % opTN w
  let mt := ceilDiv (opM w) 128
  let bt := tm / mt
  let ms := span (tm % mt * 128) (min (opM w) (tm % mt * 128 + 128))
  let ns := span (tn * 128) (min (opN w) (tn * 128 + 128))
  match opFamily w with
  | 0x01 =>
    let x := window w
    let n := max 1 (opN w)
    let nt := ceilDiv n 128
    let grp := tn / nt
    let lo := grp * n + tn % nt * 128
    let hi := grp * n + min n (tn % nt * 128 + 128)
    let px := ms.map (fun m => (m / (o.d1 * o.d2), m / o.d1 % o.d2, m % o.d1))
    let ins := ((px.map (fun p => (triples [0] (List.range x.kh) (List.range x.kw)).filterMap (fun k =>
      match tap p.2.1 x.sh k.2.1 x.dh x.pt a.d2, tap p.2.2 x.sw k.2.2 x.dw x.pl a.d1 with
      | some y, some z => some (p.1, y, z)
      | _, _ => none))).flatten).eraseDups
    (ins.map (c.part a false (grp * b.d0) (grp * b.d0 + b.d0))).flatten ++
    c.rows b false (triples (span lo hi) (List.range x.kh) (List.range x.kw)) ++
    (if c.early then [] else (px.map (c.part o true lo hi)).flatten)
  | 0x02 =>
    c.rows a false (triples [0] [bt] ms) ++ c.rows b false (triples [0] [if b.d2 = 1 then 0 else bt] ns) ++
    (if c.early then [] else ((triples [0] [bt] ms).map (c.part o true (ns.headD 0) (ns.headD 0 + ns.length))).flatten)
  | _ =>
    c.rows a false (triples [0] [bt] ms) ++ c.rows b false (triples [0] [bt] (List.range b.d1)) ++
    ((triples [0] [bt] (List.range b.d1)).map (c.part (tref w 52) false (ns.headD 0) (ns.headD 0 + ns.length))).flatten ++
    (if c.early then [] else ((triples [0] [bt] ms).map (c.part o true (ns.headD 0) (ns.headD 0 + ns.length))).flatten)

/-- Rows of the first input that one output row of a vector-unit family reads. -/
def OpCtx.rowReads (c : OpCtx) (s : State) (i3 i2 i1 : Nat) : List (Nat × Nat × Nat) :=
  let a := tref c.w 28
  let o := tref c.w 16
  let two (v : Flagged Num) (n : Nat) : List Nat := [(neighbours v n).1, (neighbours v n).2.1].eraseDups
  match opFamily c.w with
  | 0x10 =>
    let x := window c.w
    if wf c.w 54 18 18 = 1 then triples [i3] (List.range a.d2) (List.range a.d1)
    else triples [i3] ((List.range x.kh).filterMap (fun k => tap i2 x.sh k 1 x.pt a.d2))
      ((List.range x.kw).filterMap (fun k => tap i1 x.sw k 1 x.pl a.d1))
  | 0x12 =>
    let ax := wf c.w 52 3 0
    triples (redIdx ax 3 i3 a.d3) (redIdx ax 2 i2 a.d2) (redIdx ax 1 i1 a.d1)
  | 0x13 =>
    let sy := srcCoord i2 a.d2 o.d2
    let sx := srcCoord i1 a.d1 o.d1
    if wf c.w 52 1 0 = 0 then
      let near (v : Flagged Num) (k : Nat) : Nat := (clampInt 0 ((k : Int) - 1) (floorNum (fAdd v fHalf).1)).toNat
      [(i3, near sy a.d2, near sx a.d1)]
    else triples [i3] (two sy a.d2) (two sx a.d1)
  | 0x14 =>
    let smp := wf c.w 52 3 0
    ((triples [0] (List.range smp) (List.range smp)).map (fun k =>
      let y := sampleAt (c.boxAt s i3 1) (c.boxAt s i3 3) i2 k.2.1 smp o.d2
      let x := sampleAt (c.boxAt s i3 0) (c.boxAt s i3 2) i1 k.2.2 smp o.d1
      if outside y.1 a.d2 || outside x.1 a.d1 then [] else triples [0] (two (clampF y a.d2) a.d2) (two (clampF x a.d1) a.d1))).flatten.eraseDups
  | _ => [(i3, i2, i1)]

/-- What one output row of a vector-unit family reads and writes. -/
def OpCtx.rowWork (c : OpCtx) (s : State) (i : Nat × Nat × Nat) : List Range :=
  c.rows (tref c.w 28) false (c.rowReads s i.1 i.2.1 i.2.2) ++
  (if opFamily c.w = 0x14 then c.rows (tref c.w 40) false [(0, 0, i.1)] else c.rows (tref c.w 40) false [i]) ++
  (if c.early then [] else c.rows (tref c.w 16) true [i])

/-- Elements an operator of a stage works for: in pencil, those started early and still undecided without a trap; firm, all; under R280,
the true ones. -/
def stageElems (j : Job) (g : Prog) (st : Nat) : List (Nat × Elem) :=
  (j.elems.mapIdx (fun i e => (i, e))).filter (fun x =>
    let se := stageElem x.2 st
    if !(stageDecl g st).prov then true
    else if (stageRun j st).phase = .early then se.ending == .undecided && !se.late && se.trap.isNone
    else se.ending == .ran)

/-- The operator that a stage runs next. -/
def nextOp (j : Job) (g : Prog) (st : Nat) : Option Nat := (stageOps g st)[(stageRun j st).nextOp]?

/-- A stage's results stand for every element: it has ended, or its early work has and leaves nothing to R280. -/
def resultsStand (j : Job) (st : Nat) : Bool :=
  let p := (stageRun j st).phase
  p == .ended || (p == .earlyDone && j.elems.all (fun e => !((stageElem e st).late && (stageElem e st).ending == .undecided)))

/-- A stage may run operators now: early, once the stages it depends on have written what it reads (R284, log entry 112), or firm with
every lower stage ended. -/
def stageRuns (j : Job) (g : Prog) (st : Nat) : Bool :=
  let r := stageRun j st
  (r.phase == .early && (List.range st).all (fun k => !dependsOn g st k || resultsStand j k)) || (r.phase == .firm && lowerEnded j st) ||
  (r.phase == .waiting && !(stageDecl g st).prov && decide (st < g.stages.length) && lowerEnded j st)

/-- Contexts of an operator, one for each element it works for. -/
def opCtxs (j : Job) (g : Prog) (st op : Nat) : List (Nat × OpCtx) :=
  (stageElems j g st).map (fun x =>
    (x.1, ⟨j, g, x.2, st, op, opWords g op, (stageRun j st).phase == .early, opClusters j st⟩))

/-- Tensor tiles of an operator for one element. -/
def OpCtx.tiles (c : OpCtx) : Nat := opTM c.w * opTN c.w

/-- C' of R269: clusters that have tensor tiles of an operator at work for n elements. -/
def OpCtx.ranks (c : OpCtx) (n : Nat) : Nat := max 1 (min c.cl.length (n * c.tiles))

/-- The cluster that computes tensor tile t of the context's element (R269). -/
def OpCtx.tileCluster (c : OpCtx) (n t : Nat) : Nat := ((c.cl)[(c.e.idx * c.tiles + t) % c.ranks n]?).getD 0

/-- Tensor tiles that each cluster computes for an element are counted (Tables 10.13 and 11.5). -/
def countTiles (s : State) (n : Nat) (c : OpCtx) : State :=
  if !famArray (opFamily c.w) || c.cl.isEmpty then s
  else
    let k := c.ranks n
    let lo := c.e.idx * c.tiles
    (c.cl.take k).zipIdx.foldl (fun s x =>
      let m := (lo + c.tiles + k - 1 - x.2) / k - (lo + k - 1 - x.2) / k
      let add (s : State) (key : Nat) : State := wr s key (BitVec.ofNat 32 (satAdd top32 (rd s key).toNat m))
      let s := add s (R.TX_CLUSTER_n_TILES x.1)
      if c.early then add s (R.TX_CLUSTER_n_PENCIL_TILES x.1) else s) s

/-- Trace records of finished tensor tiles, where `TRACE_TILES` is in force on their cluster. -/
def traceTiles (s : State) (n : Nat) (c : OpCtx) (fl : Tab Nat) : State :=
  if !famArray (opFamily c.w) then s
  else
    let tn := max 1 (opTN c.w)
    (List.range c.tiles).foldl (fun s t =>
      let cl := c.tileCluster n t
      if ff s (R.TX_CLUSTER_n_CTRL cl) F.TX_CLUSTER_n_CTRL.TRACE_TILES = 1 then
        traceEv s 18 (8 + cl) c.j.fn none c.early (bytesLE 2 (t / tn) ++ bytesLE 2 (t % tn) ++ [BitVec.ofNat 8 (Tab.get 0 fl t)])
      else s) s

/-- The accesses of an operator for an element, each with the cluster that makes it: tensor tiles by rank; output rows of the vector unit
in equal runs over the clusters; NMS on rank 0 (R269). -/
def OpCtx.works (c : OpCtx) (s : State) (n : Nat) : List (Nat × List Range) :=
  let fam := opFamily c.w
  let o := tref c.w 16
  let k := max 1 c.cl.length
  let ws : List (Nat × List Range) :=
    if fam = 0x15 then [(c.who, c.ranges)]
    else if famArray fam then (List.range c.tiles).map (fun t => (c.tileCluster n t, c.tileWork t))
    else
      let rows := triples (List.range o.d3) (List.range o.d2) (List.range o.d1)
      rows.mapIdx (fun i r => (((c.cl)[i * k / max 1 rows.length]?).getD 0, c.rowWork s r))
  if fam = 0x15 then ws
  else ((ws.map (·.1)).eraseDups).map (fun cl => (cl, c.shortReads)) ++ ws ++ [(c.who, c.shortWrites)]

/-- The caches' part in them. -/
def OpCtx.touch (c : OpCtx) (n : Nat) (s : State) : State :=
  (c.works s n).foldl (fun s w => w.2.foldl (fun s r => touchVA s w.1 c.j.fn r.va r.len true r.write) s) s

/-- A status byte that makes a job end DONE_SATURATED (R250). -/
def saturated (fl : Tab Nat) : Bool := fl.any (fun x => nbit x.2 0 || nbit x.2 1)

/-- One element's results take their place: in pencil, or at their destinations. -/
def takeResult (s : State) (i : Nat) (c : OpCtx) (r : OpResult) : State :=
  let sat := saturated r.flags
  if c.early then
    modSe s c.j i c.st (fun x => { x.pencil c.op r.writes with
      sat := x.sat || sat
      tiles := x.tiles + (if famArray (opFamily c.w) then c.tiles else 0) })
  else modElem (writeElem s c.who c.j c.g i false r.writes) c.j i (fun e => { e with sat := e.sat || sat })

/-- The stage goes on to its next operator. -/
def advanceOp (s : State) (j : Job) (st : Nat) : State :=
  modStage s j st (fun r => { r with phase := if r.phase = .waiting then .firm else r.phase, nextOp := r.nextOp + 1 })

/-- Run an operator whose accesses are all possible. Every element reads before any writes; results take their place in ascending
element order (R271). -/
def runCtxs (s : State) (j : Job) (st op : Nat) (cs : List (Nat × OpCtx)) (compute : OpCtx → State → OpResult) : State :=
  let rs := cs.map (fun c => (c.1, c.2, compute c.2 s))
  let n := cs.length
  let ranges := (cs.map (fun c => c.2.ranges)).flatten
  let who := ((cs.head?).map (fun c => c.2.who)).getD 0
  let early := ((cs.head?).map (fun c => c.2.early)).getD false
  let tr (s : State) (p : Nat) : State := traceEv s p (8 + who) j.fn none early (bytesLE 2 op ++ [BitVec.ofNat 8 st])
  let s := tr s 16
  let s := cs.foldl (fun s c => c.2.touch n s) s
  let s := forgetRemote s who j.fn ranges
  let s := cs.foldl (fun s c => countTiles s n c.2) s
  let s := rs.foldl (fun s r => takeResult (traceTiles s n r.2.1 r.2.2.flags) r.1 r.2.1 r.2.2) s
  tr (advanceOp s j st) 17

/-- The next operator of a stage, where it is of the family: it runs, or what its accesses lack is asked for, or an access
faults (R167, R168, R403). -/
def runFamily (fam : Nat) (compute : OpCtx → State → OpResult) (f pos st : Nat) (s : State) : State :=
  match getJob s f pos with
  | none => s
  | some j0 => match getProg s f j0.prog with
    | none => s
    | some g =>
      let s := if j0.live then settleStages s j0 g else s
      let j := sameJob s j0
      match nextOp j g st with
      | none => s
      | some op =>
        if !j.live || !stageRuns j g st || opFamily (opWords g op) != fam then s
        else
          let cs := opCtxs j g st op
          let rs := (cs.map (fun c => c.2.ranges)).flatten
          let who := (opClusters j st).headD 0
          match blockRanges s who f rs with
          | .fails code va wr => rangesFault s who f rs va wr code pos
          | .waits => askRanges s .job who 4 1 f pos rs
          | .none => runCtxs s j st op cs compute

/-- CONV. -/
def execOpConv (f pos st : Nat) (s : State) : Out := .next (raiseMet (runFamily 0x01 OpCtx.conv f pos st s))

/-- MATMUL. -/
def execOpMatmul (f pos st : Nat) (s : State) : Out := .next (raiseMet (runFamily 0x02 OpCtx.matmul f pos st s))

/-- ATTENTION. -/
def execOpAttention (f pos st : Nat) (s : State) : Out := .next (raiseMet (runFamily 0x03 OpCtx.attention f pos st s))

/-- POOL. -/
def execOpPool (f pos st : Nat) (s : State) : Out := .next (raiseMet (runFamily 0x10 OpCtx.pool f pos st s))

/-- ELTWISE. -/
def execOpEltwise (f pos st : Nat) (s : State) : Out := .next (raiseMet (runFamily 0x11 OpCtx.eltwise f pos st s))

/-- REDUCE. -/
def execOpReduce (f pos st : Nat) (s : State) : Out := .next (raiseMet (runFamily 0x12 OpCtx.reduce f pos st s))

/-- RESIZE. -/
def execOpResize (f pos st : Nat) (s : State) : Out := .next (raiseMet (runFamily 0x13 OpCtx.resize f pos st s))

/-- CROP_GATHER. -/
def execOpCropGather (f pos st : Nat) (s : State) : Out := .next (raiseMet (runFamily 0x14 OpCtx.crop f pos st s))

/-- NMS. -/
def execOpNms (f pos st : Nat) (s : State) : Out := .next (raiseMet (runFamily 0x15 OpCtx.nms f pos st s))

end Sys2Proof.Machine
end

