-- ==== Sys2Proof/Machine/Shader.lean ====
section
/-! DEFINITION. Shader cores (chapter 12): launch of groups, the state of a wave, every instruction, traps and tensor messages.
A row names a core k (4 × cluster + core) and a wave slot; it runs the instruction at that wave's index, where it is the row's
own. -/

namespace Sys2Proof.Machine

/-! ### Lanes and registers (12.3) -/

/-- Lanes of a mask, ascending. -/
def lanes (m : Nat) : List Nat := (List.range 32).filter (fun l => nbit m l)

/-- Mask without the lanes of another. -/
def maskSub (a b : Nat) : Nat := Nat.land a (Nat.xor allLanes b)

def Wave.v (w : Wave) (r l : Nat) : W32 := Tab.get 0 w.vregs (32 * r + l)
def Wave.s (w : Wave) (r : Nat) : W32 := Tab.get 0 w.sregs r
def Wave.setV (w : Wave) (r l : Nat) (x : W32) : Wave := { w with vregs := Tab.set 0 w.vregs (32 * r + l) x }
def Wave.setS (w : Wave) (r : Nat) (x : W32) : Wave := { w with sregs := Tab.set 0 w.sregs r x }

/-- A predicate's lanes; p0 holds in every lane (R301). -/
def Wave.p (w : Wave) (n : Nat) : Nat := if n = 0 then allLanes else Tab.get 0 w.preds n

/-- Write a predicate in the lanes of a mask; writes to p0 are discarded (R301). -/
def Wave.setP (w : Wave) (n mask bits : Nat) : Wave :=
  if n = 0 then w else { w with preds := Tab.set 0 w.preds n (Nat.lor (maskSub (w.p n) mask) (Nat.land bits mask)) }

/-- Lanes where the guard or condition holds. -/
def Wave.cond (w : Wave) (i : W64) : Nat := if iNeg i then Nat.xor allLanes (w.p (iPred i)) else w.p (iPred i)

/-- Lanes that act (R303). -/
def Wave.acts (w : Wave) (i : W64) : Nat := Nat.land w.active (w.cond i)

/-- A register source in a lane: scalar where marked or where the instruction is uniform. -/
def Wave.src (w : Wave) (r : Nat) (scalar : Bool) (l : Nat) : W32 := if scalar then w.s r else w.v r l

def Wave.a (w : Wave) (i : W64) (l : Nat) : W32 := w.src (iA i) (iAS i || iU i) l
def Wave.b (w : Wave) (i : W64) (l : Nat) : W32 := if iFmt i = 1 then BitVec.ofNat 32 (iImm i) else w.src (iB i) (iBS i || iU i) l
def Wave.c (w : Wave) (i : W64) (l : Nat) : W32 := w.src (iC i) (iCS i || iU i) l

/-- Write D lane by lane, or once where the instruction is uniform (R302, R303). -/
def Wave.put (w : Wave) (i : W64) (h : Nat → W32) : Wave :=
  if iU i then w.setS (iD i) (h 0) else (lanes (w.acts i)).foldl (fun x l => x.setV (iD i) l (h l)) w

/-! ### What an instruction does to its wave -/

/-- A trap: cause, lowest lane and detail (12.10). -/
structure Trap where
  cause : Nat
  lane : Nat
  detail : Nat
  deriving DecidableEq, Repr

/-- The effect of one instruction. -/
inductive Eff where
  /-- the wave afterwards, its index among it -/
  | go (w : Wave) (s : State)
  /-- not issued now: it waits -/
  | stall (s : State)
  | trap (t : Trap)
  /-- the function has faulted -/
  | gone (s : State)
  /-- the wave ends -/
  | done (s : State)

/-- A wave at work: its operator's context and code. -/
structure WaveCtx where
  w : Wave
  i : W64
  c : OpCtx
  code : List W64

/-- The wave goes on to the next instruction. -/
def Wave.next (w : Wave) : Wave := { w with pc := w.pc + 1 }

/-- An instruction that only writes D. -/
def alu (h : Wave → W64 → Nat → W32) (x : WaveCtx) (s : State) : Eff := .go (x.w.put x.i (h x.w x.i)).next s

/-! ### Integer (Table 12.8) -/

/-- A binary integer operation. -/
def int2 (h : W32 → W32 → W32) (w : Wave) (i : W64) (l : Nat) : W32 := h (w.a i l) (w.b i l)

def iMulHi (a b : W32) : W32 := BitVec.ofInt 32 ((a.toInt * b.toInt).fdiv (2 ^ 32 : Nat))
def uMulHi (a b : W32) : W32 := BitVec.ofNat 32 (a.toNat * b.toNat / 2 ^ 32)
def iMin (a b : W32) : W32 := if a.toInt ≤ b.toInt then a else b
def iMax (a b : W32) : W32 := if a.toInt ≤ b.toInt then b else a
def uMin (a b : W32) : W32 := if a.toNat ≤ b.toNat then a else b
def uMax (a b : W32) : W32 := if a.toNat ≤ b.toNat then b else a
def shl32 (a b : W32) : W32 := BitVec.ofNat 32 (a.toNat * 2 ^ (b.toNat % 32))
def shr32 (a b : W32) : W32 := BitVec.ofNat 32 (a.toNat / 2 ^ (b.toNat % 32))
def sar32 (a b : W32) : W32 := BitVec.ofInt 32 (a.toInt.fdiv (2 ^ (b.toNat % 32) : Nat))
def popc (a : W32) : W32 := BitVec.ofNat 32 ((List.range 32).filter (fun k => nbit a.toNat k)).length
def clz (a : W32) : W32 := BitVec.ofNat 32 (32 - bitLen a.toNat)

/-! ### Float (Table 12.9, R304) -/

def fadd32 (a b : W32) : W32 := ieee (Num.add (num32 a) (num32 b))
def fsub32 (a b : W32) : W32 := ieee (Num.add (num32 a) (num32 b).neg)
def fmul32 (a b : W32) : W32 := ieee (Num.mul (num32 a) (num32 b))
def ffma32 (a b c : W32) : W32 := ieee (Num.add (Num.mul (num32 a) (num32 b)) (num32 c))
def fmin32 (a b : W32) : W32 := ieee (Num.min (num32 a) (num32 b))
def fmax32 (a b : W32) : W32 := ieee (Num.max (num32 a) (num32 b))
def fdiv32 (a b : W32) : W32 := ieee (Num.div 24 (num32 a) (num32 b))
def fsqrt32 (a : W32) : W32 := ieee (Num.sqrt 24 (num32 a))
def fabs32 (a : W32) : W32 := a &&& 0x7FFFFFFF
def fneg32 (a : W32) : W32 := a ^^^ 0x80000000

/-- A function of R305: its exact value, and the device's own bits within the bound. -/
def fApprox (exact : Num → Num) (device : W32 → W32) (a : W32) : W32 := fBounded (exact (num32 a)) (device a)

/-- FSIN and FCOS keep the bound for |A| up to 2²⁰; beyond it their bits are the device's own, a NaN the canonical one (R304, R305). -/
def fTrig32 (quarter : Int) (device : W32 → W32) (a : W32) : W32 :=
  match num32 a with
  | .fin _ m e =>
    if magLt 1 20 m e then (if num32 (device a) = .nan then 0x7FC00000 else device a)
    else fApprox (Num.trig quarter) device a
  | _ => 0x7FC00000

/-! ### Compare and predicates (Table 12.10) -/

/-- A condition on three answers: equal, less, comparable. -/
def condOf (sub : Nat) (eq lt ordered : Bool) : Bool :=
  match sub with
  | 0 => ordered && eq
  | 1 => !ordered || !eq
  | 2 => ordered && lt
  | 3 => ordered && (lt || eq)
  | 4 => ordered && !lt && !eq
  | 5 => ordered && !lt
  | 6 => ordered
  | _ => !ordered

def icmp (sub : Nat) (a b : W32) : Bool := condOf sub (a == b) (decide (a.toInt < b.toInt)) true
def ucmp (sub : Nat) (a b : W32) : Bool := condOf sub (a == b) (decide (a.toNat < b.toNat)) true
def fcmp (sub : Nat) (a b : W32) : Bool :=
  let x := num32 a
  let y := num32 b
  condOf sub (Num.eqv x y) (Num.lt x y) (x != .nan && y != .nan)

/-- A mask from a test of each lane. -/
def maskOf (h : Nat → Bool) : Nat := ((List.range 32).map (fun l => b2n (h l) * 2 ^ l)).sum

/-- Combine a result with the destination predicate (`SUB2`), in the lanes that act, or in every lane where uniform. -/
def Wave.combine (w : Wave) (i : W64) (r : Nat) : Wave :=
  let old := w.p (iPD i)
  let v := match iSub2 i with
    | 0 => r
    | 1 => Nat.land old r
    | _ => Nat.lor old r
  w.setP (iPD i) (if iU i then allLanes else w.acts i) v

/-- A compare. -/
def cmp (h : Nat → W32 → W32 → Bool) (x : WaveCtx) (s : State) : Eff :=
  .go (x.w.combine x.i (maskOf (fun l => h (iSub x.i) (x.w.a x.i l) (x.w.b x.i l)))).next s

/-- PCOMB. -/
def pcomb (x : WaveCtx) (s : State) : Eff :=
  let arg (n : Nat) : Nat := if nbit n 3 then Nat.xor allLanes (x.w.p (n % 8)) else x.w.p (n % 8)
  let a := arg (iA x.i)
  let b := arg (iB x.i)
  let r := match iSub x.i with
    | 0 => Nat.land a b
    | 1 => Nat.lor a b
    | _ => Nat.xor a b
  .go (x.w.setP (iPD x.i) (if iU x.i then allLanes else x.w.acts x.i) r).next s

/-- SEL. A uniform SEL whose predicate differs among the lanes has no stated choice: it is free (log entry 2). -/
def sel (x : WaveCtx) (s : State) : Eff :=
  let m := x.w.p (iC x.i % 8)
  if iU x.i then
    if m = allLanes then .go (x.w.setS (iD x.i) (x.w.a x.i 0)).next s
    else if m = 0 then .go (x.w.setS (iD x.i) (x.w.b x.i 0)).next s
    else .go (x.w.setS (iD x.i) (if Config.selMixed m (x.w.a x.i 0) (x.w.b x.i 0) then x.w.a x.i 0 else x.w.b x.i 0)).next s
  else .go (x.w.put x.i (fun l => if nbit m l then x.w.a x.i l else x.w.b x.i l)).next s

/-- VOTE. -/
def vote (x : WaveCtx) (s : State) : Eff :=
  .go (x.w.setS (iD x.i) (BitVec.ofNat 32 (Nat.land x.w.active (x.w.p (iA x.i % 8))))).next s

/-! ### Conversion and movement -/

/-- Rounding of CVT. -/
def cvtRnd (r : Nat) : Rnd := match r with | 0 => .rne | 1 => .rtz | 2 => .rdn | _ => .rup

/-- CVT of one value: the bits and the flags (R306). -/
def cvtOne (i : W64) (a : W32) : Flagged Nat :=
  encodeNum (cvtRnd (iRnd i)) (iSub2 i) (decodeNum (iSub i) (a.toNat % 2 ^ codeBits (iSub i)))

/-- Set flags of the operator that a group belongs to (R300). -/
def setShFlags (s : State) (q : ShGroup) (fl : Nat) : State :=
  { s with shOps := s.shOps.map (fun o =>
      if o.fn = q.fn ∧ o.pos = q.pos ∧ o.stage = q.stage ∧ o.op = q.op ∧ o.elem = q.elem then { o with flags := Nat.lor o.flags fl }
      else o) }

/-- CVT. -/
def cvt (x : WaveCtx) (s : State) : Eff :=
  let ls := if iU x.i then [0] else lanes (x.w.acts x.i)
  let fl := Nat.land (ls.foldl (fun f l => Nat.lor f (cvtOne x.i (x.w.a x.i l)).2) 0) (Fl.OUT_SAT + Fl.NAN)
  .go (x.w.put x.i (fun l => BitVec.ofNat 32 (cvtOne x.i (x.w.a x.i l)).1)).next (setShFlags s ⟨x.w.core, x.w.fn, x.w.pos, x.w.stage, x.w.op, x.w.elem, x.w.group, []⟩ fl)

/-- Rank of a wave's cluster among the operator's. -/
def waveRank (c : OpCtx) (w : Wave) : Nat := (c.cl.findIdx? (· == w.core / 4)).getD 0

/-- A special value (12.5.4). -/
def special (x : WaveCtx) (s : State) (l : Nat) : W32 :=
  let d := x.c.w
  let gx := max 1 (wf d 12 15 0)
  let gy := max 1 (wf d 12 31 16)
  BitVec.ofNat 32 (match iImm x.i with
    | 0 => if iU x.i then 0 else l
    | 1 => x.w.num
    | 2 => x.w.group % gx
    | 3 => x.w.group / gx % gy
    | 4 => x.w.group / gx / gy
    | 5 => x.c.e.idx
    | 6 => x.w.core % 4
    | 7 => waveRank x.c x.w
    | 8 => x.w.op
    | 9 => wd d 15
    | 10 => x.c.e.seed
    | 11 => x.w.active
    | 12 => fineNow s % 2 ^ 32
    | _ => fineNow s / 2 ^ 32)

/-- SHFL: A as held in lane B mod 32, active or not. -/
def shfl (w : Wave) (i : W64) (l : Nat) : W32 := w.a i ((w.b i l).toNat % 32)

/-! ### Memory (12.5.5, 12.7) -/

/-- Bytes of an access. -/
def accBytes (i : W64) : Nat := 2 ^ iSize i

/-- Address of an access in its space, formed without wrapping. -/
def Wave.addr (w : Wave) (i : W64) (l : Nat) : Int := ((w.a i l).toNat : Int) + iOff i

/-- The reference an access names. -/
def accRef (c : OpCtx) (i : W64) : TRef := tref c.w (shRefWord (iRef i))

/-- Bytes of a reference from its first element to the end of its extent, a scale array behind the elements among them (R257, log
entry 114). -/
def TRef.reach (r : TRef) : Nat := max r.span (if r.fmt = 9 then r.scale + r.scaleBytes - r.off else 0)

/-- Bytes of a space (Table 12.14). -/
def spaceBound (c : OpCtx) (i : W64) : Nat :=
  match iSpace i with
  | 0 => (accRef c i).reach
  | 1 => wf c.w 14 8 0 * 1024
  | 2 => c.g.scratch * 1024
  | _ => if c.g.seqSlots = 0 then 0 else c.g.stateBytes

/-- Stores may reach the space. -/
def spaceWritable (c : OpCtx) (i : W64) : Bool :=
  match iSpace i with
  | 0 => iRef i == 0 || (iRef i == 3 && wf c.w 14 16 16 == 1)
  | 1 => true
  | _ => wf c.w 14 17 17 == 1

/-- Place of an offset of a space outside LOCAL. -/
def spacePlace (c : OpCtx) (i : W64) (a : Nat) : Place :=
  match iSpace i with
  | 0 => c.at (accRef c i).kind (accRef c i).index ((accRef c i).off + a)
  | 2 => .scr a
  | _ => c.at 5 0 a

/-- A REF byte of a host-target or pod-window page. -/
def farPage (s : State) (c : OpCtx) (i : W64) (a : Nat) : Bool :=
  iSpace i == 0 && (match spacePlace c i a with
    | .va v => (match leafOf s c.who c.j.fn v with
      | .leaf e _ => leafTarget e != 0
      | _ => false)
    | .scr _ => false)

/-- The trap of one lane's access, if any (R312). -/
def accTrap (s : State) (x : WaveCtx) (store atomic : Bool) (l : Nat) : Option Trap :=
  let a := x.w.addr x.i l
  let n := accBytes x.i
  let d := wrapInt 32 a
  if a < 0 ∨ (spaceBound x.c x.i : Int) < a + n then some ⟨1, l, d⟩
  else if a % (n : Int) ≠ 0 then some ⟨2, l, d⟩
  else if store && !spaceWritable x.c x.i then some ⟨3, l, d⟩
  else if atomic && farPage s x.c x.i a.toNat then some ⟨4, l, d⟩
  else none

/-- The group a wave belongs to. -/
def ShGroup.of (q : ShGroup) (w : Wave) : Bool :=
  q.fn == w.fn && q.pos == w.pos && q.stage == w.stage && q.op == w.op && q.elem == w.elem && q.group == w.group

/-- The local area of a wave's group. -/
def localOf (s : State) (w : Wave) : Tab Byte := ((s.groups.find? (fun q => q.of w)).map (·.local_)).getD []

/-- Change it. -/
def modLocal (s : State) (w : Wave) (h : Tab Byte → Tab Byte) : State :=
  { s with groups := s.groups.map (fun q => if q.of w then { q with local_ := h q.local_ } else q) }

/-- The context with the element's pencil as it now stands. -/
def freshCtx (s : State) (x : WaveCtx) : OpCtx :=
  let j := sameJob s x.c.j
  { x.c with j := j, e := (j.elems[x.w.elem]?).getD x.c.e }

/-- Bytes at an offset of a space. -/
def spaceRead (s : State) (x : WaveCtx) (a n : Nat) : List Byte :=
  if iSpace x.i = 1 then
    let t := localOf s x.w
    (List.range n).map (fun k => Tab.get 0 t (a + k))
  else (freshCtx s x).bytes s (spacePlace x.c x.i a) n

/-- Write bytes at an offset of a space, by a store or an atomic. -/
def spaceWrite (s : State) (x : WaveCtx) (atomic : Bool) (a : Nat) (bs : List Byte) : State :=
  if iSpace x.i = 1 then modLocal s x.w (fun t => (bs.mapIdx (fun k b => (a + k, b))).foldl (fun t e => Tab.set 0 t e.1 e.2) t)
  else
    let ws : List Wr := bs.mapIdx (fun k b => ((spacePlace x.c x.i a).add k, b))
    if x.c.early then modSe s x.c.j x.w.elem x.w.stage (fun e => e.pencil x.w.op ws)
    else writeElem s x.c.who x.c.j x.c.g x.w.elem atomic ws

/-- Ranges of a function's address space that an access of some lanes needs. -/
def accRanges (x : WaveCtx) (ls : List Nat) (write : Bool) : List Range :=
  if iSpace x.i = 1 ∨ iSpace x.i = 2 then []
  else ls.filterMap (fun l => match spacePlace x.c x.i (x.w.addr x.i l).toNat with
    | .va v => some ⟨v, accBytes x.i, write⟩
    | .scr _ => none)

/-- Do an access once no lane traps and every page and peer byte is at hand (R167, R312). -/
def access (x : WaveCtx) (s : State) (store atomic : Bool) (act : List Nat → State → Eff) : Eff :=
  let ls := if iU x.i then [0] else lanes (x.w.acts x.i)
  match ls.findSome? (accTrap s x store atomic) with
  | some t => .trap t
  | none =>
    let write := store && !x.c.early
    let rs := accRanges x ls write ++ (if atomic then accRanges x ls false else [])
    match blockRanges s x.c.who x.w.fn rs with
    | .fails code va w => .gone (rangesFault s x.c.who x.w.fn rs va w code x.w.pos)
    | .waits => .stall (askRanges s .job x.c.who 4 1 x.w.fn x.w.pos rs)
    | .none =>
      let s' := rs.foldl (fun s r => touchVA s x.c.who x.w.fn r.va r.len true r.write) s
      match act ls s' with
      | .go w t => .go w (forgetRemote t x.c.who x.w.fn rs)
      | e => e

/-- The register words of a loaded value. -/
def loadWords (i : W64) (bs : List Byte) : List W32 :=
  let v := ofBytesLE bs
  match iSize i with
  | 0 => [if iSX i then BitVec.ofInt 32 (signedOf 8 v) else BitVec.ofNat 32 v]
  | 1 => [if iSX i then BitVec.ofInt 32 (signedOf 16 v) else BitVec.ofNat 32 v]
  | 2 => [BitVec.ofNat 32 v]
  | n => (List.range (sizeRegs n)).map (fun k => BitVec.ofNat 32 (v / 2 ^ (32 * k)))

/-- LD. -/
def ldOp (x : WaveCtx) (s : State) : Eff :=
  access x s false false (fun ls s =>
    .go (ls.foldl (fun w l =>
      ((loadWords x.i (spaceRead s x (x.w.addr x.i l).toNat (accBytes x.i))).zipIdx).foldl (fun w p =>
        if iU x.i then w.setS (iD x.i + p.2) p.1 else w.setV (iD x.i + p.2) l p.1) w) x.w).next s)

/-- Bytes a lane stores. -/
def storeBytes (x : WaveCtx) (l : Nat) : List Byte :=
  (((List.range (sizeRegs (iSize x.i))).map (fun k => bytesLE 4 (x.w.v (iD x.i + k) l).toNat)).flatten).take (accBytes x.i)

/-- ST: lanes in ascending order, so that the highest-numbered lane's value stands (R308). -/
def stOp (x : WaveCtx) (s : State) : Eff :=
  access x s true false (fun ls s => .go x.w.next (ls.foldl (fun s l => spaceWrite s x false (x.w.addr x.i l).toNat (storeBytes x l)) s))

/-- The new value of memory in an atomic (Table 12.12). -/
def atomNew (aop : Nat) (m c c1 : W32) : W32 :=
  match aop with
  | 0 => m + c
  | 1 => iMin m c
  | 2 => iMax m c
  | 3 => uMin m c
  | 4 => uMax m c
  | 5 => m &&& c
  | 6 => m ||| c
  | 7 => m ^^^ c
  | 8 => c
  | _ => if m = c then c1 else m

/-- ATOM: in ascending lane order, each lane receiving the value before its own operation (R308). -/
def atomOp (x : WaveCtx) (s : State) : Eff :=
  access x s true true (fun ls s =>
    let r := ls.foldl (fun (p : Wave × State) l =>
      let a := (x.w.addr x.i l).toNat
      let m : W32 := BitVec.ofNat 32 (ofBytesLE (spaceRead p.2 x a 4))
      let new := atomNew (iAop x.i) m (x.w.c x.i l) (x.w.src (iC x.i + 1) (iCS x.i || iU x.i) l)
      (p.1.setV (iD x.i) l m, spaceWrite p.2 x true a (bytesLE 4 new.toNat))) (x.w, s)
    .go r.1.next r.2)

/-! ### Control (12.6) -/

/-- A trap of the whole wave, recorded in its lowest active lane. -/
def waveTrap (w : Wave) (cause detail : Nat) : Eff := .trap ⟨cause, (lanes w.active).headD 0, detail⟩

/-- Go to an index. -/
def Wave.jump (w : Wave) (t : Nat) : Wave := { w with pc := t }

/-- NOP. -/
def nopOp (x : WaveCtx) (s : State) : Eff := .go x.w.next s

/-- BRA (R310). -/
def braOp (x : WaveCtx) (s : State) : Eff :=
  let c := Nat.land x.w.active (x.w.cond x.i)
  if c = x.w.active then .go (x.w.jump (iTarget x.i)) s
  else if c = 0 then .go x.w.next s
  else waveTrap x.w 5 0

/-- Push on the mask stack; a 17th entry traps (R311). -/
def pushMask (w : Wave) (e : MaskEntry) (s : State) (k : Wave → Wave) : Eff :=
  if 16 ≤ w.masks.length then waveTrap w 6 0 else .go (k { w with masks := e :: w.masks }) s

/-- IF. -/
def ifOp (x : WaveCtx) (s : State) : Eff :=
  let t := Nat.land x.w.active (x.w.cond x.i)
  pushMask x.w ⟨false, x.w.active, t⟩ s (fun w =>
    let w := { w with active := t }
    if t = 0 then w.jump (iTarget x.i) else w.next)

/-- ELSE; with an empty stack the mask stays as it is (log entry 23). -/
def elseOp (x : WaveCtx) (s : State) : Eff :=
  match x.w.masks with
  | [] => .go x.w.next s
  | e :: _ =>
    let a := maskSub e.outer e.aux
    .go (if a = 0 then ({ x.w with active := a }).jump (iTarget x.i) else ({ x.w with active := a }).next) s

/-- ENDIF. -/
def endifOp (x : WaveCtx) (s : State) : Eff :=
  match x.w.masks with
  | [] => .go x.w.next s
  | e :: es => .go ({ x.w with active := e.outer, masks := es }).next s

/-- LOOP. -/
def loopOp (x : WaveCtx) (s : State) : Eff := pushMask x.w ⟨true, x.w.active, 0⟩ s (fun w => w.next)

/-- Clear lanes from the masks above the innermost LOOP entry; `h` acts on that entry. -/
def stripStack (m : Nat) (h : MaskEntry → MaskEntry) : List MaskEntry → List MaskEntry
  | [] => []
  | e :: es => if e.loop then h e :: es else { e with outer := maskSub e.outer m, aux := maskSub e.aux m } :: stripStack m h es

/-- The stack from the innermost LOOP entry down. -/
def fromLoop : List MaskEntry → List MaskEntry
  | [] => []
  | e :: es => if e.loop then e :: es else fromLoop es

/-- BRK and CONT: lanes leave; with none left the wave goes to its ENDLOOP. -/
def leaveOp (h : Nat → MaskEntry → MaskEntry) (x : WaveCtx) (s : State) : Eff :=
  let m := Nat.land x.w.active (x.w.cond x.i)
  let a := maskSub x.w.active m
  let st := stripStack m (h m) x.w.masks
  if a = 0 then .go ({ x.w with active := a, masks := fromLoop st }.jump (iTarget x.i)) s
  else .go ({ x.w with active := a, masks := st }).next s

/-- BRK. -/
def brkOp : WaveCtx → State → Eff := leaveOp (fun _ e => e)

/-- CONT. -/
def contOp : WaveCtx → State → Eff := leaveOp (fun m e => { e with aux := Nat.lor e.aux m })

/-- ENDLOOP. -/
def endloopOp (x : WaveCtx) (s : State) : Eff :=
  match x.w.masks with
  | [] => .go x.w.next s
  | e :: es =>
    let a := Nat.lor x.w.active e.aux
    if a != 0 then .go ({ x.w with active := a, masks := { e with aux := 0 } :: es }.jump (iTarget x.i)) s
    else .go ({ x.w with active := e.outer, masks := es }).next s

/-- CALL: a 9th entry traps (R311). -/
def callOp (x : WaveCtx) (s : State) : Eff :=
  if 8 ≤ x.w.calls.length then waveTrap x.w 6 0
  else .go ({ x.w with calls := (x.w.pc + 1, x.w.masks.length) :: x.w.calls }.jump (iTarget x.i)) s

/-- RET (R310). -/
def retOp (x : WaveCtx) (s : State) : Eff :=
  match x.w.calls with
  | [] => waveTrap x.w 6 0
  | c :: cs => if c.2 = x.w.masks.length then .go ({ x.w with calls := cs }.jump c.1) s else waveTrap x.w 6 0

/-- TRAP. -/
def trapOp (x : WaveCtx) (s : State) : Eff :=
  match lanes (Nat.land x.w.active (x.w.cond x.i)) with
  | [] => .go x.w.next s
  | l :: _ => .trap ⟨8, l, iImm16 x.i⟩

/-- Waves of one group. -/
def Wave.sameGroup (a b : Wave) : Bool :=
  a.fn == b.fn && a.pos == b.pos && a.stage == b.stage && a.op == b.op && a.elem == b.elem && a.group == b.group

/-- Release the waves of a group whose BAR every wave has reached (R314). -/
def releaseBars (s : State) (w : Wave) : State :=
  let mine := s.waves.filter (fun x => x.sameGroup w)
  { s with waves := s.waves.map (fun x =>
      if x.sameGroup w && x.atBar && mine.all (fun y => decide (x.bars ≤ y.bars)) then { x with atBar := false } else x) }

/-- BAR. -/
def barOp (x : WaveCtx) (s : State) : Eff := .go ({ x.w with bars := x.w.bars + 1, atBar := true }).next s

/-- END. -/
def endOp (_x : WaveCtx) (s : State) : Eff := .done s

/-! ### Tensor messages (12.9) -/

/-- Row stride of K elements of a format, in LOCAL. -/
def msgRow (k code : Nat) : Nat := ceilDiv (ceilDiv (k * codeBits code) 8) 16 * 16

/-- Fields of a message (Table 12.15). -/
structure Msg where
  a : Nat
  b : Nat
  init : Bool
  out : Nat
  k : Nat
  fa : Nat
  fb : Nat
  mode : Nat
  chunk : Nat
  m : Nat
  n : Nat
  tm : Nat
  tn : Nat
  deriving DecidableEq, Repr

/-- The message four words spell. -/
def msgOf (w : List W32) : Msg :=
  ⟨wf w 0 11 0 * 256, wf w 0 23 12 * 256, wf w 0 24 24 == 1, wf w 1 11 0 * 256, wf w 1 24 12, wf w 2 3 0, wf w 2 7 4, wf w 2 9 8,
   wf w 2 11 10, wf w 2 18 12 + 1, wf w 2 25 19 + 1, wf w 3 15 0, wf w 3 31 16⟩

/-- A message is valid (R316). -/
def msgOk (w : List W32) (localBytes : Nat) : Bool :=
  let q := msgOf w
  let ea := (q.a, q.m * msgRow q.k q.fa)
  let eb := (q.b, q.n * msgRow q.k q.fb)
  let eo := (q.out, q.m * (ceilDiv (q.n * 4) 16 * 16))
  let hit (x y : Nat × Nat) : Bool := decide (x.1 < y.1 + y.2) && decide (y.1 < x.1 + x.2)
  !stray w 0 0x1FFFFFF && !stray w 1 0x1FFFFFF && !stray w 2 0x3FFFFFF && decide (1 ≤ q.k) && decide (q.k ≤ 4096) &&
  q.fa != 9 && q.fb != 9 && (pairModes q.fa q.fb).contains q.mode && (q.mode == 1 || q.chunk == 0) &&
  decide (ea.1 + ea.2 ≤ localBytes) && decide (eb.1 + eb.2 ≤ localBytes) && decide (eo.1 + eo.2 ≤ localBytes) &&
  !hit eo ea && !hit eo eb

/-- A message is of a group, and of a wave. -/
def TMsg.ofGroup (m : TMsg) (q : ShGroup) : Bool :=
  m.fn == q.fn && m.pos == q.pos && m.stage == q.stage && m.op == q.op && m.elem == q.elem && m.group == q.group
def TMsg.ofWave (m : TMsg) (w : Wave) : Bool :=
  m.core == w.core && m.slot == w.slot && m.fn == w.fn && m.pos == w.pos && m.stage == w.stage && m.op == w.op && m.elem == w.elem &&
  m.group == w.group

/-- Messages of a wave that the tensor array has not finished. -/
def msgsOf (s : State) (w : Wave) : Nat := (s.tmsgs.filter (fun m => m.ofWave w)).length

/-- TMSG: stalls while the array's queue is full or the wave has 4 messages outstanding (R317). -/
def tmsgOp (x : WaveCtx) (s : State) : Eff :=
  let ws := (List.range 4).map (fun k => x.w.s (iImm16 x.i + k))
  let cl := x.w.core / 4
  if !msgOk ws (wf x.c.w 14 8 0 * 1024) then waveTrap x.w 7 0
  else if 8 ≤ (s.tmsgs.filter (fun m => m.core / 4 == cl)).length ∨ 4 ≤ msgsOf s x.w then .stall s
  else .go x.w.next { s with tmsgs := s.tmsgs ++ [⟨x.w.core, x.w.slot, x.w.fn, x.w.pos, x.w.stage, x.w.op, x.w.elem, x.w.group, ws⟩] }

/-- TWAIT. -/
def twaitOp (x : WaveCtx) (s : State) : Eff := if msgsOf s x.w ≤ iImm16 x.i then .go x.w.next s else .stall s

/-! ### The operator's end (R298) -/

/-- Records of an operator of a job's stage. -/
def shOpsOf (s : State) (j : Job) (st op : Nat) : List ShOp :=
  s.shOps.filter (fun o => o.fn == j.fn && o.stage == st && o.op == op && j.elems.any (fun e => e.pos == o.pos))

/-- End a SHADER operator once every group of every element has ended: status bytes, map, and the next operator. -/
def finishShader (s : State) (j : Job) (g : Prog) (st op : Nat) : State :=
  let w := opWords g op
  let os := shOpsOf s j st op
  if !os.all (fun o => o.ended == shGroups w) then s
  else
    let cs := (opCtxs (sameJob s j) g st op).map (fun c => (c.1, c.2, ((os.find? (fun o => o.elem == c.1)).map (·.flags)).getD 0))
    let rs := (cs.map (fun c => if c.2.1.early then [] else (c.2.1.mapOut []).filterMap (fun x => match x.1 with
      | .va a => some (⟨a, 1, true⟩ : Range)
      | .scr _ => none))).flatten
    let who := (opClusters (sameJob s j) st).headD 0
    match blockRanges s who j.fn rs with
    | .fails code va wr => rangesFault s who j.fn rs va wr code ((j.elems.head?.map (·.pos)).getD 0)
    | .waits => askRanges s .job who 4 1 j.fn ((j.elems.head?.map (·.pos)).getD 0) rs
    | .none =>
      let s := cs.foldl (fun s c =>
        let fl := Tab.set 0 [] 0 c.2.2
        takeResult s c.1 c.2.1 ⟨c.2.1.mapOut fl, fl⟩) s
      let s := { s with shOps := s.shOps.filter (fun o => !(os.any (fun x => x.same o))) }
      traceEv (advanceOp s j st) 17 (8 + who) j.fn none ((stageRun (sameJob s j) st).phase == .early) (bytesLE 2 op ++ [BitVec.ofNat 8 st])

/-- SHADER: launches the operator's groups (R298), or ends it where it waited to write its map. -/
def launchShader (f pos st : Nat) (s : State) : State :=
  match getJob s f pos with
  | none => s
  | some j0 => match getProg s f j0.prog with
    | none => s
    | some g =>
      let s := if j0.live then settleStages s j0 g else s
      let j := sameJob s j0
      match nextOp j g st with
      | none => s
      | some op =>
        if !j.live || !stageRuns j g st || opFamily (opWords g op) != 0x20 then s
        else
          if !(shOpsOf s j st op).isEmpty then finishShader s j g st op
          else
            let os := (opCtxs j g st op).map (fun c =>
              (⟨f, c.2.e.pos, st, op, c.1, c.2.cl, [], 0, 0⟩ : ShOp))
            if os.isEmpty then advanceOp s j st
            else
              let s := modStage s j st (fun r => { r with phase := if r.phase = .waiting then .firm else r.phase })
              let s := traceEv s 16 (8 + (opClusters j st).headD 0) f none ((stageRun j st).phase == .early) (bytesLE 2 op ++ [BitVec.ofNat 8 st])
              refill { s with shOps := s.shOps ++ os }

/-- SHADER. -/
def execOpShader (f pos st : Nat) (s : State) : Out := .next (raiseMet (launchShader f pos st s))

/-- A group whose last wave has ended, and whose last tensor message is served, ends (log entry 115): the operator counts it, further
groups start, and the operator may end. -/
def closeGroup (s : State) (q : ShGroup) : State :=
  if s.waves.any (fun w => q.of w) || s.tmsgs.any (fun m => m.ofGroup q) then s
  else match getJob s q.fn q.pos with
    | none => s
    | some j => match getProg s q.fn j.prog with
      | none => s
      | some g =>
        let early := (stageRun j q.stage).phase == .early
        let s := { s with groups := s.groups.erase q
                          shOps := s.shOps.map (fun o =>
                            if o.fn = q.fn ∧ o.pos = q.pos ∧ o.stage = q.stage ∧ o.op = q.op ∧ o.elem = q.elem then { o with ended := o.ended + 1 }
                            else o) }
        let s := traceEv s 26 (8 + q.core / 4) q.fn none early (bytesLE 2 q.op ++ bytesLE 4 q.group)
        finishShader (refill s) j g q.stage q.op

/-- A wave has ended: its group's barriers are judged again, and the group may end. -/
def waveEnded (s : State) (w : Wave) : State :=
  let s := releaseBars s w
  match s.groups.find? (fun q => q.of w) with
  | some q => closeGroup s q
  | none => s

/-! ### Traps (R318, R319) -/

/-- A wave traps: in a firm stage its function faults; in early work the stage-element stops and holds the trap. -/
def waveTraps (s : State) (x : WaveCtx) (t : Trap) : State :=
  let w := x.w
  let bits := t.lane + w.num * 32 + w.core % 4 * 256
  let pc := w.pc % 2 ^ 15
  if x.c.early then
    let s := dropShader s (fun f p t e => f == w.fn && p == w.pos && t == w.stage && e == w.elem)
    let s := modSe s x.c.j w.elem w.stage (fun e => { e with trap := some (t.cause, w.op, pc, bits + w.core / 4 * 2 ^ 10 + t.detail * 2 ^ 14) })
    let s := traceEv s 24 (8 + w.core / 4) w.fn none true (bytesLE 1 t.cause ++ bytesLE 2 w.op ++ bytesLE 2 pc)
    settleStages (finishShader (refill s) x.c.j x.c.g w.stage w.op) x.c.j x.c.g
  else trapFault s w.fn x.c.j.prog (w.core / 4) (t.cause, w.op, pc, bits) t.detail w.pos false

/-! ### One instruction -/

/-- Put a wave back. -/
def setWave (s : State) (w : Wave) : State :=
  { s with waves := s.waves.map (fun x => if x.core = w.core ∧ x.slot = w.slot then w else x) }

/-- Count an issued instruction (Table 12.20). -/
def countIssue (s : State) (x : WaveCtx) : State :=
  let s := bumpBy (bump s 0x701000) 0x701008 (lanes x.w.active).length
  if x.c.early then bump s 0x701010 else s

/-- The wave in a slot of a core, with its operator's context and its instruction. -/
def waveCtx (s : State) (k slot : Nat) : Option WaveCtx :=
  match s.waves.find? (fun w => w.core == k && w.slot == slot) with
  | none => none
  | some w => match getJob s w.fn w.pos with
    | none => none
    | some j => match getProg s w.fn j.prog, j.elems[w.elem]? with
      | some g, some e =>
        some ⟨w, (g.code[w.pc]?).getD 0, ⟨j, g, e, w.stage, w.op, opWords g w.op, (stageRun j w.stage).phase == .early,
          ((shOpsOf s j w.stage w.op).head?.map (·.clusters)).getD [w.core / 4]⟩, g.code⟩
      | _, _ => none

/-- What becomes of the state after a wave's instruction. -/
def Eff.apply (e : Eff) (x : WaveCtx) (s : State) : State :=
  match e with
  | .stall s' => s'
  | .gone s' => s'
  | .trap t => waveTraps (countIssue s x) x t
  | .done s' =>
    let s' := countIssue s' x
    waveEnded { s' with waves := s'.waves.filter (fun y => !(y.core == x.w.core && y.slot == x.w.slot)) } x.w
  | .go w s' =>
    let s' := setWave (countIssue s' x) w
    if x.code.length ≤ w.pc then waveTraps s' { x with w := w } ⟨6, (lanes w.active).headD 0, 0⟩
    else if w.atBar then releaseBars s' w else s'

/-- Run a wave's instruction, if its opcode is the row's and no barrier holds the wave. Running past the section's end traps
(R311). -/
def runInstr (opc : Nat) (act : WaveCtx → State → Eff) (k slot : Nat) (s : State) : State :=
  match waveCtx s k slot with
  | none => s
  | some x =>
    if x.w.atBar || iOpc x.i != opc || decide (x.code.length ≤ x.w.pc) then s
    else raiseMet ((act x s).apply x s)

/-- Flags, bytes of LOCAL and clocks of a message (R315): `t` is the group's local area, `e` the element, `op` the operator. -/
def msgResult (q : Msg) (t : Tab Byte) (e : Elem) (op : Nat) : Nat × List (Nat × Byte) :=
  let byte (a : Nat) : Nat := (Tab.get 0 t a).toNat
  let elemAt (base row k code i : Nat) : Flagged Num :=
    let r := base + row * msgRow k code
    let bits := if codeBits code = 4 then (if i % 2 = 0 then byte (r + i / 2) % 16 else byte (r + i / 2) / 16)
      else ((List.range (codeBits code / 8)).map (fun z => byte (r + i * (codeBits code / 8) + z) * 256 ^ z)).sum
    arrayOperand code (decodeNum code bits)
  let oc := if q.mode = Mode.exactInt then 10 else 8
  let orow := ceilDiv (q.n * 4) 16 * 16
  let cell (m c : Nat) : Flagged Nat :=
    let old := ((List.range 4).map (fun z => byte (q.out + m * orow + c * 4 + z) * 256 ^ z)).sum
    let ps := (List.range q.k).map (fun i => prod (elemAt q.a m q.k q.fa i) (elemAt q.b c q.k q.fb i))
    let u := if q.mode = Mode.lean then lfsrAfter (laneSeed e.seed q.tm q.tn op e.idx c) (m * q.k) else 0
    let a := accumulate q.mode q.chunk u (if q.init then decodeNum oc old else Num.zero) (ps.map (·.1))
    let b := encodeNum .rne oc a.1
    (b.1, fl2 a.2 (ps.foldl (fun f p => fl2 f p.2) 0))
  let cells := ((List.range q.m).map (fun m => (List.range q.n).map (fun c => (q.out + m * orow + c * 4, cell m c)))).flatten
  (Nat.land (cells.foldl (fun f c => Nat.lor f c.2.2) 0) (Fl.SAT + Fl.NAN + Fl.INF_IN),
   (cells.map (fun c => (bytesLE 4 c.2.1).mapIdx (fun z b => (c.1 + z, b)))).flatten)

/-- Cluster clocks of a message (R315). -/
def msgClocks (q : Msg) : Nat :=
  let rate := if q.fa ≤ 3 ∧ q.fb ≤ 3 then (if q.fa = 0 ∧ q.fb = 0 then 16384 else if q.fa = 3 ∨ q.fb = 3 then 2048 else 8192)
    else (if q.fa ≤ 5 ∧ q.fb ≤ 5 then 8192 else 4096) / (if q.mode = Mode.full then 2 else 1)
  16384 * q.k / rate + 64

/-- TENSOR_MESSAGE_DONE: the oldest message of a cluster's array is computed (R315, R317); a group whose waves have all ended may end
with it. -/
def tensorMessage (n : Nat) (s : State) : State :=
  match s.tmsgs.find? (fun m => m.core / 4 == n) with
  | none => s
  | some t =>
    let s := { s with tmsgs := s.tmsgs.erase t }
    match s.groups.find? (fun q => t.ofGroup q), (getJob s t.fn t.pos).bind (fun j => j.elems[t.elem]?) with
    | some q, some e =>
      let m := msgOf t.words
      let r := msgResult m q.local_ e t.op
      let q' := { q with local_ := r.2.foldl (fun l x => Tab.set 0 l x.1 x.2) q.local_ }
      let s := { s with groups := s.groups.map (fun x => if x = q then q' else x) }
      closeGroup (bumpBy (bump (setShFlags s q r.1) 0x701028) 0x701030 (msgClocks m)) q'
    | _, _ => s

/-- TENSOR_MESSAGE_DONE. -/
def execTensorMessageDone (n : Nat) (s : State) : Out := .next (tensorMessage n s)

end Sys2Proof.Machine
end

