-- ==== Sys2Proof/Machine/LinkRx.lean ====
section
/-! DEFINITION. The receiving side of Berar Link (15.2 to 15.9): training, flits and replay, the messages a peer sends, link
loss and rerouting. Whole messages wait in their port's inbox until the command of their type performs them. -/

namespace Sys2Proof.Machine

/-! ### Port states (Table 15.2) -/

/-- A port changes state and width. -/
def setPortState (s : State) (p st width : Nat) : State :=
  let s := sf (sf s (R.BL_LINK_n_STATE p) F.BL_LINK_n_STATE.STATE st) (R.BL_LINK_n_STATE p) F.BL_LINK_n_STATE.WIDTH width
  traceEv s 46 4 0xFF none false [BitVec.ofNat 8 p, BitVec.ofNat 8 st, BitVec.ofNat 8 width]

def portWidth (s : State) (p : Nat) : Nat := rf s (R.BL_LINK_n_STATE p) F.BL_LINK_n_STATE.WIDTH

/-- A Logbook record of a port: port, width, peer (Table 17.6). -/
def logPort (s : State) (ev p width : Nat) : State :=
  logX s ev 4 0xFF [BitVec.ofNat 8 p, BitVec.ofNat 8 width, BitVec.ofNat 8 (portPeer s p)]

/-- A W1C bit of Table 15.12 is set: the PF's vector follows. -/
def portErr (s : State) (p : Nat) (fd : Fld) : State := raiseCtrl (sf s (R.BL_LINK_n_ERR p) fd 1) R.BL_EVENT_CTRL

/-- Pods with an ACTIVE direct link, as a mask (ROUTE_STATE). -/
def activeMask (s : State) : Nat :=
  ([0, 1, 2].filter (fun p => portState s p == 3)).foldl (fun m p => Nat.lor m (2 ^ portPeer s p)) 0

/-- This device's incarnation (R472). -/
def incarnation (s : State) : Nat := fld s.clk.epoch 7 0 * 256 + s.care.incLow

/-- ROUTE_STATE on every ACTIVE port (R411). -/
def sendRoutes (s : State) : State :=
  ([0, 1, 2].filter (fun p => portState s p == 3)).foldl (fun s p =>
    portSend s p (mkMsg 0x21 0 s.boot.podId (portPeer s p) false 0 0
      (bytesLE 1 (activeMask s) ++ [0] ++ bytesLE 2 (incarnation s)) [])) s

/-! ### Loss of a route (R403, R418 to R420) -/

/-- One request loses its last route (Table 15.9). -/
def failReqLost (s : State) (r : RemoteReq) : State :=
  let s := bump (dropReqs s (· == r)) 0xA00520
  match r.owner with
  | .copy e => xferRemoteFails s e r.fn r.pos St.LINK_LOST r.va (r.type == 2)
  | .job => functionFault s r.fn St.LINK_LOST r.pos
  | .draw => functionFault s r.fn St.LINK_LOST r.pos
  | .packet =>
    if r.type = 0x11 then functionFault s r.fn St.LINK_LOST r.pos
    else settleFn (finishPkt s r.fn r.pos St.LINK_LOST 0) r.fn

/-- Some requests fail, each unless an earlier failure has taken it along. -/
def failReqs (s : State) (rs : List RemoteReq) : State :=
  rs.foldl (fun s r => if s.link.reqs.contains r then failReqLost s r else s) s

/-- Every request whose pod has no route left fails. -/
def failUnrouted (s : State) : State := failReqs s (s.link.reqs.filter (fun r => !hasRoute s r.pod))

/-- Messages in the order of a resend: class 0, then 2, 1 and 3, each in `E2E_SEQ` order (R418). -/
def resendOrder (ms : List (List Byte)) : List (List Byte) :=
  ([0, 2, 1, 3].map (fun c => (ms.filter (fun m => mClass m == c)).foldl
    (fun l m => sortIn (fun a b => decide (mSeq a < mSeq b)) m l) [])).flatten

/-- One taken message goes its new way (R418, R420). -/
def resendMsg (s : State) (m : List Byte) : State :=
  if mType m = 0x21 then s
  else if mSrc m != s.boot.podId then
    match directPort s (mDst m) with
    | some q => portSend s q m
    | none => bump s 0xA00510
  else if hasRoute s (mDst m) then
    let s := traceEv (bump s 0xA00500) 48 4 0xFF none false
      [BitVec.ofNat 8 (mType m), BitVec.ofNat 8 (mClass m), BitVec.ofNat 8 (mDst m)]
    let s := putMsg s (mDst m) m
    let q := ((streamRoute s (mDst m) (mClass m)).map (·.1)).getD 0
    { s with link := { s.link with reqs := s.link.reqs.map (fun r =>
        if r.sent ∧ r.tag = mTag m ∧ r.pod = mDst m ∧ r.type = mType m then { r with port := q } else r) } }
  else s

/-- Routes have changed: messages held for a relay that no longer leads there are taken with the others and resent, and
requests without a route fail. -/
def reroute (s : State) (taken : List (List Byte)) : State :=
  let lost := (s.link.relayed ++ s.link.backlog).filter (fun h => !relayOk s h.via h.dst)
  let s := { s with link := { s.link with
    relayed := s.link.relayed.filter (fun h => relayOk s h.via h.dst)
    backlog := s.link.backlog.filter (fun h => relayOk s h.via h.dst) } }
  let extra := (lost.map (·.msg)).filter (fun m =>
    !taken.any (fun t => mSrc t == mSrc m && mDst t == mDst m && mClass t == mClass m && mSeq t == mSeq m && numbered (mType t)))
  issueWaiting (failUnrouted ((resendOrder (taken ++ extra)).foldl resendMsg s))

/-- A port goes down or, with `EN` written 0, is disabled (R390, R418): state `st`. An entry to DOWN, be it from a failed training,
sets `DOWN` and is recorded; so is the loss of a working link to DISABLED (log entry 30). -/
def portDown (s : State) (p st : Nat) : State :=
  let x := getPort s p
  let was := portState s p
  let up := was == 3 || was == 4 || was == 5
  let w := portWidth s p
  if was = st then s
  else
    let clean : Port := { Port.reset with did8 := x.did8, did32 := x.did32, did128 := x.did128, inbox := x.inbox, since := fineNow s }
    let s := setPort (setPortState s p st 0) p clean
    let s := if up || st = 1 then
        attn (bump (logPort (portErr s p F.BL_LINK_n_ERR.DOWN) 0x0A03 p w) (0xA00078 + 0x100 * p)) 3 else s
    if !up then s
    else
      let s := match [0, 1, 2].find? (fun q => portState s q == 5 && portPeer s q == portPeer s p) with
        | some q => if was = 5 then s else setPortState s q 3 (portWidth s q)
        | none => s
      let s := sendRoutes s
      reroute s (x.queue ++ x.replay.map (·.slots))

/-! ### Training (15.2) -/

/-- Training sets on all eight lanes (Table 15.3). -/
def sendSets (s : State) (p kind : Nat) (locked cap mark : Nat) : State :=
  let credits := if kind = 2 then bytesLE 2 128 ++ bytesLE 2 1024 ++ bytesLE 2 2048 ++ bytesLE 2 1024 else List.replicate 8 0
  let one (lane : Nat) : List Byte :=
    [0xA5, 0x3C, BitVec.ofNat 8 lane, BitVec.ofNat 8 (p + s.boot.podId * 4), BitVec.ofNat 8 kind, BitVec.ofNat 8 locked,
     BitVec.ofNat 8 cap, BitVec.ofNat 8 mark] ++ credits
  { s with out := s.out ++ [.link p (((List.range 8).map one).flatten)] }

def lanesLocked (s : State) (p : Nat) : Nat := rf s (R.BL_LINK_n_STATE p) F.BL_LINK_n_STATE.LANES_LOCKED

/-- A full training starts from DETECT (R378, R381): the boundary of `MAX_WIDTH`. -/
def startTraining (s : State) (p : Nat) : State :=
  let s := applyRwb s (fun k => k == R.BL_LINK_n_CTRL p)
  let mw := ff s (R.BL_LINK_n_CTRL p) F.BL_LINK_n_CTRL.MAX_WIDTH
  let st := if portState s p = 3 then 4 else 2
  let s := setPortState s p st (if st = 4 then portWidth s p else 0)
  let s := sf s (R.BL_LINK_n_STATE p) F.BL_LINK_n_STATE.LANES_LOCKED 0
  let s := sf s (R.BL_LINK_n_STATE p) F.BL_LINK_n_STATE.REVERSED 0
  let s := setPort s p { getPort s p with train := .detect, half := false, cap := if mw = 0 then 3 else mw, reversed := none
                                          inverted := 0, parked := false, since := fineNow s }
  let s := sendSets (bump s (0xA00070 + 0x100 * p)) p 1 0 0 0
  if st = 4 then sendRoutes s else s

/-- A retrain of CONFIG alone starts, with a width cap (R380): a half-width retrain of this port, or its answer to the far end's. -/
def startHalf (s : State) (p cap : Nat) : State :=
  let s := applyRwb s (fun k => k == R.BL_LINK_n_CTRL p)
  let s := setPortState s p 4 (portWidth s p)
  let s := setPort s p { getPort s p with train := .config, half := true, cap := cap, since := fineNow s }
  sendRoutes (sendSets (bump s (0xA00068 + 0x100 * p)) p 2 (lanesLocked s p) cap 0)

/-- The last 16 TSB before flits carry the marker (R378). -/
def sendMarked (s : State) (p cap : Nat) : State :=
  (List.range 16).foldl (fun s _ => sendSets s p 2 (lanesLocked s p) cap 1) s

/-- A training fails: the port goes down (R378, R381, R390). -/
def trainFails (s : State) (p : Nat) : State := portDown s p 1

/-- Groups of W lanes, in ascending order, all locked in both bitmaps (R379). -/
def groupOf (locks w : Nat) : Option Nat :=
  (List.range (8 / w)).find? (fun g => (List.range w).all (fun i => nbit locks (g * w + i)))

/-- The agreed width code and its lowest group (R379). -/
def agreeWidth (locks cap : Nat) : Option (Nat × Nat) :=
  [3, 2, 1].findSome? (fun c => if c ≤ cap then (groupOf locks (lanesOf c)).map (fun g => (c, g)) else none)

/-- Advertised credits of a TSB, by class. -/
def tsbCredits (t : List Byte) : List Nat := [mLE t 8 2, mLE t 10 2, mLE t 12 2, mLE t 14 2]

/-- A TSB is in order (Table 15.3; R392 unless its credits are ignored). -/
def tsbOk (t : List Byte) (half : Bool) : Bool :=
  t.length == 16 && mByte t 0 == 0xA5 && mByte t 1 == 0x3C && mByte t 4 == 2 && decide (mByte t 3 < 16) &&
  decide (1 ≤ mByte t 6) && decide (mByte t 6 ≤ 3) &&
  (half || (tsbCredits t).all (fun c => decide (16 ≤ c) && decide (c ≤ 2048)))

/-- A port that has come through CONFIG resends what its peer has not acknowledged (R380). -/
def resendReplay (s : State) (p : Nat) : State := (getPort s p).replay.foldl (fun s fl => emitFlit s p 0 fl.seq fl.slots) s

/-- A full training has ended in a working link: ACTIVE, STANDBY or CONFLICT (R379, R385, R409, R410). What waited on the port goes
on where it comes back ACTIVE to the same peer, and is taken for rerouting where it does not (R403, R418). -/
def trainedFull (s : State) (p code g : Nat) (t : List Byte) : State :=
  let x := getPort s p
  let peer := nbits (mByte t 3) 3 2
  let same := portState s p == 4 && portPeer s p == peer
  let waiting := x.replay.map (·.slots) ++ x.queue
  let s := sf (sf s (R.BL_LINK_n_STATE p) F.BL_LINK_n_STATE.PEER_POD peer) (R.BL_LINK_n_STATE p) F.BL_LINK_n_STATE.PEER_PORT
    (nbits (mByte t 3) 1 0)
  let credits : Tab Nat := ((tsbCredits t).foldl (fun (a : Tab Nat × Nat) c => (Tab.set 0 a.1 a.2 c, a.2 + 1)) ([], 0)).1
  let s := setPort s p { x with
    train := .idle, group := g, txSeq := 0, rxSeq := 0, replay := [], nakSent := false, queue := []
    credits := credits, lastRet := [], freed := [], rxSlots := [], scr := [], savedEq := false, since := fineNow s }
  let s := attn s 3
  if peer = s.boot.podId then
    reroute (portErr (logPort (setPortState s p 6 code) 0x0A04 p code) p F.BL_LINK_n_ERR.CONFLICT) waiting
  else if [0, 1, 2].any (fun q => q != p && portUp s q && portPeer s q == peer) then reroute (setPortState s p 5 code) waiting
  else
    let s := setPortState s p 3 code
    let s := if same then setPort s p { getPort s p with queue := waiting } else s
    let s := reroute (sendRoutes s) (if same then [] else waiting)
    pump s p ((getPort s p).queue.length + 8)

/-- A half-width retrain, or the CONFIG of a parked port, has ended in ACTIVE (R380, Table 19.7). -/
def trainedHalf (s : State) (p code g : Nat) : State :=
  let x := getPort s p
  let s := setPort s p { x with train := .idle, half := false, group := g, parked := false, since := fineNow s }
  let s := sendRoutes (setPortState s p 3 code)
  pump (resendReplay s p) p ((getPort s p).queue.length + 8)

/-- RETRAIN written 1 (R381): ignored and counted while the port trains. A DISABLED port stays so. -/
def retrainIn (p : Nat) (s : State) : State :=
  if portState s p = 2 ∨ portState s p = 4 then writeReject s
  else if portState s p = 0 then s
  else startTraining s p

/-- RETRAIN. -/
def execRetrain (p : Nat) (s : State) : Out := .next (if 3 ≤ p then s else tlp s (.retrain p) (gate (R.BL_LINK_n_CTRL p) (retrainIn p)))

/-- A write of `EN` (R390, Table 15.2). -/
def linkEnIn (p : Nat) (v : Bool) (s : State) : State :=
  let s := sf s (R.BL_LINK_n_CTRL p) F.BL_LINK_n_CTRL.EN (b2n v)
  if !v then portDown s p 0 else if portState s p = 0 then setPortState s p 1 0 else s

/-- BL_LINK_EN. -/
def execBlLinkEn (p : Nat) (v : Bool) (s : State) : Out :=
  .next (if 3 ≤ p then s else tlp s (.blLinkEn p v) (gate (R.BL_LINK_n_CTRL p) (linkEnIn p v)))

/-- A receive lane locks after 8 error-free TSA that carry `tag` (R378): the first lock sets the order. -/
def laneLock (s : State) (p lane tag : Nat) (inverted : Bool) : State :=
  let x := getPort s p
  let rev : Option Bool := if x.reversed.isSome then x.reversed
    else if tag = lane then some false else if tag + lane = 7 then some true else none
  match rev with
  | none => s
  | some r =>
    if (if r then tag + lane != 7 else tag != lane) then s
    else
      let s := setPort s p { x with reversed := some r, inverted := Nat.lor x.inverted (b2n inverted * 2 ^ lane) }
      let s := sf s (R.BL_LINK_n_STATE p) F.BL_LINK_n_STATE.REVERSED (b2n r)
      sf s (R.BL_LINK_n_STATE p) F.BL_LINK_n_STATE.LANES_LOCKED (Nat.lor (lanesLocked s p) (2 ^ tag))

/-- LANE_LOCK. A parked port that leaves Deep Sleep begins its training with it (Table 19.8). -/
def execLaneLock (p lane tag : Nat) (inverted : Bool) (s : State) : Out :=
  .next (
    if 3 ≤ p ∨ 8 ≤ lane ∨ 8 ≤ tag then s
    else
      let waking := match s.pwr.phase with
        | .exiting 3 _ _ _ => (getPort s p).parked
        | _ => false
      let s := if waking then startTraining (setPortState s p 1 0) p else s
      if (getPort s p).train = .detect then laneLock s p lane tag inverted else s)

/-- EQUALISE: 1 ms after the first lane locked, PRBS31 goes out on every lane for 2 ms (R378). -/
def execEqualise (p : Nat) (s : State) : Out :=
  .next (if (getPort s p).train = .detect ∧ lanesLocked s p ≠ 0 then
    let s := setPort s p { getPort s p with train := .equalise }
    { s with out := s.out ++ [.prbs31 p 2] } else s)

/-- CONFIG: TSB are sent, after EQUALISE, or after DETECT where the equalisation was saved. An ACTIVE port that meets the TSB of the
far end's half-width retrain answers with TSB (R380; log entry 119). -/
def execConfig (p : Nat) (s : State) : Out :=
  .next (
    let x := getPort s p
    if x.train = .equalise ∨ (x.train = .detect ∧ x.savedEq ∧ lanesLocked s p ≠ 0) then
      sendSets (setPort s p { x with train := .config }) p 2 (lanesLocked s p) x.cap 0
    else if p < 3 ∧ portState s p = 3 ∧ x.train = .idle ∧ !x.parked then startHalf s p (portWidth s p)
    else s)

/-- CONFIG_DONE: 8 identical TSB have arrived and the marked ones have been sent (R378 to R380). -/
def execConfigDone (p : Nat) (tsb : List Byte) (s : State) : Out :=
  .next (
    let x := getPort s p
    let waking := match s.pwr.phase with
      | .exiting 2 _ _ _ => x.parked
      | _ => false
    if 3 ≤ p then s
    else if waking then
      let cap := portWidth s p
      match (if tsbOk tsb true then agreeWidth (Nat.land (lanesLocked s p) (mByte tsb 5)) (min cap (mByte tsb 6)) else none) with
      | some (c, g) => trainedHalf (sendMarked s p cap) p c g
      | none => trainFails s p
    else if x.train ≠ .config then s
    else
      match (if tsbOk tsb x.half then agreeWidth (Nat.land (lanesLocked s p) (mByte tsb 5)) (min x.cap (mByte tsb 6)) else none) with
      | some (c, g) =>
        let s := sendMarked s p x.cap
        if x.half then trainedHalf s p c g else trainedFull s p c g tsb
      | none => trainFails s p)

/-- TRAINING_TIMEOUT: DETECT with fewer than 2 lanes, or CONFIG, has not finished in time (R378, R523). -/
def execTrainingTimeout (p : Nat) (s : State) : Out :=
  .next (
    let x := getPort s p
    let n := ((List.range 8).filter (fun i => nbit (lanesLocked s p) i)).length
    if (x.train = .detect ∧ n < 2) ∨ x.train = .config then trainFails s p else s)

/-- AUTO_RETRY: 100 ms in DOWN (R421). -/
def execAutoRetry (p : Nat) (s : State) : Out :=
  .next (if p < 3 && bootDone s && portState s p == 1 && rb s (R.BL_LINK_n_CTRL p) F.BL_LINK_n_CTRL.EN &&
      rb s (R.BL_LINK_n_CTRL p) F.BL_LINK_n_CTRL.AUTO_RETRY && !held s then startTraining s p else s)

/-! ### Relay, and discards at assembly (R398, R413) -/

/-- Slots of a class have been freed here (R387). -/
def slotsFreed (s : State) (p : Nat) (m : List Byte) : State :=
  let x := getPort s p
  setPort s p { x with freed := Tab.set 0 x.freed (mClass m) ((Tab.get 0 x.freed (mClass m) + m.length / 16) % 4096) }

/-- The flit that carries acknowledgements and credits back. -/
def sendIdle (s : State) (p : Nat) : State := if (portState s p == 3 || portState s p == 5) && !(getPort s p).parked then emitFlit s p 1 0 [] else s

/-- A message for another pod is forwarded, or discarded and counted (R413). -/
def relayMsg (s : State) (m : List Byte) : State :=
  match (if mHop m then directPort s (mDst m) else none) with
  | some q => portSend (bump s 0xA00508) q m
  | none => bump s 0xA00510

/-- Response types that answer a request (Table 15.8). -/
def answerType (type : Nat) : Option Nat :=
  match type with
  | 0x01 => some 0x08
  | 0x02 => some 0x09
  | 0x03 => some 0x0A
  | 0x10 => some 0x18
  | 0x11 => some 0x19
  | 0x13 => some 0x1A
  | _ => none

/-- Refuse a request (R398, R400): types with a data slot carry zeros. -/
def refuseMsg (s : State) (m : List Byte) : State :=
  match answerType (mType m) with
  | none => s
  | some a => sendRsp s m a St.REMOTE_REFUSED (if a = 0x0A ∨ a = 0x19 then List.replicate 16 0 else [])

/-- Discard a message as malformed (R398). -/
def malformed (s : State) (p : Nat) (m : List Byte) : State :=
  refuseMsg (logX (bump32 s R.BL_MALFORMED) 0x0A05 4 0xFF [BitVec.ofNat 8 p, BitVec.ofNat 8 (mType m)]) m

/-- STREAM_ACK for a stream (R415). -/
def streamAck (s : State) (m : List Byte) : State :=
  if !mHop m then s
  else
    let last := (Tab.get 0 s.link.rxE2E (4 * mSrc m + mClass m) + 2 ^ 32 - 1) % 2 ^ 32
    (sendMsg s (mSrc m) 0x20 0 0 (bytesLE 4 last ++ bytesLE 1 (mClass m)) []).1

/-- The stream's verdict on a message (R414): delivered to `k`, or discarded. -/
def inStream (s : State) (m : List Byte) (k : State → List Byte → State) : State :=
  if !numbered (mType m) then k s m
  else
    let key := 4 * mSrc m + mClass m
    let want := Tab.get 0 s.link.rxE2E key
    if mSeq m = want then
      k (streamAck { s with link := { s.link with rxE2E := Tab.set 0 s.link.rxE2E key ((want + 1) % 2 ^ 32) } } m) m
    else if mSeq m < want then
      streamAck (traceEv (bump s 0xA00518) 53 4 0xFF none false [BitVec.ofNat 8 (mSrc m), BitVec.ofNat 8 (mClass m)]) m
    else logX s 0x0A06 4 0xFF ([BitVec.ofNat 8 (mSrc m), BitVec.ofNat 8 (mClass m)] ++ bytesLE 4 (mSeq m))

/-- Types of Table 15.8. -/
def typeKnown (t : Nat) : Bool :=
  [0x01, 0x02, 0x03, 0x08, 0x09, 0x0A, 0x10, 0x11, 0x12, 0x13, 0x18, 0x19, 0x1A, 0x20, 0x21, 0x30, 0x31, 0x32, 0x33, 0x34, 0x35,
   0x36].contains t

/-- Length of the data that a read asked for, be it waited for or no more. -/
def readLen (s : State) (pod tag : Nat) : Option Nat :=
  match s.link.reqs.find? (fun r => r.sent && r.tag == tag && r.pod == pod && r.type == 1) with
  | some r => some r.len
  | none => (s.link.gone.find? (fun g => g.pod == pod && g.tag == tag)).map (·.len)

/-- Length in bytes of the message at the head of some received slots. A read response takes its length from the request; one
that passes through or answers nothing this device asked for, and an unknown type, reaches to the end of the slots received (log
entry 32). -/
def headLen (s : State) (bs : List Byte) : Nat :=
  let all := bs.length / 16 * 16
  if !typeKnown (mType bs) then all
  else if mType bs = 0x08 ∧ mLE bs 8 2 = 0 then
    match (if mDst bs = s.boot.podId then readLen s (mSrc bs) (mTag bs) else none) with
    | some n => 16 + 16 * ceilDiv n 16
    | none => all
  else 16 + 16 * dataSlots bs 0

/-- An earlier message of the same stream waits in some port's inbox: earlier in this one, or with a lower `E2E_SEQ` (R399, R414). -/
def streamBlocked (s : State) (p : Nat) (before : List (List Byte)) (m : List Byte) : Bool :=
  let same (q : List Byte) : Bool := mSrc q == mSrc m && mClass q == mClass m && numbered (mType q) == numbered (mType m)
  before.any same || ([0, 1, 2].filter (· != p)).any (fun i =>
    (getPort s i).inbox.any (fun q => same q && decide (mSeq q < mSeq m)))

/-- Messages of unknown types at the front of their streams are discarded in their turn (R398). -/
def dropUnknown (p : Nat) : Nat → State → State
  | 0, s => s
  | fuel + 1, s =>
    let inb := (getPort s p).inbox
    match inb.zipIdx.find? (fun x => !typeKnown (mType x.1) && !streamBlocked s p (inb.take x.2) x.1) with
    | none => s
    | some x =>
      let m := x.1
      let s := slotsFreed (setPort s p { getPort s p with inbox := inb.eraseIdx x.2 }) p m
      dropUnknown p fuel (inStream s m (fun s m => malformed s p m))

/-- Discard what is unknown in a port's inbox. -/
def dropUnknowns (s : State) (p : Nat) : State := dropUnknown p (getPort s p).inbox.length s

/-- Cut the received slots into messages: for this device into the inbox, for others onward. -/
def assemble (p : Nat) : Nat → State → State
  | 0, s => s
  | fuel + 1, s =>
    let x := getPort s p
    let n := headLen s x.rxSlots
    if x.rxSlots.length < 16 ∨ x.rxSlots.length < n ∨ n = 0 then s
    else
      let m := x.rxSlots.take n
      let s := setPort s p { x with rxSlots := x.rxSlots.drop n }
      if mDst m != s.boot.podId then assemble p fuel (relayMsg (slotsFreed s p m) m)
      else assemble p fuel (setPort s p { getPort s p with inbox := (getPort s p).inbox ++ [m] })

/-! ### Flits (R382 to R390) -/

/-- The CRC of a flit is good. -/
def flitGood (fl : List Byte) : Bool := fl.length == 256 && crc64 (fl.take 248) == mLE fl 248 8

/-- Take the acknowledgement of a flit. -/
def takeAck (s : State) (p : Nat) (fl : List Byte) : State :=
  if !nbit (mByte fl 4) 2 then s
  else
    let x := getPort s p
    let ack := mLE fl 2 2
    setPort s p { x with replay := x.replay.filter (fun f => decide (32768 ≤ (ack + 65536 - f.seq) % 65536)) }

/-- Take the credits of a flit: the change from the last counts seen (R387). -/
def takeCredits (s : State) (p : Nat) (fl : List Byte) : State :=
  let v := mLE fl 8 6
  [0, 1, 2, 3].foldl (fun s c =>
    let x := getPort s p
    let ret := nbits v (12 * c + 11) (12 * c)
    let d := (ret + 4096 - Tab.get 0 x.lastRet c) % 4096
    setPort s p { x with credits := Tab.set 0 x.credits c (Tab.get 0 x.credits c + d), lastRet := Tab.set 0 x.lastRet c ret }) s

/-- Send one NAK for the flit now expected (R386). A port in RETRAINING sends no flits, and one in STANDBY idle flits only (R380,
R410). -/
def sendNak (s : State) (p : Nat) : State :=
  let x := getPort s p
  if x.nakSent || portState s p != 3 then s
  else emitFlit (bump (setPort s p { x with nakSent := true }) (0xA00060 + 0x100 * p)) p 2 0 []

/-- The count of replays in the window reaches a figure of Table 15.5. -/
def replayThreshold (s : State) (p n : Nat) : State :=
  let x := getPort s p
  if n = 8 ∧ !x.did8 then logPort (portErr (setPort s p { x with did8 := true }) p F.BL_LINK_n_ERR.WARN) 0x0A01 p (portWidth s p)
  else if n = 32 ∧ !x.did32 then
    let s := logPort (portErr (setPort s p { x with did32 := true }) p F.BL_LINK_n_ERR.RETRAINED) 0x0A02 p (portWidth s p)
    startHalf s p (max 1 (portWidth s p - 1))
  else if n = 128 ∧ !x.did128 then portDown (setPort s p { x with did128 := true }) p 1
  else s

/-- A replay (R388): counted, and every unacknowledged flit sent again. -/
def replayNow (s : State) (p : Nat) : State :=
  if portState s p != 3 then s
  else
    let n := satAdd 255 (rf s (R.BL_LINK_n_ERR p) F.BL_LINK_n_ERR.REPLAYS) 1
    let s := sf (bump s (0xA00058 + 0x100 * p)) (R.BL_LINK_n_ERR p) F.BL_LINK_n_ERR.REPLAYS n
    let first := (((getPort s p).replay.head?).map (·.seq)).getD 0
    let s := traceEv s 47 4 0xFF none false (bytesLE 1 p ++ bytesLE 2 first)
    replayThreshold (resendReplay s p) p n

/-- Slots of a flit that `SLOT_VALID` marks. -/
def validSlots (fl : List Byte) : List Byte :=
  ((List.range 14).map (fun i => if nbit (mLE fl 6 2) i then (fl.drop (16 + 16 * i)).take 16 else [])).flatten

/-- A payload flit with a good CRC (R386). -/
def takePayload (s : State) (p : Nat) (fl : List Byte) : State :=
  let x := getPort s p
  let d := (mLE fl 0 2 + 65536 - x.rxSeq) % 65536
  if d = 0 then
    let s := setPort s p { x with rxSeq := (x.rxSeq + 1) % 65536, nakSent := false, rxSlots := x.rxSlots ++ validSlots fl }
    sendIdle (dropUnknowns (assemble p 32 (bump s (0xA00048 + 0x100 * p))) p) p
  else if d < 32768 then sendNak s p
  else s

/-- A flit arrives at a port (R386 to R388). -/
def rxFlit (s : State) (p : Nat) (fl : List Byte) : State :=
  if 3 ≤ p ∨ !(portState s p == 3 || portState s p == 4 || portState s p == 5) ∨ (getPort s p).parked then s
  else if !flitGood fl then sendNak (bump s (0xA00050 + 0x100 * p)) p
  else
    let s := takeCredits (takeAck s p fl) p fl
    let kind := nbits (mByte fl 4) 1 0
    let s := if kind = 0 ∧ mLE fl 6 2 % 16384 ≠ 0 then takePayload s p fl else if kind = 2 then replayNow s p else s
    pump s p ((getPort s p).queue.length + 1)

/-- PAYLOAD_FLIT. -/
def execPayloadFlit (p : Nat) (fl : List Byte) (s : State) : Out := .next (rxFlit s p fl)

/-- NAK: a flit of kind 2. -/
def execNak (p : Nat) (fl : List Byte) (s : State) : Out := .next (if nbits (mByte fl 4) 1 0 = 2 then rxFlit s p fl else s)

/-- REPLAY_TIMEOUT: 10 µs with unacknowledged flits. -/
def execReplayTimeout (p : Nat) (s : State) : Out :=
  .next (if p < 3 && !(getPort s p).replay.isEmpty && !(getPort s p).parked then replayNow s p else s)

/-- REPLAY_WINDOW: a new window. -/
def execReplayWindow (p : Nat) (s : State) : Out :=
  .next (if 3 ≤ p then s else
    setPort (sf s (R.BL_LINK_n_ERR p) F.BL_LINK_n_ERR.REPLAYS 0) p { getPort s p with did8 := false, did32 := false, did128 := false })

/-- LINK_SILENCE_TIMEOUT: no good flit for 100 µs in ACTIVE (R390); from its device's first step of entry on, a port expects its far end
to go to electrical idle (R524). -/
def execLinkSilenceTimeout (p : Nat) (s : State) : Out :=
  .next (if p < 3 && portState s p == 3 && !(getPort s p).parked && decide (s.pwr.phase = .awake) then portDown s p 1 else s)

/-! ### Messages for this device (15.5 to 15.8) -/

/-- Bits of header bytes 8 to 15 that a type may use (Tables 15.8, 19.2). -/
def headerMask (type : Nat) : List Nat :=
  if type = 0x01 ∨ type = 0x02 then [255, 255, 255, 255, 255, 255, 0, 0]
  else if type = 0x03 then [255, 255, 255, 255, 255, 0x1F, 0, 0]
  else if [0x08, 0x09, 0x0A, 0x18, 0x19, 0x1A].contains type then [255, 255, 0, 0, 0, 0, 0, 0]
  else if type = 0x10 ∨ type = 0x12 then [0x7F, 0, 255, 1, 0, 0, 0, 0]
  else if type = 0x11 then [0x7F, 1, 255, 1, 0, 0, 0, 0]
  else if type = 0x13 then [0x7F, 0, 255, 255, 0, 0, 0, 0]
  else if type = 0x20 then [255, 255, 255, 255, 3, 0, 0, 0]
  else if type = 0x21 then [0x0F, 0, 255, 255, 0, 0, 0, 0]
  else if type = 0x30 then [3, 0, 0, 0, 0, 0, 0, 0]
  else if type = 0x31 ∨ type = 0x32 then [3, 0, 255, 255, 0, 0, 0, 0]
  else if type = 0x33 then [3, 255, 255, 255, 0, 0, 0, 0]
  else if type = 0x34 ∨ type = 0x36 then [0, 255, 255, 255, 0, 0, 0, 0]
  else if type = 0x35 then [3, 1, 255, 255, 0, 0, 0, 0]
  else [0, 0, 0, 0, 0, 0, 0, 0]

/-- The class suits the type (Table 15.8). -/
def classOk (type cls : Nat) : Bool :=
  if type = 0x01 ∨ type = 0x02 then cls == 1 || cls == 3
  else if type = 0x03 then cls == 1
  else if [0x08, 0x09, 0x0A, 0x18, 0x19, 0x1A].contains type then cls == 2
  else if type = 0x13 then cls != 2
  else cls == 0

/-- Local address of a remote access. -/
def reqAddr (m : List Byte) : Nat := mLE m 8 5

/-- Length of a remote access: of an atomic, 4 or 8. -/
def reqLen (m : List Byte) : Nat := if mType m = 3 then (if nbit (mByte m 13) 4 then 8 else 4) else mByte m 13 + 1

/-- R397, and `AOP` within Table 12.12. -/
def accessOk (m : List Byte) : Bool :=
  if mType m = 1 ∨ mType m = 2 then decide (reqAddr m < 2 ^ 38) && decide (reqAddr m % 128 + reqLen m ≤ 128)
  else if mType m = 3 then decide (reqAddr m < 2 ^ 38) && reqAddr m % reqLen m == 0 && decide (nbits (mByte m 13) 3 0 ≤ 9)
  else true

/-- Bytes of data that a message carries in its data slots (Tables 12.12 and 15.8): those behind them are 0 (R396). -/
def dataBytes (m : List Byte) : Option Nat :=
  match mType m with
  | 0x02 => some (mByte m 13 + 1)
  | 0x03 => some (if nbits (mByte m 13) 3 0 = 9 then 2 * reqLen m else reqLen m)
  | 0x10 => some 8
  | 0x11 => some 8
  | 0x13 => some 20
  | 0x19 => some 8
  | _ => none

/-- A message of a known type is well made (R398): class, R397, and no reserved bit set, be it in the header, in `E2E_SEQ` of an
unnumbered message or behind the data. -/
def wellMade (m : List Byte) : Bool :=
  !nbit (mByte m 1) 7 && classOk (mType m) (mClass m) && accessOk m && (numbered (mType m) || mSeq m == 0) &&
  ((dataBytes m).map (fun n => (m.drop (16 + n)).all (· == 0))).getD true &&
  (List.range 8).all (fun i => Nat.land (mByte m (8 + i)) (255 - ((headerMask (mType m))[i]?).getD 0) == 0)

/-- The first message of a type in a port's inbox, if no earlier one belongs to its stream (R399). -/
def firstOf (p type : Nat) (s : State) : Option (List Byte) :=
  let inb := (getPort s p).inbox
  match inb.find? (fun m => mType m == type) with
  | none => none
  | some m => if streamBlocked s p (inb.takeWhile (fun q => mType q != type)) m then none else some m

/-- Perform the first message of a type: `wait` may keep it where it is; `k` is its effect. -/
def recv (s : State) (p type : Nat) (wait : State → List Byte → Option State) (k : State → List Byte → State) : State :=
  match firstOf p type s with
  | none => s
  | some m =>
    match (if wellMade m then wait s m else none) with
    | some s' => s'
    | none =>
      let s := slotsFreed (setPort s p { getPort s p with inbox := (getPort s p).inbox.erase m }) p m
      raiseMet (sendIdle (dropUnknowns (inStream s m (fun s m => if wellMade m then k s m else malformed s p m)) p) p)

/-- No message of the type waits. -/
def noWait (_s : State) (_m : List Byte) : Option State := none

/-- A write or an atomic that cannot become visible, WEDGED being set, is neither made nor acknowledged (R401, R537). -/
def wedgedWait (s : State) (_m : List Byte) : Option State := if wedgedNow s then some s else none

/-- R159: the window is open to the source pod and the address lies within the capacity. -/
def podAllowed (s : State) (m : List Byte) : Bool :=
  let w := reqAddr m / 2 ^ 30
  let mask := (rd s (R.MT_POD_ALLOW_p_LO (mSrc m))).toNat + (rd s (R.MT_POD_ALLOW_p_HI (mSrc m))).toNat * 2 ^ 32
  nbit mask w && decide (reqAddr m + reqLen m ≤ capBytes s)

/-- RD_REQ (R400). -/
def onRdReq (s : State) (m : List Byte) : State :=
  if !podAllowed s m then refuseMsg s m
  else sendRsp (touchRead s none true (reqAddr m) (reqLen m)) m 0x08 St.DONE (readL s (reqAddr m) (reqLen m))

/-- WR_REQ (R400, R401). -/
def onWrReq (s : State) (m : List Byte) : State :=
  if !podAllowed s m then refuseMsg s m
  else
    let s := writeL (touchWrite s true (reqAddr m) (reqLen m)) (reqAddr m) ((m.drop 16).take (reqLen m))
    sendRsp s m 0x09 St.DONE []

/-- What an atomic leaves in memory, on numbers of w bits (Table 12.12). -/
def atomVal (w aop m c c1 : Nat) : Nat :=
  match aop with
  | 0 => (m + c) % 2 ^ w
  | 1 => if signedOf w m ≤ signedOf w c then m else c
  | 2 => if signedOf w m ≤ signedOf w c then c else m
  | 3 => min m c
  | 4 => max m c
  | 5 => Nat.land m c
  | 6 => Nat.lor m c
  | 7 => Nat.xor m c
  | 8 => c
  | _ => if m = c then c1 else m

/-- AT_REQ (R400, R401). -/
def onAtReq (s : State) (m : List Byte) : State :=
  if !podAllowed s m then refuseMsg s m
  else
    let n := reqLen m
    let old := ofBytesLE (readL s (reqAddr m) n)
    let new := atomVal (8 * n) (nbits (mByte m 13) 3 0) old (mLE m 16 n) (mLE m (16 + n) n)
    let s := writeL (touchWrite s true (reqAddr m) n) (reqAddr m) (bytesLE n new)
    sendRsp s m 0x0A St.DONE (bytesLE n old)

/-- Take the request a response answers: its place on the port is free for a waiting one (R402). -/
def takeReq (s : State) (m : List Byte) (types : List Nat) : State × Option RemoteReq :=
  match s.link.reqs.find? (fun r => r.sent && r.tag == mTag m && r.pod == mSrc m && types.contains r.type) with
  | some r =>
    let s := { s with link := { s.link with reqs := s.link.reqs.erase r } }
    let s := traceEv s 50 4 r.fn ((getPkt s r.fn r.pos).map (·.tag)) false
      ([BitVec.ofNat 8 (mType m), BitVec.ofNat 8 (mSrc m)] ++ bytesLE 2 (mLE m 8 2))
    (issueWaiting s, some r)
  | none => ({ s with link := { s.link with gone := s.link.gone.filter (fun g => !(g.pod == mSrc m && g.tag == mTag m)) } }, none)

/-- The packet that a response's access belongs to still runs. -/
def stillWanted (s : State) (r : RemoteReq) : Bool := ((getPkt s r.fn r.pos).map (·.phase != .complete)).getD false

/-- A peer refuses an access (R160, R181). -/
def accessRefused (s : State) (r : RemoteReq) : State :=
  match r.owner with
  | .copy e => xferRemoteFails s e r.fn r.pos St.REMOTE_REFUSED r.va (r.type == 2)
  | _ => accessFault s r.fn r.va (r.type == 2) St.REMOTE_REFUSED r.pos

/-- RD_RSP: the data waits for the access that asked (R401). -/
def onRdRsp (s : State) (m : List Byte) : State :=
  match takeReq s m [1] with
  | (s, none) => s
  | (s, some r) =>
    if mLE m 8 2 != St.DONE then accessRefused s r
    else if !stillWanted s r then s
    else
      let bs := (m.drop 16).take r.len
      let cache := (bs.foldl (fun (a : Tab (Option Byte) × Nat) b => (Tab.insert a.1 a.2 (some b), a.2 + 1))
        (s.link.cache, podKey r.who r.fn r.pod r.addr)).1
      resumeRemote { s with link := { s.link with cache := cache } }

/-- WR_ACK: the write is visible at the peer (R401). -/
def onWrAck (s : State) (m : List Byte) : State :=
  match takeReq s m [2] with
  | (s, none) => s
  | (s, some r) => if mLE m 8 2 != St.DONE then accessRefused s r else settleFn (resumeRemote s) r.fn

/-- AT_RSP: the prior value goes to the access that asked. This device's shader programs trap on atomics outside local memory
(R312), so none of its requests is answered by one. -/
def onAtRsp (s : State) (m : List Byte) : State :=
  match takeReq s m [3] with
  | (s, none) => s
  | (s, some r) => if mLE m 8 2 != St.DONE then accessRefused s r else settleFn (resumeRemote s) r.fn

/-- Function and slot of a fence message. -/
def mFn (m : List Byte) : Nat := nbits (mByte m 8) 6 0
def mSlot (m : List Byte) : Nat := mLE m 10 2 % 512

/-- A function takes fences and messages from peers. -/
def fnOpen (s : State) (f : Nat) : Bool := fnExists s f && fnEnabled s f && !fnHalted s f

/-- A FENCE_WR may be written (R404). -/
def fenceWrOk (s : State) (m : List Byte) : Bool :=
  let v := mLE m 16 8
  fnOpen s (mFn m) && decide (v < 2 ^ 63) && decide (Tab.get 0 (getFn s (mFn m)).fenceRec (mSlot m) ≤ v)

/-- The write of a FENCE_WR's slot. -/
def fenceWrWrite (s : State) (m : List Byte) : RingWrite :=
  ringWrite s (mFn m) (fenceBase s (mFn m) + 8 * mSlot m) (ringHead s (mFn m)) (bytesLE 8 (mLE m 16 8))

/-- A FENCE_WR or MSG waits while its ring object awaits a translation. -/
def waitsOn (ok : Bool) (w : RingWrite) : Option State :=
  if !ok then none
  else match w with
    | .waits s' => some s'
    | _ => none

/-- FENCE_WR (R404, R406). -/
def onFenceWr (s : State) (m : List Byte) : State :=
  if !fenceWrOk s m then refuseMsg s m
  else match fenceWrWrite s m with
    | .written s' =>
      let f := mFn m
      let v := mLE m 16 8
      let s' := modFn s' f (fun x => { x with fenceRec := Tab.set 0 x.fenceRec (mSlot m) v })
      let s' := traceEv (raiseFence s' f (mSlot m)) 51 1 f none false [BitVec.ofNat 8 (mType m), BitVec.ofNat 8 (mSrc m)]
      sendRsp (fenceWritten s' f (mSlot m) v) m 0x18 St.DONE []
    | _ => refuseMsg (ringLost s (mFn m) (ringHead s (mFn m))) m

/-- FENCE_WATCH (R407): notified at once, registered, or refused. -/
def onFenceWatch (s : State) (m : List Byte) : State :=
  let f := mFn m
  let e := nbit (mByte m 9) 0
  let c := Tab.get 0 (getFn s f).shadow (mSlot m)
  if !(fnExists s f && fnEnabled s f) then refuseMsg (bump s 0xA00528) m
  else if fenceMeets c (mLE m 16 8) e then sendRsp s m 0x19 St.DONE (bytesLE 8 c)
  else if 512 ≤ s.link.watches.length then refuseMsg (bump s 0xA00528) m
  else { s with link := { s.link with watches := s.link.watches ++ [⟨mSrc m, mTag m, f, mSlot m, e, mLE m 16 8⟩] } }

/-- FENCE_UNWATCH (R407). -/
def onFenceUnwatch (s : State) (m : List Byte) : State :=
  { s with link := { s.link with watches := s.link.watches.filter (fun w => !(w.pod == mSrc m && w.tag == mTag m)) } }

/-- The entry of a received MSG (Table 4.13); its SRC_FUNCTION travels in no field of the message (log entry 15). -/
def inboundEntry (m : List Byte) (srcFn : Nat) : List Byte :=
  bytesLE 2 0 ++ bytesLE 2 (mLE m 10 2) ++ bytesLE 4 (0x50 + 2 ^ 31) ++ bytesLE 4 (mSrc m + srcFn % 128 * 4) ++ (m.drop 16).take 20

/-- A MSG may be written (R124). -/
def msgRoom (s : State) (m : List Byte) : Bool := fnOpen s (mFn m) && replyRoom s (mFn m)

/-- The write of a MSG's entry. -/
def msgWrite (s : State) (m : List Byte) : RingWrite :=
  let r := freshNat s
  putReply r.1 (mFn m) (ringHead s (mFn m)) (inboundEntry m r.2)

/-- MSG (R124, R408). -/
def onMsg (s : State) (m : List Byte) : State :=
  if !msgRoom s m then refuseMsg s m
  else match msgWrite s m with
    | .written s' =>
      let s' := raiseEvent s' (mFn m) F.HI_MSIX_EVENT_MAP.REPLY_VEC F.HI_MSIX_EVENT_MAP.REPLY_EN
      let s' := traceEv s' 51 1 (mFn m) none false [BitVec.ofNat 8 (mType m), BitVec.ofNat 8 (mSrc m)]
      sendRsp s' m 0x1A St.DONE []
    | _ => refuseMsg (ringLost s (mFn m) (ringHead s (mFn m))) m

/-- FENCE_ACK and MSG_ACK complete the packet that waits for them (R115, R124). -/
def onAck (types : List Nat) (s : State) (m : List Byte) : State :=
  match takeReq s m types with
  | (s, none) => s
  | (s, some r) => settleFn (finishPkt s r.fn r.pos (mLE m 8 2) 0) r.fn

/-- FENCE_NOTIFY ends a remote WAIT_FENCE; a refusal is tried again every 10 µs (R407). -/
def onFenceNotify (s : State) (m : List Byte) : State :=
  match takeReq s m [0x11] with
  | (s, none) => s
  | (s, some r) =>
    match getPkt s r.fn r.pos with
    | none => s
    | some p =>
      if mLE m 8 2 != St.DONE then modPkt s r.fn r.pos (fun q => { q with remoteWait := true })
      else settleFn (endWait s r.fn p (mLE m 16 8)) r.fn

/-- Release one waiting relayed message for a destination (R415). -/
def releaseBacklog (s : State) (d : Nat) : Nat → State
  | 0 => s
  | fuel + 1 =>
    match s.link.backlog.find? (fun h => h.dst == d) with
    | none => s
    | some h =>
      if decide (1024 ≤ (s.link.relayed.filter (fun h => h.dst == d)).length) then s
      else match streamRoute s d (mClass h.msg) with
        | none => s
        | some (p, via) =>
          let s := { s with link := { s.link with backlog := s.link.backlog.erase h } }
          let s := match via with
            | some k => portSend { s with link := { s.link with relayed := s.link.relayed ++ [{ h with via := k }] } } p h.msg
            | none => portSend s p (setHop h.msg false)
          releaseBacklog s d fuel

/-- STREAM_ACK: the messages it covers are no longer held (R415). -/
def onStreamAck (s : State) (m : List Byte) : State :=
  let c := nbits (mByte m 12) 1 0
  let s := { s with link := { s.link with
    relayed := s.link.relayed.filter (fun h => !(h.dst == mSrc m && mClass h.msg == c && decide (mSeq h.msg ≤ mLE m 8 4))) } }
  releaseBacklog s (mSrc m) (s.link.backlog.length + 1)

/-- A peer comes back in another incarnation (R417): streams reset, requests and watches at it fail, messages for it go. -/
def peerRestarted (s : State) (d : Nat) : State :=
  let mine (m : List Byte) : Bool := mDst m == d && mSrc m == s.boot.podId
  let s := { s with link := { s.link with
    txE2E := s.link.txE2E.filter (fun e => e.1 / 4 != d)
    rxE2E := s.link.rxE2E.filter (fun e => e.1 / 4 != d)
    relayed := s.link.relayed.filter (fun h => h.dst != d)
    backlog := s.link.backlog.filter (fun h => h.dst != d)
    watches := s.link.watches.filter (fun w => w.pod != d)
    ports := s.link.ports.map (fun e => (e.1, { e.2 with queue := e.2.queue.filter (fun m => !mine m) })) } }
  let s := failReqs s (s.link.reqs.filter (fun r => r.pod == d))
  { s with link := { s.link with gone := s.link.gone.filter (fun g => g.pod != d) } }

/-- ROUTE_STATE (R411, R417). -/
def onRouteState (s : State) (m : List Byte) : State :=
  let d := mSrc m
  let inc := mLE m 10 2
  let changed := ((Tab.get none s.link.peerInc d).map (· != inc)).getD false
  let s := { s with link := { s.link with peerDirect := Tab.set 0 s.link.peerDirect d (mByte m 8)
                                          peerInc := Tab.set none s.link.peerInc d (some inc) } }
  reroute (if changed then peerRestarted s d else s) []

/-- RD_REQ. -/
def execMsgRdReq (p : Nat) (s : State) : Out := .next (recv s p 0x01 noWait onRdReq)

/-- WR_REQ. -/
def execMsgWrReq (p : Nat) (s : State) : Out := .next (recv s p 0x02 wedgedWait onWrReq)

/-- AT_REQ. -/
def execMsgAtReq (p : Nat) (s : State) : Out := .next (recv s p 0x03 wedgedWait onAtReq)

/-- RD_RSP. -/
def execMsgRdRsp (p : Nat) (s : State) : Out := .next (recv s p 0x08 noWait onRdRsp)

/-- WR_ACK. -/
def execMsgWrAck (p : Nat) (s : State) : Out := .next (recv s p 0x09 noWait onWrAck)

/-- AT_RSP. -/
def execMsgAtRsp (p : Nat) (s : State) : Out := .next (recv s p 0x0A noWait onAtRsp)

/-- FENCE_WR. -/
def execMsgFenceWr (p : Nat) (s : State) : Out :=
  .next (recv s p 0x10 (fun s m => waitsOn (fenceWrOk s m) (fenceWrWrite s m)) onFenceWr)

/-- FENCE_WATCH. -/
def execMsgFenceWatch (p : Nat) (s : State) : Out := .next (recv s p 0x11 noWait onFenceWatch)

/-- FENCE_UNWATCH. -/
def execMsgFenceUnwatch (p : Nat) (s : State) : Out := .next (recv s p 0x12 noWait onFenceUnwatch)

/-- MSG. -/
def execMsgMsg (p : Nat) (s : State) : Out := .next (recv s p 0x13 (fun s m => waitsOn (msgRoom s m) (msgWrite s m)) onMsg)

/-- FENCE_ACK. -/
def execMsgFenceAck (p : Nat) (s : State) : Out := .next (recv s p 0x18 noWait (onAck [0x10]))

/-- FENCE_NOTIFY. -/
def execMsgFenceNotify (p : Nat) (s : State) : Out := .next (recv s p 0x19 noWait onFenceNotify)

/-- MSG_ACK. -/
def execMsgMsgAck (p : Nat) (s : State) : Out := .next (recv s p 0x1A noWait (onAck [0x13]))

/-- STREAM_ACK. -/
def execMsgStreamAck (p : Nat) (s : State) : Out := .next (recv s p 0x20 noWait onStreamAck)

/-- ROUTE_STATE. -/
def execMsgRouteState (p : Nat) (s : State) : Out := .next (recv s p 0x21 noWait onRouteState)

/-- ROUTE_STATE_TIMER (R411). -/
def execRouteStateTimer (s : State) : Out := .next (if held s then s else sendRoutes s)

/-- FENCE_WATCH_RETRY: 10 µs after a refusal (R407). -/
def execFenceWatchRetry (f pos : Nat) (s : State) : Out :=
  .next (match getPkt s f pos with
    | none => s
    | some q =>
      if q.opcode != 0x03 || !q.remoteWait || q.phase != .dispatched then s
      else
        let s := modPkt s f pos (fun q => { q with remoteWait := false })
        if hasRoute s (q.bits 4 2 1) then sendWatch s f q else functionFault s f St.LINK_LOST pos)

/-! ### Roll-call messages (19.4) -/

/-- Perform a roll-call message, with its trace point. -/
def rcRecv (s : State) (p type : Nat) (k : State → List Byte → State) : State :=
  recv s p type noWait (fun s m => k (traceEv s 52 1 0xFF none false (bytesLE 1 type ++ bytesLE 2 (rcRound m))) m)

/-- ASK. -/
def execRcAsk (p : Nat) (s : State) : Out := .next (rcRecv s p 0x30 onAsk)

/-- PROPOSE. -/
def execRcPropose (p : Nat) (s : State) : Out := .next (rcRecv s p 0x31 onPropose)

/-- ACCEPT. -/
def execRcAccept (p : Nat) (s : State) : Out := .next (rcRecv s p 0x32 onAccept)

/-- DECLINE. -/
def execRcDecline (p : Nat) (s : State) : Out := .next (rcRecv s p 0x33 onDecline)

/-- WITHDRAW. -/
def execRcWithdraw (p : Nat) (s : State) : Out := .next (rcRecv s p 0x34 onWithdraw)

/-- VERDICT. -/
def execRcVerdict (p : Nat) (s : State) : Out := .next (rcRecv s p 0x35 onVerdict)

/-- WAKE. -/
def execRcWake (p : Nat) (s : State) : Out := .next (rcRecv s p 0x36 onWake)

end Sys2Proof.Machine
end

