-- ==== Sys2Proof/Machine/Caretaker.lean ====
section
/-! DEFINITION. Caretaker (chapter 17): sources, the storage cell and its protections, the harvester, LOAD_EN, case inputs,
WAKE_N, elapsed time, epoch and the Logbook. -/

namespace Sys2Proof.Machine

/-! ### The Logbook (17.6) -/

/-- ⌊C × 390,625 / 128⌋ (R473, R475). -/
def fineOfCoarse (c : Nat) : Nat := c * 390625 / 128

/-- The 32 bytes of a record, with the FINE it carries (Table 17.5, R475). -/
def recBytes (s : State) (r : LogRec) : List Byte × Nat :=
  let c := s.clk.coarse.toNat
  let fine := max s.log.lastFine (r.fine.getD (fineOfCoarse c))
  let flags := b2n r.fine.isNone + b2n (rb s R.KA_STATUS F.KA_STATUS.XTAL_FAIL) * 2
  let body := bytesLE 2 r.event ++ bytesLE 2 s.clk.epoch.toNat ++ bytesLE 6 c ++ bytesLE 2 s.log.nextSeq ++ bytesLE 8 fine ++
    [BitVec.ofNat 8 r.origin, BitVec.ofNat 8 r.fn] ++ ((r.detail ++ List.replicate 8 0).take 8) ++ [BitVec.ofNat 8 flags]
  (body ++ [crc8 0 body], fine)

/-- Append one record; a full Logbook loses its oldest (R476). The fine tick it carries joins H (R473). -/
def appendRec (s : State) (r : LogRec) : State :=
  let b := recBytes s r
  let s := { s with
    log := { s.log with recs := (b.1 :: s.log.recs).take 2048, nextSeq := (s.log.nextSeq + 1) % 65536, lastFine := b.2 }
    care := { s.care with hwm := max s.care.hwm (r.fine.getD 0) } }
  traceEv s 63 0 0xFF none false (bytesLE 2 r.event)

/-- LOGBOOK_APPEND: at a coarse-tick edge, Caretaker's own records and then those that have arrived through the crossing (R476); the
records that its producers held then enter it, for the next edge (R20, R24). -/
def execLogbookAppend (s : State) : Out :=
  .next (if !s.care.alive then s
    else
      let rs := s.log.own ++ Crossing.controlKeep.accepted s.log.cross
      rs.foldl appendRec { s with log := { s.log with own := [], cross := Crossing.controlKeep.heldBack s.log.cross } })

/-- A record by index, 0 the newest; 32 zero bytes at or beyond the count. -/
def logRecord (s : State) (i : Nat) : List Byte := (s.log.recs[i]?).getD (List.replicate 32 0)

/-- A read of `KA_LOG_DATA_0` latches the selected record and advances `INDEX` (R477). -/
def logLatch (s : State) : State :=
  let i := rf s R.KA_LOG_SELECT F.KA_LOG_SELECT.INDEX
  let bs := logRecord s i
  let s := (List.range 8).foldl (fun s k => wr s (R.KA_LOG_DATA_i k) (BitVec.ofNat 32 (ofBytesLE ((bs.drop (4 * k)).take 4)))) s
  sf s R.KA_LOG_SELECT F.KA_LOG_SELECT.INDEX ((i + 1) % 2048)

/-- A host read of `KA_LOG_DATA_0`. -/
def kaLogDataReadIn (s : State) : State :=
  if !s.care.alive then s
  else
    let s := logLatch s
    { s with out := s.out ++ [.readData (bytesLE 4 (rd s (R.KA_LOG_DATA_i 0)).toNat)] }

/-- KA_LOG_DATA_READ. -/
def execKaLogDataRead (s : State) : Out := .next (tlp s .kaLogDataRead kaLogDataReadIn)

/-! ### The cell (17.3) -/

def kaBit (s : State) (fd : Fld) : Bool := rb s R.KA_STATUS fd
def cellMvNow (s : State) : Nat := rf s R.KA_CELL_V F.KA_CELL_V.CELL_MV
def cellT16 (s : State) : Int := signedOf 16 (rf s R.KA_TEMP F.KA_TEMP.CELL_T)

/-- The paths stand latched open (Table 17.4). -/
def ocLatched (s : State) : Bool := rb s R.KA_PROT F.KA_PROT.OC_LATCH

/-- The cell is usable under R452: connected, its discharge path closed (R465). -/
def cellUsable (s : State) : Bool := kaBit s F.KA_STATUS.CELL_CONNECTED && !s.care.oc && !ocLatched s

/-- `HARV_STATE` (Table 17.3, R460): the highest code that applies. -/
def harvState (s : State) : Nat :=
  if !rb s R.KA_CFG F.KA_CFG.HARV_EN then 0
  else if s.care.ov || s.care.oc || ocLatched s then 6
  else if s.care.tempInh then 5
  else if kaBit s F.KA_STATUS.CELL_FULL then 4
  else if 250 ≤ rf s R.KA_PV F.KA_PV.VOC_MV then 3
  else 0

/-- `CHARGING`: a charge current flows, from VDD_AUX or the tracking harvester, and nothing opens or inhibits the path. With
the harvester alone feeding VKA no charge reaches the cell. -/
def charging (s : State) : Bool :=
  !kaBit s F.KA_STATUS.CELL_FULL && !s.care.ov && !s.care.oc && !ocLatched s && !s.care.tempInh &&
  (rf s R.KA_STATUS F.KA_STATUS.SOURCE == 0 || (harvState s == 3 && rf s R.KA_STATUS F.KA_STATUS.SOURCE != 3))

/-- Drive LOAD_EN; a change is recorded (R467). -/
def setLoad (s : State) (v : Bool) (mv : Nat) : State :=
  if kaBit s F.KA_STATUS.LOAD_EN = v then s
  else attn (logK (sf s R.KA_STATUS F.KA_STATUS.LOAD_EN (b2n v)) 0x0003 ([BitVec.ofNat 8 (b2n v)] ++ bytesLE 2 mv)) 4

/-- A CELL_PROTECT record, and its attention source (R464). -/
def protectRec (s : State) (kind : Nat) (acts : Bool) (mv : Nat) : State :=
  attn (logK s 0x0004 ([BitVec.ofNat 8 kind, BitVec.ofNat 8 (b2n acts)] ++ bytesLE 2 mv ++
    bytesLE 2 (rf s R.KA_TEMP F.KA_TEMP.CELL_T))) 4

/-- Under-voltage at a measurement: the cell is disconnected, or comes back (Table 17.4). A cell seen for the first time
connects above 3.00 V without a record (log entry 34). -/
def uvCheck (s : State) (mv : Nat) : State :=
  if s.care.uv then
    if 3300 ≤ mv then
      let s := { s with care := { s.care with uv := false } }
      let s := protectRec (sf s R.KA_STATUS F.KA_STATUS.CELL_CONNECTED 1) 2 false mv
      logK s 0x0005 (bytesLE 2 mv)
    else s
  else if mv ≤ 3000 then
    if kaBit s F.KA_STATUS.CELL_CONNECTED then
      let s := { s with care := { s.care with uv := true } }
      let s := sf (sf s R.KA_STATUS F.KA_STATUS.CELL_CONNECTED 0) R.KA_PROT F.KA_PROT.UV 1
      setLoad (protectRec s 2 true mv) false mv
    else s
  else sf s R.KA_STATUS F.KA_STATUS.CELL_CONNECTED 1

/-- LOAD_EN at a measurement (R467). -/
def loadCheck (s : State) (mv : Nat) : State :=
  if !cellUsable s || decide (mv < 3400) then setLoad s false mv
  else if 3600 ≤ mv then setLoad s true mv else s

/-- CELL_MEASURE: the voltages, under-voltage, the end of a full charge (R462) and LOAD_EN (R463). -/
def execCellMeasure (cellMv primMv : Nat) (s : State) : Out :=
  .next (if !s.care.alive then s
    else
      let s := wr s R.KA_CELL_V (BitVec.ofNat 32 (min cellMv 65535 + min primMv 65535 * 65536))
      let s := if cellMv < 4000 then sf s R.KA_STATUS F.KA_STATUS.CELL_FULL 0 else s
      loadCheck (uvCheck s cellMv) cellMv)

/-- Over-current acts: the third act within 60 s (1,966,080 coarse ticks) latches (Table 17.4). -/
def ocAct (s : State) (mv : Nat) : State :=
  let now := s.clk.coarse.toNat
  let acts := (s.care.ocActs.filter (fun t => now < t + 1966080)) ++ [now]
  let s := sf { s with care := { s.care with oc := true, ocActs := acts } } R.KA_PROT F.KA_PROT.OC 1
  let s := if 3 ≤ acts.length then protectRec (sf s R.KA_PROT F.KA_PROT.OC_LATCH 1) 4 true mv else protectRec s 3 true mv
  setLoad s false mv

/-- CELL_PROTECT: kind 1 over-voltage, 2 under-voltage, 3 over-current, 5 temperature, at the thresholds of Table 17.4. An
over-current clears by OC_CLEAR_TIMER. -/
def execCellProtect (kind : Nat) (acts : Bool) (cellMv : Nat) (s : State) : Out :=
  .next (if !s.care.alive then s
    else match kind, acts with
      | 1, true =>
        if s.care.ov || decide (cellMv < 4200) then s
        else protectRec (sf { s with care := { s.care with ov := true } } R.KA_PROT F.KA_PROT.OV 1) 1 true cellMv
      | 1, false =>
        if s.care.ov && decide (cellMv ≤ 4050) then protectRec { s with care := { s.care with ov := false } } 1 false cellMv else s
      | 2, _ => uvCheck s cellMv
      | 3, true => if s.care.oc || ocLatched s then s else ocAct s cellMv
      | 5, true =>
        if s.care.tempInh || (decide (0 ≤ cellT16 s) && decide (cellT16 s ≤ 45 * 16)) then s
        else protectRec (sf { s with care := { s.care with tempInh := true } } R.KA_PROT F.KA_PROT.TEMP 1) 5 true cellMv
      | 5, false =>
        if s.care.tempInh && decide (32 ≤ cellT16 s) && decide (cellT16 s ≤ 43 * 16) then
          protectRec { s with care := { s.care with tempInh := false } } 5 false cellMv
        else s
      | _, _ => s)

/-- OC_CLEAR_TIMER: 1 s after an act the paths close, unless latched. -/
def execOcClearTimer (s : State) : Out :=
  .next (if !s.care.alive || !s.care.oc || ocLatched s then s
    else protectRec { s with care := { s.care with oc := false } } 3 false (cellMvNow s))

/-- A write of 1 to `KA_PROT.OC_LATCH`: the latch clears and the cell is tried again. -/
def ocLatchIn (s : State) : State :=
  if !ocLatched s then s
  else protectRec (sf { s with care := { s.care with oc := false, ocActs := [] } } R.KA_PROT F.KA_PROT.OC_LATCH 0) 4 false (cellMvNow s)

/-- OC_LATCH. -/
def execOcLatch (s : State) : Out := .next (tlp s .ocLatch (gate R.KA_PROT ocLatchIn))

/-- CELL_FULL: the constant-voltage current has fallen below 1/10 of `CHARGE_CURRENT` (R462). -/
def execCellFull (s : State) : Out :=
  .next (if s.care.alive && charging s then sf s R.KA_STATUS F.KA_STATUS.CELL_FULL 1 else s)

/-! ### Harvester and sources (17.1, 17.2) -/

/-- The target voltage from the last Voc: `FOCV_RATIO` within 70 to 90, in 1/100, rounded down (R459). -/
def focvTarget (s : State) : State :=
  let r := max 70 (min 90 (rf s R.KA_CFG F.KA_CFG.FOCV_RATIO))
  sf s R.KA_PV F.KA_PV.TARGET_MV (rf s R.KA_PV F.KA_PV.VOC_MV * r / 100)

/-- SAMPLE_PERIOD ends: Voc, the target, and the cell temperature (R459, R463). -/
def execSamplePeriod (vocMv : Nat) (t16 : Int) (ntcAbsent : Bool) (s : State) : Out :=
  .next (if !s.care.alive then s
    else
      let s := focvTarget (sf s R.KA_PV F.KA_PV.VOC_MV (min vocMv 65535))
      wr s R.KA_TEMP (BitVec.ofNat 32 (wrapInt 16 t16 + b2n ntcAbsent * 65536)))

/-- A source may feed VKA now (Table 17.1): VDD_AUX's own window is outside the device. -/
def sourceOk (s : State) (src primMv : Nat) : Bool :=
  match src with
  | 0 => true
  | 1 => cellUsable s
  | 2 => !cellUsable s && decide (2000 ≤ primMv)
  | 3 => !cellUsable s && decide (primMv < 2000)
  | _ => false

/-- SOURCE_CHANGE (R452, R455). -/
def execSourceChange (src cellMv primMv : Nat) (s : State) : Out :=
  .next (
    let old := rf s R.KA_STATUS F.KA_STATUS.SOURCE
    if !s.care.alive || src == old || !sourceOk s src primMv then s
    else attn (logK (sf s R.KA_STATUS F.KA_STATUS.SOURCE src) 0x0002
      ([BitVec.ofNat 8 src, BitVec.ofNat 8 old] ++ bytesLE 2 cellMv ++ bytesLE 2 primMv)) 4)

/-! ### Cold start and collapse (R456, R471, R472) -/

/-- The old epoch and the slot that gave it; none where neither slot is valid (R471). -/
def oldEpoch (c : Care) : Option (Nat × Nat) :=
  match c.slot0.2, c.slot1.2 with
  | true, true =>
    let d := (c.slot1.1 + 65536 - c.slot0.1) % 65536
    if 1 ≤ d ∧ d ≤ 32767 then some (c.slot1.1, 1) else some (c.slot0.1, 0)
  | true, false => some (c.slot0.1, 0)
  | false, true => some (c.slot1.1, 1)
  | false, false => none

/-- Write the new epoch into the slot that did not give the old one. -/
def nextEpoch (c : Care) : Care × Nat :=
  match oldEpoch c with
  | some (e, 0) => ({ c with slot1 := ((e + 1) % 65536, true) }, (e + 1) % 65536)
  | some (e, _) => ({ c with slot0 := ((e + 1) % 65536, true) }, (e + 1) % 65536)
  | none => ({ c with slot1 := (1, true) }, 1)

/-- Every KA register at its reset value, and the Logbook empty. -/
def kaReset (s : State) : State :=
  let inKa (k : Nat) : Bool := decide (0xC00000 ≤ k) && decide (k < 0xD00000)
  { s with
    regs := s.regs.filter (fun e => !inKa e.1)
    force := s.force.filter (fun e => !inKa e.1)
    dirty := s.dirty.filter (fun k => !inKa k)
    hostLatch := s.hostLatch.filter (fun e => !inKa e.1)
    mgmtLatch := s.mgmtLatch.filter (fun e => !inKa e.1)
    log := { recs := [], nextSeq := 0, lastFine := 0, own := [], cross := s.log.cross }
    clk := { s.clk with coarse := 0, sub := 0 }
    care := { Care.reset with alive := s.care.alive, slot0 := s.care.slot0, slot1 := s.care.slot1 } }

/-- COLD_START: VKA has risen again (R456). -/
def execColdStart (src vkaMv : Nat) (s : State) : Out :=
  .next (if s.care.alive then s
    else
      let neither := b2n (oldEpoch s.care).isNone
      let s := kaReset { s with care := { s.care with alive := true } }
      let e := nextEpoch s.care
      let s := sf { s with care := e.1, clk := { s.clk with epoch := BitVec.ofNat 16 e.2 } } R.KA_STATUS F.KA_STATUS.SOURCE src
      appendRec s ⟨0x0001, if s.clk.fineRun then some (fineNow s) else none, 0, 0xFF,
        [BitVec.ofNat 8 src] ++ bytesLE 2 vkaMv ++ [BitVec.ofNat 8 neither]⟩)

/-- VKA_COLLAPSE: everything outside the epoch store is lost, and LOAD_EN is low (R456, R467). -/
def execVkaCollapse (s : State) : Out := .next (kaReset { s with care := { s.care with alive := false } })

/-! ### Case inputs, WAKE_N, crystal (17.4, 17.5) -/

/-- One debounce step: the new run of equal samples. -/
def debounce (d : Bool × Nat) (v : Bool) : Bool × Nat := if d.1 = v then (v, min 4 (d.2 + 1)) else (v, 1)

/-- CASE_SAMPLE (R468): a level held for four samples becomes the state; a change is recorded with both states, sets attention
source 5 and is wake source 5 where enabled. -/
def execCaseSample (in0 in1 : Bool) (s : State) : Out :=
  .next (if !s.care.alive then s
    else
      let d0 := debounce s.care.deb0 in0
      let d1 := debounce s.care.deb1 in1
      let s := { s with care := { s.care with deb0 := d0, deb1 := d1 } }
      let o0 := kaBit s F.KA_STATUS.CASE_0
      let o1 := kaBit s F.KA_STATUS.CASE_1
      let n0 := if d0.2 = 4 then d0.1 else o0
      let n1 := if d1.2 = 4 then d1.1 else o1
      if n0 = o0 ∧ n1 = o1 then s
      else
        let s := sf (sf s R.KA_STATUS F.KA_STATUS.CASE_0 (b2n n0)) R.KA_STATUS F.KA_STATUS.CASE_1 (b2n n1)
        let s := logK s 0x0006 [BitVec.ofNat 8 (b2n o0 + 2 * b2n o1), BitVec.ofNat 8 (b2n n0 + 2 * b2n n1)]
        let s := attn s 5
        if rb s R.KA_CFG F.KA_CFG.CASE_WAKE_EN then latchWake s 5 else s)

/-- WAKE_PIN (R469): recorded with the power state, 4 for Off; wake source 3. -/
def execWakePin (s : State) : Out :=
  .next (if !s.care.alive then s
    else latchWake (logK s 0x0007 [BitVec.ofNat 8 (if s.boot.supplies then powerCode s else 4)]) 3)

/-- XTAL_FAIL (R470). -/
def execXtalFail (s : State) : Out :=
  .next (if !s.care.alive || kaBit s F.KA_STATUS.XTAL_FAIL then s
    else logK (sf s R.KA_STATUS F.KA_STATUS.XTAL_FAIL 1) 0x0008 [1])

/-- XTAL_RESTORE (R470). -/
def execXtalRestore (s : State) : Out :=
  .next (if s.care.alive && kaBit s F.KA_STATUS.XTAL_FAIL then
    logK (sf s R.KA_STATUS F.KA_STATUS.XTAL_FAIL 0) 0x0008 [0] else s)

end Sys2Proof.Machine
end

