-- ==== Sys2Proof/Machine/Rail.lean ====
section
/-! DEFINITION. The core rail, its phases, droop, and the thermal and power loops (chapter 18). -/

namespace Sys2Proof.Machine

/-- Change the loops' state. -/
def modRail (s : State) (g : Rail → Rail) : State := { s with rail := g s.rail }

/-- Set the rail controller's state and the phases it has chosen. -/
def setVr (s : State) (st : Nat) : State := sf s R.VR_STATUS F.VR_STATUS.STATE st
def setChosen (s : State) (m : Nat) : State := sf s R.VR_STATUS F.VR_STATUS.SWITCHING m

/-- A change of a ceiling is traced. -/
def ceilNote (old s : State) : State :=
  if ceilT s = ceilT old ∧ ceilP s = ceilP old ∧ ceilL s = ceilL old then s
  else traceEv s 56 1 0xFF none false [BitVec.ofNat 8 (ceilT s), BitVec.ofNat 8 (ceilP s), BitVec.ofNat 8 (ceilL s)]

/-- After a change of what R483 rests on: the ceilings are traced and the clusters move. -/
def railMoved (old s : State) : State := movePoints old (ceilNote old s)

/-! ### Start, shedding and acknowledgement (R479, R480, R484) -/

/-- The rail regulates: every phase that is not lost switches, and the voltage is acknowledged. -/
def regulate (s : State) (mv : Nat) : State :=
  setChosen (setVr (modRail s (fun r => { r with ackMv := mv, riseAt := some s.clk.now })) 2) (goodMask s)

/-- SOFT_START_DONE. -/
def execSoftStartDone (s : State) : Out := .next (if vrState s = 1 then railMoved s (regulate s 750) else s)

/-- PHASE_ADD: the lowest-numbered phase that neither switches nor is lost starts (R480). -/
def execPhaseAdd (s : State) : Out :=
  .next (if vrState s != 2 || !rb s R.VR_CFG F.VR_CFG.SHED_EN then s
    else match (List.range 8).find? (fun n => !nbit (chosen s) n && !phaseLost s n) with
      | some n => setChosen s (chosen s + 2 ^ n)
      | none => s)

/-- A rise was acknowledged less than 100 µs ago: no phase is shed yet (R480). -/
def afterRise (s : State) : Bool := (s.rail.riseAt.map (fun t => decide (s.clk.now < t + 10000))).getD false

/-- PHASE_SHED: the highest-numbered switching phase stops; k stays at least 2, and a rise under way, or acknowledged within the last
100 µs, sheds none (R480). -/
def execPhaseShed (s : State) : Out :=
  .next (
    let on := (List.range 8).filter (nbit (chosen s))
    if vrState s != 2 || !rb s R.VR_CFG F.VR_CFG.SHED_EN || railRising s || afterRise s || decide (on.length ≤ 2) then s
    else setChosen s (chosen s - 2 ^ (on.getLastD 0)))

/-- RAIL_ACK: the rail has settled at its target; a rise leaves every phase that is not lost switching (R480, R484). -/
def execRailAck (s : State) : Out :=
  .next (if vrState s < 2 then s
    else
      let t := railTarget s
      let s' := if railRising s then setChosen s (goodMask s) else s
      railMoved s (modRail s' (fun r => { r with ackMv := t, riseAt := if railRising s then some s.clk.now else r.riseAt })))

/-! ### Faults that force Sleep (R491, R498) -/

/-- Every cluster drops to point 0 and stops. -/
def stopClusters (s : State) : State :=
  (List.range 16).foldl (fun s n => setCluster s n .stopped) s

def clampClusters (s : State) : State :=
  (List.range 16).foldl (fun s n =>
    if !clusterRuns s n || curPoint s n == 0 then s
    else traceEv (sf s (R.PM_CLUSTER_n_FREQ n) F.PM_CLUSTER_n_FREQ.CUR 0) 55 1 0xFF none false [BitVec.ofNat 8 n, 0]) s

/-- Sleep is to be entered without a roll call; reply entries that find no room are dropped until then (R491, R536). -/
def forcedSleep (s : State) : State :=
  let s := { s with fns := s.fns.map (fun e => (e.1, { e.2 with discard := e.2.discard.map (fun d => { d with drop := true }) })) }
  beginEntry s 2 true

/-- A device-scope fault of this chapter that forces Sleep: the clusters are clamped, the fault is raised, every cluster stops,
the controller enters FAULT, and Sleep entry begins. -/
def railFault (s : State) (cause d0 : Nat) : State :=
  forcedSleep (setVr (stopClusters (deviceFault (clampClusters s) cause 1 d0 0)) 3)

/-- L has reached 4 (R491). -/
def phaseFault (s : State) : State :=
  railFault (logX s 0x1004 1 0xFF (bytesLE 1 (lossCount s))) 5 (lossCount s)

/-! ### Phases lost and retried (R487 to R492) -/

def totalI (s : State) : Nat := rf s R.VR_TOTAL_I F.VR_TOTAL_I.CURRENT

/-- A detection has set a phase's bit: attention, event, counter, and the ceiling of the new L; at four lost phases in REGULATE,
the fault of R491. -/
def phaseDetected (old s : State) (n kind ctr : Nat) (detail : List Byte) : State :=
  let s := logX s (0x1000 + kind) 1 0xFF detail
  let s := raiseCtrl (sf s R.VR_PHASE_FAULT F.VR_PHASE_FAULT.EVT 1) R.VR_EVENT_CTRL
  let s := traceEv (bump (attn s 2) ctr) 57 1 0xFF none false [BitVec.ofNat 8 n, BitVec.ofNat 8 kind]
  let s := railMoved old (modRail s (fun r => { r with lossL := max r.lossL (lossCount s) }))
  if 4 ≤ lossCount s ∧ lossCount old < 4 then phaseFault s else s

/-- PHASE_OPEN (R487, R490): the phase stops switching; a sense-failed one is reclassified. -/
def execPhaseOpen (phase : Nat) (s : State) : Out :=
  .next (if vrState s < 2 || decide (8 ≤ phase) || !nbit (switchingMask s) phase then s
    else
      let s' := sf s R.VR_PHASE_FAULT F.VR_PHASE_FAULT.OPEN (Nat.lor (rf s R.VR_PHASE_FAULT F.VR_PHASE_FAULT.OPEN) (2 ^ phase))
      phaseDetected s s' phase 1 0xE00218
        ([BitVec.ofNat 8 phase, BitVec.ofNat 8 (lossCount s')] ++ bytesLE 2 (totalI s)))

/-- SENSE_FAIL (R488, R490): `iN` and `iExp` are the sensed and the expected current, 0.1 A. -/
def execSenseFail (phase iN iExp : Nat) (s : State) : Out :=
  .next (if vrState s < 2 || decide (8 ≤ phase) || !nbit (switchingMask s) phase ||
        nbit (rf s R.VR_PHASE_FAULT F.VR_PHASE_FAULT.SENSE) phase then s
    else
      let s' := sf s R.VR_PHASE_FAULT F.VR_PHASE_FAULT.SENSE (rf s R.VR_PHASE_FAULT F.VR_PHASE_FAULT.SENSE + 2 ^ phase)
      phaseDetected s s' phase 2 0xE00220
        ([BitVec.ofNat 8 phase, BitVec.ofNat 8 (lossCount s')] ++ bytesLE 2 iN ++ bytesLE 2 iExp))

/-- Phases of a mask leave the lost set. -/
def clearLost (s : State) (m : Nat) : State :=
  let keep (v : Nat) : Nat := v - Nat.land v m
  let s := sf s R.VR_PHASE_FAULT F.VR_PHASE_FAULT.OPEN (keep (rf s R.VR_PHASE_FAULT F.VR_PHASE_FAULT.OPEN))
  sf s R.VR_PHASE_FAULT F.VR_PHASE_FAULT.SENSE (keep (rf s R.VR_PHASE_FAULT F.VR_PHASE_FAULT.SENSE))

/-- A write of `VR_PHASE_RETRY` (R492): the lost phases it names are retested; those of `pass` test good and switch again. The
ceiling rises at the next control step. -/
def phaseRetryIn (v : W32) (pass : Nat) (s : State) : State :=
  let m := Nat.land (fld v 7 0) (lostMask s)
  if m = 0 then s
  else
    let ok := Nat.land m pass
    let s' := clearLost s ok
    let s' := setChosen s' (Nat.lor (rf s' R.VR_STATUS F.VR_STATUS.SWITCHING) ok)
    let s' := logX s' 0x1003 1 0xFF [BitVec.ofNat 8 m, BitVec.ofNat 8 (m - ok)]
    (List.range 8).foldl (fun s n => if nbit m n then traceEv s 57 1 0xFF none false [BitVec.ofNat 8 n, 3] else s) s'

/-- PHASE_RETRY. -/
def execPhaseRetry (v : W32) (pass : Nat) (s : State) : Out :=
  .next (tlp s (.phaseRetry v pass) (gate R.VR_PHASE_RETRY (phaseRetryIn v pass)))

/-- TMON_WARN (R494): the limit of `PM_LOSS_CEIL.ONE` acts or lifts. -/
def execTmonWarn (above : Bool) (s : State) : Out :=
  .next (if !s.boot.supplies || s.rail.tmonLimit == above then s
    else
      let s' := logX (modRail s (fun r => { r with tmonLimit := above })) 0x1008 1 0xFF
        (bytesLE 1 (b2n above) ++ bytesLE 2 (rf s R.VR_TMON F.VR_TMON.TEMP))
      railMoved s s')

/-! ### Droop (R495) -/

/-- The islands with a droop sensor, by ORIGIN code: fabric, link, display, copy and the clusters (18.4). -/
def droopIsland (i : Nat) : Bool := (decide (3 ≤ i) && decide (i ≤ 6)) || (decide (8 ≤ i) && decide (i ≤ 23))

/-- DROOP: the island's clock stretches. -/
def execDroop (island : Nat) (s : State) : Out :=
  .next (if !s.boot.supplies || !droopIsland island || s.rail.stretched.contains island then s
    else traceEv (bump (modRail s (fun r => { r with stretched := r.stretched ++ [island] })) 0xE00208) 58 1 0xFF none false
      [BitVec.ofNat 8 island])

/-- DROOP_RECOVERY: the clock returns to its normal period. -/
def execDroopRecovery (island : Nat) (s : State) : Out :=
  .next (modRail s (fun r => { r with stretched := r.stretched.filter (· != island) }))

/-- DROOP_FAULT: a trip that has persisted for 10 µs; the stretching goes on. -/
def execDroopFault (island : Nat) (s : State) : Out :=
  .next (if !s.rail.stretched.contains island then s
    else deviceFault (logX s 0x1005 (if island < 8 then 1 else island) 0xFF [BitVec.ofNat 8 island]) 6 island island 0)

/-! ### Power and telemetry (R499, R500) -/

def otherW (s : State) : Nat := min 40 (rf s R.PM_POWER_CAP F.PM_POWER_CAP.OTHER_W)

/-- P in units of 0.1 mW: the measured voltage times the total current, plus `OTHER_W`. -/
def powerNow (s : State) : Nat := rf s R.VR_VOLTAGE F.VR_VOLTAGE.MEAS_MV * totalI s + otherW s * 10000

/-- TELEMETRY_UPDATE: means of the last ten samples; P over the 10 µs joins the energy counter. -/
def execTelemetryUpdate (mv : Nat) (isen : List Nat) (tmon16 : Int) (s : State) : Out :=
  .next (if !s.boot.supplies then s
    else
      let is := (List.range 8).map (fun n => min 1023 ((isen[n]?).getD 0))
      let s := sf s R.VR_VOLTAGE F.VR_VOLTAGE.MEAS_MV (min 1023 mv)
      let s := (List.range 8).foldl (fun s n => sf s (R.VR_PHASE_n_I n) F.VR_PHASE_n_I.CURRENT ((is[n]?).getD 0)) s
      let s := sf s R.VR_TOTAL_I F.VR_TOTAL_I.CURRENT (min 4095 is.sum)
      let s := sf s R.VR_TMON F.VR_TMON.TEMP (wrapInt 16 tmon16)
      let s := sf s R.PM_POWER_STATUS F.PM_POWER_STATUS.P_INST (min 65535 (powerNow s / 1000))
      let e := s.rail.energy + powerNow s
      bumpBy (modRail s (fun r => { r with energy := e % 1000000 })) 0xE00200 (e / 1000000))

/-! ### The control step (R496, R497) -/

def tripC (s : State) : Nat := max 85 (min 115 (rf s R.PM_THERM_CFG F.PM_THERM_CFG.TRIP_C))
def setC (s : State) : Nat := max 60 (min (tripC s - 5) (rf s R.PM_THERM_CFG F.PM_THERM_CFG.SET_C))
def sustW (s : State) : Nat := max 10 (min 95 (rf s R.PM_POWER_CAP F.PM_POWER_CAP.SUST_W))
def burstW (s : State) : Nat := max 10 (min 95 (rf s R.PM_POWER_CAP F.PM_POWER_CAP.BURST_W))
def tauMs (s : State) : Nat := max 100 (min 10000 (rf s R.PM_POWER_TAU F.PM_POWER_TAU.SUST_TAU_MS))

/-- integ and C_T of the next step: T_hot in 1/16 °C, gains in 1/256, integ in 1/4,096 MHz; only C_T is rounded. -/
def thermalStep (s : State) (tHot : Int) : Int × Nat :=
  let e : Int := tHot - ((16 * setC s : Nat) : Int)
  let kp : Int := ((rf s R.PM_THERM_GAIN F.PM_THERM_GAIN.KP : Nat) : Int)
  let ki : Int := ((rf s R.PM_THERM_GAIN F.PM_THERM_GAIN.KI : Nat) : Int)
  let integ := clampInt 0 (1200 * 4096) (s.rail.integ + ki * e)
  let u := max 0 (kp * e + integ)
  (integ, (clampInt 0 48 ((1200 * 4096 - u) / (25 * 4096))).toNat)

/-- C_P and steps since its last rise, from the new averages. -/
def powerStep (s : State) (ab as : Rat) : Nat × Nat :=
  let n := s.rail.sinceRise
  let cp := ceilP s
  if (burstW s : Rat) < ab ∨ (sustW s : Rat) < as then (cp - 1, n + 1)
  else if ab < (burstW s : Rat) - 2 ∧ as < (sustW s : Rat) - 2 ∧ 10 ≤ n then (min (cp + 1) 48, 1)
  else (cp, n + 1)

/-- An average in 0.1 W, truncated. -/
def deciW (a : Rat) : Nat := min 65535 (a * 10).floor.toNat

/-- The hottest junction and its sensor index: the clusters' hottest, the fabric's, the control island's (18.5). -/
def hottest (tCl tFab tCtl : Int) (clIdx : Nat) : Int × Nat :=
  if tFab ≤ tCl ∧ tCtl ≤ tCl then (tCl, clIdx % 16) else if tCtl ≤ tFab then (tFab, 16) else (tCtl, 17)

/-- Junction readings: T_hot and its sensor in `PM_THERM_STATUS`. -/
def setTHot (s : State) (t16 : Int) (sensor : Nat) : State :=
  sf (sf s R.PM_THERM_STATUS F.PM_THERM_STATUS.T_HOT (wrapInt 16 t16)) R.PM_THERM_STATUS F.PM_THERM_STATUS.SENSOR sensor

/-- Start or end of throttling (R497). -/
def throttleNote (old s : State) (t16 : Int) (sensor : Nat) : State :=
  let was := decide (ceilT old < 48)
  let is := decide (ceilT s < 48)
  let s := sf s R.PM_THERM_STATUS F.PM_THERM_STATUS.THROTTLING (b2n is)
  if was = is then s
  else attn (logX s 0x1006 1 0xFF (bytesLE 1 (b2n is) ++ bytesLE 2 (wrapInt 16 t16) ++ bytesLE 1 sensor)) 0

/-- C_P first below 48, or back at 48 (Table 18.4). -/
def capNote (old s : State) (ab as : Rat) : State :=
  let was := decide (ceilP old < 48)
  let is := decide (ceilP s < 48)
  if was = is then s else logX s 0x1009 1 0xFF (bytesLE 1 (b2n is) ++ bytesLE 2 (deciW ab) ++ bytesLE 2 (deciW as))

/-- CONTROL_STEP. -/
def execControlStep (tCl tFab tCtl : Int) (clIdx : Nat) (s : State) : Out :=
  .next (if !s.boot.supplies || sleeping s then s
    else
      let h := hottest tCl tFab tCtl clIdx
      let th := thermalStep s h.1
      let p : Rat := (powerNow s : Rat) / 10000
      let ab := s.rail.avgB + (p - s.rail.avgB) / 100
      let as := s.rail.avgS + (p - s.rail.avgS) / (10 * (tauMs s : Rat))
      let pw := powerStep s ab as
      let s' := setTHot s h.1 h.2
      let s' := sf s' R.PM_THERM_STATUS F.PM_THERM_STATUS.INTEG (min 1023 (th.1 / 4096).toNat)
      let s' := sf (sf s' R.PM_CEILINGS F.PM_CEILINGS.THERMAL th.2) R.PM_CEILINGS F.PM_CEILINGS.POWER pw.1
      let s' := sf s' R.PM_POWER_STATUS F.PM_POWER_STATUS.P_SUST (deciW as)
      let s' := sf s' R.PM_POWER_BURST F.PM_POWER_BURST.P_BURST (deciW ab)
      let s' := modRail s' (fun r => { r with
        integ := th.1.toNat, avgB := ab, avgS := as, sinceRise := pw.2, lossL := lossCount s
        tCluster := tCl, tFabric := tFab, tControl := tCtl })
      let s' := if th.2 < 48 then bump s' 0xE00228 else s'
      let s' := if pw.1 < 48 then bump s' 0xE00230 else s'
      railMoved s (capNote s (throttleNote s s' h.1 h.2) ab as))

/-- THERMAL_TRIP (R498): T_hot has read `TRIP_C` or more at two consecutive samples. -/
def execThermalTrip (sensor : Nat) (t16 : Int) (s : State) : Out :=
  .next (if !s.boot.supplies || sleeping s || decide (t16 < ((16 * tripC s : Nat) : Int)) then s
    else
      let s := logX (setTHot s t16 sensor) 0x1007 1 0xFF (bytesLE 2 (wrapInt 16 t16) ++ bytesLE 1 sensor)
      railFault s 4 sensor)

end Sys2Proof.Machine
end

