-- ==== Sys2Proof/Machine/Mgmt.lean ====
section
/-! DEFINITION. The two-wire management port (chapter 16): target transactions, controller mode, address matcher and
hand-raise. The REG_DATA command is in RegWrite. -/

namespace Sys2Proof.Machine

/-- Change the port's state. -/
def modMgmt (s : State) (g : Mgmt → Mgmt) : State := { s with mgmt := g s.mgmt }

/-- The target address in force (R423). -/
def mbAddress (s : State) : Nat :=
  let a := rf s R.MB_CFG F.MB_CFG.ADDR_BASE + s.boot.podId
  if a < 8 ∨ (0x78 ≤ a ∧ a ≤ 0x7F) ∨ 0x80 ≤ a then 0x4C + s.boot.podId else a

/-! ### Target transactions (16.2) -/

/-- The port answers commands: supplies valid, in Run or Idle (Table 16.2). -/
def answers (s : State) : Bool := s.boot.supplies && !held s

/-- A transaction has been served: the count, the trace, and the end of what STATE [7:5] reports. A matched access acts as wake
source 2 in a roll call (R442). -/
def served (s : State) (code : Nat) : State :=
  let s := bump s 0xB00100
  let s := traceEv s 59 1 0xFF none false [BitVec.ofNat 8 code, 0]
  latchWake { s with pwr := { s.pwr with leftFor := 0 } } 2

/-- A refusal (R426). -/
def refused (s : State) (code : Nat) : State :=
  latchWake (traceEv (bump s 0xB00108) 59 1 0xFF none false [BitVec.ofNat 8 code, 1]) 2

/-- A PEC mismatch of a write (R426, Table 16.10). -/
def pecRefused (s : State) (code : Nat) : State :=
  latchWake (traceEv (bump s 0xB00110) 59 1 0xFF none false [BitVec.ofNat 8 code, 1]) 2

/-- The PEC of a transaction: CRC-8 over every byte on the bus, addresses included (R422). -/
def pecOf (bs : List Byte) : Byte := crc8 0 bs
def addrW (s : State) : Byte := BitVec.ofNat 8 (2 * mbAddress s)
def addrR (s : State) : Byte := BitVec.ofNat 8 (2 * mbAddress s + 1)

/-- A read of a command: its data, and the PEC byte where the controller takes it (R427). `eff` is what the read itself changes. -/
def mgmtRead (s : State) (t : MgmtXact) (code : Nat) (data : List Byte) (eff : State → State) : State :=
  let crc := pecOf ([addrW s, BitVec.ofNat 8 code, addrR s] ++ data)
  served { eff s with out := (eff s).out ++ [.readData (data ++ if t.pec then [crc] else [])] } code

/-- A block read: the count byte first. -/
def mgmtBlock (s : State) (t : MgmtXact) (code : Nat) (data : List Byte) (eff : State → State) : State :=
  mgmtRead s t code (BitVec.ofNat 8 data.length :: data) eff

/-- A write of `n` data bytes, after a count byte where `block` holds (R425, R426). `early` refuses at the count byte (or the
first byte), `last` refuses at the last data byte; a write that ends too soon changes nothing. -/
def mgmtWrite (s : State) (t : MgmtXact) (code n : Nat) (block : Bool) (early : Bool) (last : List Byte → Bool)
    (apply : State → List Byte → State) : State :=
  let skip := b2n block
  let total := n + skip
  let data := (t.wr.take total).drop skip
  if block && ((t.wr.head?).map (fun c => c.toNat != n || early)).getD false then refused s code
  else if t.wr.length < total then served s code
  else if last data then refused s code
  else if t.wr.length = total then
    if rb s R.MB_CFG F.MB_CFG.PEC_REQUIRED then refused s code else served (apply s data) code
  else if (t.wr[total]?).getD 0 != pecOf ([addrW s, BitVec.ofNat 8 code] ++ t.wr.take total) then pecRefused s code
  else if total + 1 < t.wr.length then refused s code
  else served (apply s data) code

/-- A write to a read-only command is refused at its first byte. -/
def mgmtReadOnly (s : State) (t : MgmtXact) (code : Nat) (r : State → State) : State :=
  if !answers s then s else if t.read then r s else if t.wr.isEmpty then served s code else refused s code

/-! ### The commands (Table 16.4) -/

/-- Some function is halted. -/
def anyHalted (s : State) : Bool := (List.range (s.vfs + 1)).any (fnHalted s)

/-- The word of STATE. -/
def stateWord (s : State) : Nat :=
  runState s + b2n (bootDone s) * 8 + b2n (anyHalted s) * 16 + s.pwr.leftFor * 32

/-- QUICK_COMMAND: acknowledged, no effect; it carries no PEC. -/
def execMgmtQuickCommand (_t : MgmtXact) (s : State) : Out := .next (if answers s then served s 0 else s)

/-- SEND_BYTE: acknowledged, no effect; a PEC byte, where sent, is checked. -/
def execMgmtSendByte (t : MgmtXact) (s : State) : Out :=
  .next (if !answers s then s
    else match t.wr with
      | [b, p] => if p = pecOf [addrW s, b] then served s b.toNat else pecRefused s b.toNat
      | b :: _ :: _ :: _ => refused s b.toNat
      | [b] => if rb s R.MB_CFG F.MB_CFG.PEC_REQUIRED then refused s b.toNat else served s b.toNat
      | [] => served s 0)

/-- RECEIVE_BYTE: byte 0 of STATE. -/
def execMgmtReceiveByte (t : MgmtXact) (s : State) : Out :=
  .next (if !answers s then s
    else
      let b := BitVec.ofNat 8 (stateWord s)
      let data := b :: (if t.pec then [pecOf [addrR s, b]] else [])
      served { s with out := s.out ++ [.readData data] } 4)

/-- An ATTENTION read: the bits it reports clear, and LAST_REPORTED holds them (R431). -/
def attentionRead (s : State) : State :=
  let v := rf s R.MB_ATTENTION F.MB_ATTENTION.SOURCES
  modMgmt (sf s R.MB_ATTENTION F.MB_ATTENTION.SOURCES 0) (fun m => { m with lastReported := v })

/-- LAST_REPORTED, and with `attention` the read of ATTENTION that it repeats, for which the table has no row (log entry 36). -/
def execMgmtLastReported (t : MgmtXact) (attention : Bool) (s : State) : Out :=
  .next (if attention then
      mgmtReadOnly s t 0 (fun s => mgmtRead s t 0 (bytesLE 2 (rf s R.MB_ATTENTION F.MB_ATTENTION.SOURCES)) attentionRead)
    else mgmtReadOnly s t 1 (fun s => mgmtRead s t 1 (bytesLE 2 s.mgmt.lastReported) id))

/-- ATTENTION_EN. -/
def execMgmtAttentionEn (t : MgmtXact) (s : State) : Out :=
  .next (if !answers s then s
    else if t.read then mgmtRead s t 2 (bytesLE 2 (rf s R.MB_ATTENTION_EN F.MB_ATTENTION_EN.EN)) id
    else mgmtWrite s t 2 2 false false (fun _ => false) (fun s d => sf s R.MB_ATTENTION_EN F.MB_ATTENTION_EN.EN (ofBytesLE d)))

/-- IDENTITY. -/
def execMgmtIdentity (t : MgmtXact) (s : State) : Out :=
  .next (mgmtReadOnly s t 3 (fun s => mgmtBlock s t 3 (bytesLE 2 0x1640 ++ bytesLE 1 s.boot.podId ++
    bytesLE 1 (b2n s.boot.ecc + 2 * rf s R.CP_BOOT_STATUS F.CP_BOOT_STATUS.IMAGE_OUTCOME) ++
    bytesLE 2 (incarnation s) ++ bytesLE 2 s.clk.epoch.toNat) id))

/-- STATE. -/
def execMgmtState (t : MgmtXact) (s : State) : Out :=
  .next (mgmtReadOnly s t 4 (fun s => mgmtRead s t 4 (bytesLE 2 (stateWord s)) id))

/-- THERMAL. -/
def execMgmtThermal (t : MgmtXact) (s : State) : Out :=
  .next (mgmtReadOnly s t 5 (fun s => mgmtBlock s t 5 (bytesLE 2 (wrapInt 16 s.rail.tCluster) ++
    bytesLE 2 (wrapInt 16 s.rail.tFabric) ++ bytesLE 2 (wrapInt 16 s.rail.tControl) ++
    bytesLE 2 (rf s R.VR_TMON F.VR_TMON.TEMP)) id))

/-- Bits set in a mask of eight. -/
def popCount8 (m : Nat) : Nat := ((List.range 8).filter (nbit m)).length

/-- RAIL (R500). -/
def execMgmtRail (t : MgmtXact) (s : State) : Out :=
  .next (mgmtReadOnly s t 6 (fun s => mgmtBlock s t 6 (bytesLE 2 (rf s R.VR_VOLTAGE F.VR_VOLTAGE.MEAS_MV) ++
    bytesLE 2 (totalI s) ++ bytesLE 1 (popCount8 (switchingMask s)) ++ bytesLE 1 (lossCount s) ++
    bytesLE 2 (min 65535 (powerNow s / 1000))) id))

/-- LINKS. -/
def execMgmtLinks (t : MgmtXact) (s : State) : Out :=
  .next (mgmtReadOnly s t 7 (fun s => mgmtBlock s t 7 ([0, 1, 2].map (fun p =>
    BitVec.ofNat 8 (portState s p + portWidth s p * 8 + portPeer s p * 32))) id))

/-- TIME. -/
def execMgmtTime (t : MgmtXact) (s : State) : Out :=
  .next (mgmtReadOnly s t 8 (fun s => mgmtBlock s t 8 (bytesLE 6 s.clk.coarse.toNat ++ bytesLE 2 s.clk.epoch.toNat) id))

/-- KEEPALIVE. -/
def execMgmtKeepalive (t : MgmtXact) (s : State) : Out :=
  .next (mgmtReadOnly s t 9 (fun s => mgmtBlock s t 9 ([BitVec.ofNat 8 (rf s R.KA_STATUS F.KA_STATUS.SOURCE),
      BitVec.ofNat 8 (b2n (kaBit s F.KA_STATUS.LOAD_EN) + 2 * b2n (kaBit s F.KA_STATUS.CASE_0) + 4 * b2n (kaBit s F.KA_STATUS.CASE_1))] ++
    bytesLE 2 (rf s R.KA_CELL_V F.KA_CELL_V.CELL_MV) ++ bytesLE 2 (rf s R.KA_CELL_V F.KA_CELL_V.PRI_MV) ++
    [BitVec.ofNat 8 (harvState s), 0]) id))

/-- LOG_COUNT. -/
def execMgmtLogCount (t : MgmtXact) (s : State) : Out :=
  .next (mgmtReadOnly s t 0x10 (fun s => mgmtRead s t 0x10 (bytesLE 2 s.log.recs.length) id))

/-- LOG_SELECT. -/
def execMgmtLogSelect (t : MgmtXact) (s : State) : Out :=
  .next (if !answers s then s
    else if t.read then mgmtRead s t 0x11 (bytesLE 2 s.mgmt.logIndex) id
    else mgmtWrite s t 0x11 2 false false (fun _ => false) (fun s d => modMgmt s (fun m => { m with logIndex := ofBytesLE d })))

/-- LOG_READ: the selected record; the index then rises. -/
def execMgmtLogRead (t : MgmtXact) (s : State) : Out :=
  .next (mgmtReadOnly s t 0x12 (fun s => mgmtBlock s t 0x12 (logRecord s s.mgmt.logIndex)
    (fun s => modMgmt s (fun m => { m with logIndex := (m.logIndex + 1) % 65536 }))))

/-- Less than 1 ms (100,000 steps) has passed since the last accepted LOG_NOTE (Table 16.3). -/
def noteTooSoon (s : State) : Bool := (s.mgmt.noteAt.map (fun t => decide (s.clk.now < t + 100000))).getD false

/-- LOG_NOTE. A read of it, which the table does not allow and no rule refuses, returns free bytes (log entry 37). -/
def execMgmtLogNote (t : MgmtXact) (s : State) : Out :=
  .next (if !answers s then s
    else if t.read then
      mgmtRead s t 0x13 (freeBytes s.freeCtr 9) (fun s => { s with freeCtr := s.freeCtr + 9 })
    else mgmtWrite s t 0x13 8 true (noteTooSoon s) (fun _ => false) (fun s d =>
      modMgmt (logX s 0x0B01 1 0xFF d) (fun m => { m with noteAt := some s.clk.now })))

/-- REG_ADDR: a multiple of 4 below 0x1000000. -/
def execMgmtRegAddr (t : MgmtXact) (s : State) : Out :=
  .next (if !answers s then s
    else if t.read then mgmtBlock s t 0x20 (bytesLE 4 s.mgmt.regAddr) id
    else mgmtWrite s t 0x20 4 true false (fun d => ofBytesLE d % 4 != 0 || decide (0x1000000 ≤ ofBytesLE d))
      (fun s d => modMgmt s (fun m => { m with regAddr := ofBytesLE d })))

/-! ### Controller mode (16.4) -/

def ctlField (s : State) (fd : Fld) : Nat := rf s R.MB_CTL_CMD fd

/-- The received bytes stand in the data registers, the first byte lowest. -/
def storeCtlData (s : State) (bs : List Byte) : State :=
  (List.range 8).foldl (fun s i =>
    let b := (bs.drop (4 * i)).take 4
    if b.isEmpty then s
    else
      let old := bytesLE 4 (rd s (R.MB_CTL_DATA_i i)).toNat
      wr s (R.MB_CTL_DATA_i i) (BitVec.ofNat 32 (ofBytesLE (b ++ old.drop b.length)))) s

/-- A transaction that `START` began ends (R440). -/
def ctlEnd (s : State) (status tries : Nat) (timeout pecBad : Bool) (rdata : List Byte) : State :=
  let bs := rdata.take 32
  let s := storeCtlData s bs
  let s := wr s R.MB_CTL_STATUS (BitVec.ofNat 32 (status + b2n pecBad * 2 ^ 17 + b2n timeout * 2 ^ 18 + tries * 2 ^ 19 +
    bs.length * 2 ^ 22 + 2 ^ 31))
  let s := if status = 0 then bump s 0xB00148 else s
  raiseCtrl (modMgmt s (fun m => { m with ctl := none })) R.MB_EVENT_CTRL

/-- The counts that Table 16.8 allows a protocol. -/
def ctlCountsOk (p w r : Nat) : Bool :=
  match p with
  | 0 => w == 0 && r == 0
  | 1 => w == 0 && r == 0
  | 2 => w == 0 && r == 0
  | 3 => w == 0 && r == 1
  | 4 => w == 1 && r == 0
  | 5 => w == 2 && r == 0
  | 6 => w == 0 && r == 1
  | 7 => w == 0 && r == 2
  | 8 => decide (1 ≤ w) && decide (w ≤ 32) && r == 0
  | 9 => w == 0 && r == 0
  | 10 => w == 2 && r == 2
  | 11 => decide (1 ≤ w) && decide (w ≤ 32) && r == 0
  | 12 => decide (1 ≤ w) && decide (w ≤ 32) && r == 0
  | 13 => decide (1 ≤ w) && decide (w ≤ 32) && decide (1 ≤ r) && decide (r ≤ 32)
  | _ => false

/-- The transaction's parameters are in range (R433). -/
def ctlOk (s : State) : Bool :=
  let a := ctlField s F.MB_CTL_CMD.TARGET_ADDR
  ctlCountsOk (ctlField s F.MB_CTL_CMD.PROTOCOL) (ctlField s F.MB_CTL_CMD.WR_COUNT) (rf s R.MB_CTL_COUNT F.MB_CTL_COUNT.RD_COUNT) &&
  decide (8 ≤ a) && decide (a < 0x78) && a != mbAddress s

/-- What the device sends in an attempt: address, code, count and data bytes, a read address where the protocol reads, and the
PEC byte of a write (R438, Table 16.8). -/
def ctlBytes (s : State) : List Byte :=
  let a := ctlField s F.MB_CTL_CMD.TARGET_ADDR
  let aw : Byte := BitVec.ofNat 8 (2 * a)
  let ar : Byte := BitVec.ofNat 8 (2 * a + 1)
  let code : Byte := BitVec.ofNat 8 (ctlField s F.MB_CTL_CMD.CODE)
  let n := ctlField s F.MB_CTL_CMD.WR_COUNT
  let w := (((List.range 8).map (fun i => bytesLE 4 (rd s (R.MB_CTL_DATA_i i)).toNat)).flatten).take n
  let pec (bs : List Byte) : List Byte := if rb s R.MB_CTL_CMD F.MB_CTL_CMD.PEC then bs ++ [pecOf bs] else bs
  match ctlField s F.MB_CTL_CMD.PROTOCOL with
  | 0 => [aw]
  | 1 => [ar]
  | 2 => pec [aw, code]
  | 3 => [ar]
  | 4 => pec ([aw, code] ++ w)
  | 5 => pec ([aw, code] ++ w)
  | 8 => pec ([aw, code, BitVec.ofNat 8 n] ++ w)
  | 10 => [aw, code] ++ w ++ [ar]
  | 11 => [aw, code, BitVec.ofNat 8 n] ++ w ++ [ar]
  | 12 => pec (aw :: w)
  | 13 => (aw :: w) ++ [ar]
  | _ => [aw, code, ar]

/-- An attempt begins on a free bus (R434). -/
def ctlAttempt (s : State) (tries : Nat) : State :=
  { modMgmt s (fun m => { m with ctl := some ⟨tries, 0, false⟩ }) with out := s.out ++ [.twoWire 1 (ctlBytes s)] }

/-- A write of `START` (R433). -/
def controllerStartIn (v : W32) (s : State) : State :=
  if !v.getLsbD 0 then s
  else if s.mgmt.ctl.isSome then writeReject s
  else if !rb s R.MB_CFG F.MB_CFG.CTL_EN then ctlEnd s St.NOT_PERMITTED 0 false false []
  else if !ctlOk s then ctlEnd s St.BAD_PARAM 0 false false []
  else ctlAttempt (sf s R.MB_CTL_STATUS F.MB_CTL_STATUS.BUSY 1) 1

/-- CONTROLLER_START. -/
def execControllerStart (v : W32) (s : State) : Out :=
  .next (tlp s (.controllerStart v) (gate R.MB_CTL_CTRL (controllerStartIn v)))

/-- An attempt ended with a status that is retried while attempts are left (R437). -/
def ctlRetryOrEnd (s : State) (c : CtlTx) (status : Nat) : State :=
  if c.tries ≤ rf s R.MB_CFG F.MB_CFG.RETRIES then
    modMgmt s (fun m => { m with ctl := some { c with lastStatus := status, retryWaiting := true } })
  else ctlEnd s status c.tries false false []

/-- ARBITRATION_LOSS: 0 in an address or data byte, 1 at a repeated START, 2 at a STOP (Table 16.6). -/
def execArbitrationLoss (kind : Nat) (s : State) : Out :=
  .next (match s.mgmt.ctl with
    | some c => if c.retryWaiting then s
      else ctlRetryOrEnd (bump s 0xB00150) c (if kind = 0 then 0x0B03 else if kind = 1 then 0x0B02 else 0x0B01)
    | none => s)

/-- CONTROLLER_RETRY. -/
def execControllerRetry (s : State) : Out :=
  .next (match s.mgmt.ctl with
    | some c => if c.retryWaiting then ctlAttempt s (c.tries + 1) else s
    | none => s)

/-- The transaction ends because a target held the clock low (R439). -/
def ctlTimeout (s : State) (c : CtlTx) (rdata : List Byte) : State := ctlEnd (bump s 0xB00128) 0x0B05 c.tries true false rdata

/-- CONTROLLER_DONE: `status` 0 every byte acknowledged, 1 the address not acknowledged, 2 a data byte not acknowledged, 3 the
clock held low for 30 ms; the bytes read; whether the received PEC mismatched (R437 to R440). -/
def execControllerDone (status : Nat) (rdata : List Byte) (pecBad : Bool) (s : State) : Out :=
  .next (match s.mgmt.ctl with
    | none => s
    | some c =>
      if c.retryWaiting then s
      else match status with
        | 0 => ctlEnd s 0 c.tries false (pecBad && rb s R.MB_CTL_CMD F.MB_CTL_CMD.PEC) rdata
        | 1 => ctlRetryOrEnd s c 0x0B04
        | 2 => ctlEnd s 0x0B05 c.tries false false rdata
        | _ => ctlTimeout s c rdata)

/-- SCL_TIMEOUT: any transaction the device takes part in ends, and an unapplied write is discarded (R429, R439). -/
def execSclTimeout (s : State) : Out :=
  .next (if !answers s then s
    else match s.mgmt.ctl with
      | some c => if c.retryWaiting then bump s 0xB00128 else ctlTimeout s c []
      | none => bump s 0xB00128)

/-! ### The address matcher (16.5) -/

/-- The state the device is in or enters, while it is not in Run. -/
def sleepTarget (s : State) : Nat :=
  match s.pwr.phase with
  | .awake => 0
  | .entering t _ => t
  | .asleep t _ => t
  | .exiting t _ _ _ => t

/-- ADDRESS_MATCH (R442 to R444): a matched access is wake source 2. STRETCH acknowledges and holds the clock until Run;
NACK_FIRST refuses. -/
def execAddressMatch (_read : Bool) (s : State) : Out :=
  .next (if !s.boot.supplies then s
    else if !held s then latchWake s 2
    else
      let starts := match s.pwr.phase with
        | .asleep _ _ => true
        | .entering _ _ => s.pwr.wake.isNone
        | _ => false
      let s := if starts then bump s 0xB00120 else s
      let s := if rb s R.MB_CFG F.MB_CFG.SLEEP_MODE then { s with pwr := { s.pwr with leftFor := sleepTarget s } }
        else bump s 0xB00118
      latchWake s 2)

/-! ### Hand-raise (16.6) -/

/-- An enabled source is set while hand-raise is enabled. -/
def hrSources (s : State) : Nat :=
  if rb s R.MB_CFG F.MB_CFG.HR_EN then
    Nat.land (rf s R.MB_ATTENTION F.MB_ATTENTION.SOURCES) (rf s R.MB_ATTENTION_EN F.MB_ATTENTION_EN.EN)
  else 0

/-- `HR_PENDING`: a hand-raise is due and its source still stands. -/
def hrPending (s : State) : Bool := rb s R.MB_STATUS F.MB_STATUS.HR_PENDING && hrSources s != 0

/-- HAND_RAISE_DUE: for a source that became set since the last hand-raise, or for the repeat interval (R446). -/
def execHandRaiseDue (s : State) : Out :=
  .next (if answers s && hrSources s != 0 &&
      (Nat.land (hrSources s) s.mgmt.hrNew != 0 || rf s R.MB_HR_REPEAT F.MB_HR_REPEAT.MS != 0) then
    sf s R.MB_STATUS F.MB_STATUS.HR_PENDING 1 else s)

/-- HAND_RAISE (R447): the bus has been idle and no controller transaction is pending. -/
def execHandRaise (s : State) : Out :=
  .next (if !answers s || !hrPending s || s.mgmt.ctl.isSome then s
    else
      let s := sf (bump s 0xB00130) R.MB_STATUS F.MB_STATUS.HR_PENDING 0
      let s := traceEv s 60 1 0xFF none false [0]
      { modMgmt s (fun m => { m with hrNew := 0 }) with out := s.out ++ [.twoWire 2 []] })

/-- HAND_RAISE_COLLISION (R448): the device yields; the hand-raise stays due. -/
def execHandRaiseCollision (s : State) : Out :=
  .next (if !answers s || !hrPending s || s.mgmt.ctl.isSome then s
    else traceEv (bump s 0xB00138) 60 1 0xFF none false [1])

/-- HAND_RAISE_SEEN (R451). -/
def execHandRaiseSeen (s : State) : Out :=
  .next (if answers s && rb s R.MB_CFG F.MB_CFG.CTL_EN then bump s 0xB00140 else s)

/-- A write of `MB_HOST_ATTN.SET`. -/
def setHostAttentionIn (v : W32) (s : State) : State := if v.getLsbD 0 then attn s 8 else s

/-- SET_HOST_ATTENTION. -/
def execSetHostAttention (v : W32) (s : State) : Out :=
  .next (tlp s (.setHostAttention v) (gate R.MB_HOST_ATTN (setHostAttentionIn v)))

end Sys2Proof.Machine
end

