-- ==== Sys2Proof/Machine/Notice.lean ====
section
/-! DEFINITION. The noticeboard's page (2.3): the text of every item of Table 2.3, the layout and texts of the image over it, and
its scan-out. What Table 2.3 does not spell (the characters between two figures, the form of a number whose base it leaves
out) is free (log entry 90). -/

namespace Sys2Proof.Machine

/-- The characters of a name. -/
def ascii (t : String) : List Byte := t.toList.map (fun c => BitVec.ofNat 8 c.toNat)

/-- Decimal digits of a number, no zeros in front. -/
def decimal (n : Nat) : List Byte := (Nat.toDigits 10 n).map (fun c => BitVec.ofNat 8 c.toNat)

/-- Decimal digits in a field of given width, zeros in front. -/
def decimalIn (width n : Nat) : List Byte := List.replicate (width - (decimal n).length) 0x30 ++ decimal n

/-- Hexadecimal digits, in the free case of log entry 90. -/
def hexadecimal (n : Nat) : List Byte :=
  (Nat.toDigits 16 n).map (fun c => BitVec.ofNat 8 (if Config.noticeUpper then c.toUpper else c).toNat)

/-- Whole degrees Celsius of a reading in 1/16 °C. -/
def wholeDegrees (t : Int) : List Byte := (if t / 16 < 0 then ascii "-" else []) ++ decimal (t / 16).natAbs

/-- The figures of one line with the characters that stand between them; `i` numbers the gaps of the item. -/
def spaced (code : Nat) : Nat → List (List Byte) → List Byte
  | _, [] => []
  | _, [x] => x
  | i, x :: xs => x ++ Config.noticeGap code i ++ spaced code (i + 1) xs

/-- Name of a Logbook event (Tables 17.6, 18.4, 19.9 and 20.6). -/
def eventNames : List (Nat × String) :=
  [(0x0001, "COLD_START"), (0x0002, "SOURCE_CHANGE"), (0x0003, "LOAD_EN"), (0x0004, "CELL_PROTECT"), (0x0005, "CELL_RECONNECT"),
   (0x0006, "CASE"), (0x0007, "WAKE_PIN"), (0x0008, "XTAL"), (0x0101, "START"), (0x0102, "CONFIG_VERSION_REFUSED"),
   (0x0103, "CONFIG_DIGEST_REFUSED"), (0x0104, "CONFIG_MALFORMED"), (0x0105, "CONFIG_APPLY"), (0x0106, "OTP"),
   (0x0107, "WRITES_BEFORE_DONE"), (0x0201, "WRITE_REJECT"), (0x0202, "DOORBELL_REJECT"), (0x0301, "TABLE_MALFORMED"),
   (0x0302, "NO_ENTRY_READ"), (0x0901, "LAYER_INVALID"), (0x0A01, "LINK_WARN"), (0x0A02, "LINK_RETRAIN"), (0x0A03, "LINK_DOWN"),
   (0x0A04, "LINK_CONFLICT"), (0x0A05, "LINK_MALFORMED"), (0x0A06, "STREAM_ERROR"), (0x0B01, "MGMT_NOTE")] ++
  [(0x0F01, "FAULT_FUNCTION"), (0x0F02, "FAULT_DEVICE"), (0x0F03, "DISCARD_DONE"), (0x0F04, "RING_RESET"),
   (0x0F05, "FUNCTION_RESET"), (0x0F06, "WEDGED"), (0x1001, "PHASE_OPEN"), (0x1002, "SENSE_FAIL"), (0x1003, "PHASE_RETRY"),
   (0x1004, "RAIL_FAULT"), (0x1005, "DROOP_FAULT"), (0x1006, "THROTTLE"), (0x1007, "THERMAL_TRIP"), (0x1008, "TMON_WARN"),
   (0x1009, "POWER_CAP"), (0x1101, "STATE_ENTER"), (0x1102, "STATE_EXIT"), (0x1103, "ROLL_CALL")]

def eventName (code : Nat) : List Byte := ascii (((eventNames.find? (fun e => e.1 == code)).map (·.2)).getD "")

/-- The verdict on the image (Table 2.3, R54): by `IMAGE_OUTCOME` (Table 2.7). -/
def imageVerdict (outcome : Nat) : List Byte :=
  match outcome with
  | 0 => ascii "NONE"
  | 1 => ascii "VERIFIED"
  | 2 => ascii "UNVERIFIED"
  | _ => ascii "REFUSED"

/-- A port's state as the noticeboard shows it: a port that is ACTIVE by the width in force (Tables 2.3 and 15.2; the states that
Table 2.3 does not name are log entry 90). -/
def portShown (state width : Nat) : List Byte :=
  match state with
  | 2 => ascii "TRAINING"
  | 4 => ascii "TRAINING"
  | 3 => if width = 3 then ascii "X8" else if width = 2 then ascii "X4" else ascii "X2"
  | 5 => if width = 3 then ascii "X8" else if width = 2 then ascii "X4" else ascii "X2"
  | _ => ascii "DOWN"

/-- One Logbook record: event name, epoch, coarse tick (Table 17.5). -/
def recordShown (r : List Byte) : List (List Byte) :=
  [eventName (ofBytesLE (r.take 2)), Config.noticeNumber 5 (ofBytesLE ((r.drop 2).take 2)),
   Config.noticeNumber 6 (ofBytesLE ((r.drop 4).take 6))]

/-- The time since the epoch began, as d hh:mm:ss: the coarse counter runs at 32,768 Hz. -/
def elapsedShown (coarse : Nat) : List Byte :=
  let t := coarse / 32768
  decimal (t / 86400) ++ ascii " " ++ decimalIn 2 (t / 3600 % 24) ++ ascii ":" ++ decimalIn 2 (t / 60 % 60) ++ ascii ":" ++
    decimalIn 2 (t % 60)

/-- The figures an item shows, line by line (Table 2.3). -/
def noticeFigures (s : State) (code : Nat) : List (List (List Byte)) :=
  match code with
  | 1 => [[ascii "POD", decimal s.boot.podId]]
  | 2 => [[Config.noticeNumber 0 (rd s R.CP_IMAGE_VERSION).toNat, Config.noticeNumber 1 (rd s R.CP_IMAGE_SERIAL).toNat,
           imageVerdict (rf s R.CP_BOOT_STATUS F.CP_BOOT_STATUS.IMAGE_OUTCOME)]]
  | 3 => [([0, 1, 2].map (fun p =>
           [portShown (portState s p) (rf s (R.BL_LINK_n_STATE p) F.BL_LINK_n_STATE.WIDTH),
            decimal (rf s (R.BL_LINK_n_STATE p) F.BL_LINK_n_STATE.PEER_POD)])).flatten]
  | 4 => [[wholeDegrees s.rail.tCluster, wholeDegrees s.rail.tFabric, wholeDegrees s.rail.tControl]]
  | 5 =>
    let mv := rf s R.VR_VOLTAGE F.VR_VOLTAGE.MEAS_MV
    [[decimal (mv / 1000) ++ ascii "." ++ decimalIn 3 (mv % 1000), decimal (totalI s / 10),
      decimal ((List.range 8).filter (nbit (switchingMask s))).length]]
  | 6 => [[decimal s.clk.epoch.toNat]]
  | 7 => [[hexadecimal s.clk.coarse.toNat, elapsedShown s.clk.coarse.toNat]]
  | 8 => (s.log.recs.take 5).map recordShown
  | _ => []

/-- The lines of an item. -/
def noticeLines (s : State) (code : Nat) : List (List Byte) := (noticeFigures s code).map (spaced code 0)

/-- Default place of an item. -/
def noticePlace (s : State) (code : Nat) : NbItem :=
  let d : NbItem := match code with
    | 1 => ⟨0, 0, false⟩
    | 2 => ⟨0, 20, false⟩
    | 3 => ⟨2, 0, false⟩
    | 4 => ⟨4, 0, false⟩
    | 5 => ⟨6, 0, false⟩
    | 6 => ⟨8, 0, false⟩
    | 7 => ⟨8, 20, false⟩
    | _ => ⟨10, 0, false⟩
  (Tab.get none s.boot.nbItems code).getD d

/-- Put a text into the page of 80 columns and 30 rows; what does not fit in its row is cut. -/
def placeText (page : Tab Byte) (row col : Nat) (bs : List Byte) : Tab Byte :=
  ((List.range bs.length).zip bs).foldl
    (fun t e => if row < 30 ∧ col + e.1 < 80 then Tab.insert t (80 * row + col + e.1) e.2 else t) page

/-- Put the lines of an item one below the other, from its row on. -/
def placeLines (page : Tab Byte) (p : NbItem) (ls : List (List Byte)) : Tab Byte :=
  ((List.range ls.length).zip ls).foldl (fun t e => placeText t (p.row + e.1) p.col e.2) page

/-- The noticeboard's characters by 80 × row + column: the items as last refreshed, then the texts over them, the later one
prevailing; a byte of a text outside the printable range shows as "?" (R50). -/
def noticePage (s : State) : Tab Byte :=
  let items := s.boot.nbShown.foldl (fun t e =>
    let p := noticePlace s e.1
    if p.hide then t else placeLines t p e.2) []
  let shown (b : Byte) : Byte := if 0x20 ≤ b.toNat ∧ b.toNat ≤ 0x7E then b else 0x3F
  s.boot.nbTexts.foldl (fun t e => placeText t e.1 e.2.1 (e.2.2.map shown)) items

/-- Every item is taken anew (R46). -/
def noticeNow (s : State) : List (Nat × List (List Byte)) := (List.range 8).map (fun i => (i + 1, noticeLines s (i + 1)))

/-- The page goes out while the noticeboard is scanned out: 1280 × 720 at 60 Hz, 74.25 MHz, 8 bits per component RGB (R44). -/
def sendNotice (s : State) : State :=
  if rb s R.CP_BOOT_STATUS F.CP_BOOT_STATUS.NB_ACTIVE then { s with out := s.out ++ [.notice 1280 720 60 74250 8 (noticePage s)] }
  else s

end Sys2Proof.Machine
end

