-- ==== Sys2Proof/Machine/Renderer.lean ====
section
/-! DEFINITION. The tile renderer (chapter 13): DRAW_LIST, its records, coverage, blending, bins and shading passes. -/

namespace Sys2Proof.Machine

/-! ### The packet's fields (Table 4.11) -/

def dlList (p : Packet) : Nat := p.addr 4
def dlLen (p : Packet) : Nat := (p.dw 6).toNat
def dlTarget (p : Packet) : Nat := p.addr 7
def dlW (p : Packet) : Nat := p.bits 9 15 0
def dlH (p : Packet) : Nat := p.bits 9 31 16
def dlStride (p : Packet) : Nat := (p.dw 10).toNat
def dlFmt (p : Packet) : Nat := p.bits 11 7 0
def dlBin (p : Packet) : Nat := p.addr 12
def dlBinLen (p : Packet) : Nat := (p.dw 14).toNat
def dlPx (p : Packet) : Nat := pxBytes (dlFmt p)

/-- Bytes from the target's first pixel to its last. -/
def dlExtent (p : Packet) : Nat := (dlH p - 1) * dlStride p + dlW p * dlPx p

/-- TX, TY and Dir (13.6). -/
def dlTX (p : Packet) : Nat := ceilDiv (dlW p) 32
def dlTY (p : Packet) : Nat := ceilDiv (dlH p) 32
def dlDir (p : Packet) : Nat := ceilDiv (8 * (dlTX p * dlTY p)) 64 * 64
def dlChunks (p : Packet) : Nat := (dlBinLen p - dlDir p) / 64

/-- The least `BIN_LENGTH` (R335). -/
def dlBinMin (p : Packet) : Nat := ceilDiv (dlDir p + 64 * (dlTX p * dlTY p)) 4096 * 4096

/-- Alignments, multiples, ranges and format of Table 4.11 hold. -/
def dlShapeOk (p : Packet) : Bool :=
  dlList p % 64 == 0 && dlLen p % 64 == 0 && dlTarget p % 256 == 0 && decide (32 ≤ dlW p) && decide (dlW p ≤ 4096) &&
  decide (32 ≤ dlH p) && decide (dlH p ≤ 4096) && dlStride p % 256 == 0 && decide (1 ≤ dlFmt p) && decide (dlFmt p ≤ 5) &&
  dlBin p % 4096 == 0 && dlBinLen p % 4096 == 0

/-! ### Values (R325) -/

/-- Round to FP32. -/
def rf32 (x : Num) : Num := (f32 x).1

def nOne : Num := .fin false 1 0
def nNat (n : Nat) : Num := .fin false n 0

/-- FP32 operations, each rounded to nearest even. -/
def pAdd (a b : Num) : Num := rf32 (a.add b)
def pSub (a b : Num) : Num := rf32 (a.add b.neg)
def pMul (a b : Num) : Num := rf32 (a.mul b)

/-- An unsigned normalised channel of n bits. -/
def unorm (n v : Nat) : Num := rf32 ((nNat v).div 24 (nNat (2 ^ n - 1)))

/-- A value written to an unsigned normalised channel; a NaN is written as 0. -/
def toUnorm (n : Nat) (x : Num) : Nat :=
  if x = .nan then 0
  else match pMul (Num.min (Num.max x Num.zero) nOne) (nNat (2 ^ n - 1)) with
    | .fin neg m e => (roundInt .rne neg m e).toNat
    | _ => 0

/-- A premultiplied colour. -/
structure Px where
  r : Num
  g : Num
  b : Num
  a : Num
  deriving DecidableEq, Repr

/-- Apply an operation to each channel of two colours. -/
def Px.zip (f : Num → Num → Num) (x y : Px) : Px := ⟨f x.r y.r, f x.g y.g, f x.b y.b, f x.a y.a⟩
def Px.map (f : Num → Num) (x : Px) : Px := ⟨f x.r, f x.g, f x.b, f x.a⟩

/-- The premultiplied source of a record's colour. -/
def sourcePx (c : W32) : Px :=
  let a := unorm 8 (fld c 31 24)
  ⟨pMul (unorm 8 (fld c 7 0)) a, pMul (unorm 8 (fld c 15 8)) a, pMul (unorm 8 (fld c 23 16)) a, a⟩

/-- A target pixel from its bytes (Table 13.1). -/
def loadPx (fmt : Nat) (bs : List Byte) : Px :=
  let v := ofBytesLE bs
  let u (n hi lo : Nat) : Num := unorm n (nbits v hi lo)
  let h (hi lo : Nat) : Num := decodeNum 6 (nbits v hi lo)
  match fmt with
  | 1 => ⟨u 8 7 0, u 8 15 8, u 8 23 16, u 8 31 24⟩
  | 2 => ⟨u 8 23 16, u 8 15 8, u 8 7 0, u 8 31 24⟩
  | 3 => ⟨u 10 9 0, u 10 19 10, u 10 29 20, u 2 31 30⟩
  | 4 => ⟨h 15 0, h 31 16, h 47 32, h 63 48⟩
  | _ => ⟨Num.zero, Num.zero, Num.zero, u 8 7 0⟩

/-- The bytes of a target pixel. -/
def storePx (fmt : Nat) (x : Px) : List Byte :=
  let h (y : Num) : List Byte := bytesLE 2 (encodeNum .rne 6 y).1
  match fmt with
  | 1 => [x.r, x.g, x.b, x.a].map (fun y => BitVec.ofNat 8 (toUnorm 8 y))
  | 2 => [x.b, x.g, x.r, x.a].map (fun y => BitVec.ofNat 8 (toUnorm 8 y))
  | 3 => bytesLE 4 (toUnorm 10 x.r + toUnorm 10 x.g * 2 ^ 10 + toUnorm 10 x.b * 2 ^ 20 + toUnorm 2 x.a * 2 ^ 30)
  | 4 => h x.r ++ h x.g ++ h x.b ++ h x.a
  | _ => [BitVec.ofNat 8 (toUnorm 8 x.a)]

/-- A value as the target format holds it. Every primitive leaves its result in the format, so that the target does not depend on where
passes end (R325, R340, log entry 116). -/
def inFormat (fmt : Nat) (x : Px) : Px := loadPx fmt (storePx fmt x)

/-- Blend a source onto a target value (Table 13.4). -/
def blendPx (mode : Nat) (s d : Px) : Px :=
  let keep := d.map (fun y => pMul y (pSub nOne s.a))
  match mode with
  | 0 => Px.zip pAdd s keep
  | 1 => s
  | 2 => (Px.zip pAdd s d).map (fun y => Num.min y nOne)
  | 3 => Px.zip Num.max s d
  | _ => keep

/-! ### Records (13.3) -/

/-- A record: eight words. -/
abbrev Rec := List W32

def Rec.w (r : Rec) (i : Nat) : W32 := (r[i]?).getD 0
def Rec.bits (r : Rec) (i hi lo : Nat) : Nat := fld (r.w i) hi lo
def Rec.type (r : Rec) : Nat := r.bits 0 7 0
/-- A signed 16-bit field; a signed 32-bit word. -/
def Rec.s16 (r : Rec) (i lo : Nat) : Int := signedOf 16 (r.bits i (lo + 15) lo)
def Rec.s32 (r : Rec) (i : Nat) : Int := signedOf 32 (r.w i).toNat

def isPrim (t : Nat) : Bool := decide (1 ≤ t) && decide (t ≤ 6)
def recTypeKnown (t : Nat) : Bool := [0x00, 0x01, 0x02, 0x03, 0x04, 0x05, 0x06, 0x10, 0x11, 0x12, 0xFF].contains t

/-- Bits that a record's type uses in a word (Tables 13.2 and 13.3). -/
def recMask (t builtin i : Nat) : Nat :=
  if i = 0 then (if isPrim t then 0x7FF else if t = 0x11 then 0x100FF else 0xFF)
  else match t with
    | 0x01 => if i ≤ 3 then mAll else 0
    | 0x02 => if i ≤ 3 then mAll else if i = 4 then 0xFF else 0
    | 0x03 => if i ≤ 2 then mAll else if i = 4 then 0xFF else 0
    | 0x04 => if i ≤ 5 then mAll else if i = 6 then 0xFFFF else 0
    | 0x05 => mAll
    | 0x06 => if i ≤ 3 then mAll else if i = 4 then 0xFFFF else 0
    | 0x10 => if i = 2 ∨ i = 3 then mAll else 0
    | 0x11 => if builtin = 1 then 0 else if i = 3 then 0xFFFF else if i = 2 ∨ i = 4 ∨ i = 5 then mAll else 0
    | 0x12 => if i = 1 then mAll else 0
    | _ => 0

/-- The atlas in a slot: slot 0 is the built-in one, 1,520 × 24. -/
def atlasSize (d : Draw) : Nat × Nat :=
  if d.atlas = 0 then (1520, 24) else ((d.atlases[d.atlas - 1]?).map (fun a => (a.width, a.height))).getD (0, 0)

/-- A field of the record is out of its range, or a rule of R328 that depends on the list so far is broken. -/
def recRangeBad (d : Draw) (r : Rec) : Bool :=
  match r.type with
  | 0x02 => r.bits 4 7 0 == 0
  | 0x03 => r.bits 4 7 0 == 0
  | 0x04 => r.bits 6 15 0 == 0
  | 0x06 => r.bits 4 7 0 == 0 || r.bits 4 15 8 == 0 || decide ((atlasSize d).1 < r.bits 3 15 0 + r.bits 4 7 0) ||
      decide ((atlasSize d).2 < r.bits 3 31 16 + r.bits 4 15 8)
  | 0x10 => decide (256 ≤ d.clips.length)
  | 0x11 => r.bits 0 16 16 == 0 &&
      (decide (127 ≤ d.atlases.length) || r.bits 5 15 0 == 0 || r.bits 5 31 16 == 0 || decide ((r.w 4).toNat < r.bits 5 15 0))
  | 0x12 => d.cursor != 0
  | _ => false

/-- The record meets a condition of R328. -/
def recBad (d : Draw) (r : Rec) : Bool :=
  !recTypeKnown r.type || (List.range 8).any (fun i => strayBits (r.w i) (recMask r.type (r.bits 0 16 16) i)) ||
  (isPrim r.type && decide (5 ≤ r.bits 0 10 8)) || recRangeBad d r

/-! ### Coverage (R331), coordinates of LINE and TRIANGLE in 1/256 pixel -/

def PxRect.isEmpty (q : PxRect) : Bool := decide (q.x1 ≤ q.x0) || decide (q.y1 ≤ q.y0)
def PxRect.has (q : PxRect) (x y : Int) : Bool := decide (q.x0 ≤ x) && decide (x < q.x1) && decide (q.y0 ≤ y) && decide (y < q.y1)
def PxRect.meet (a b : PxRect) : PxRect := ⟨max a.x0 b.x0, max a.y0 b.y0, min a.x1 b.x1, min a.y1 b.y1⟩

/-- Pixels that an interval of 1/512 pixel overlaps. -/
def pxSpan (lo hi : Int) : Int × Int := (lo / 512, -((-hi) / 512))

/-- A primitive's bounding box in pixels (R331, R336). -/
def primBox (r : Rec) : PxRect :=
  match r.type with
  | 0x03 =>
    let n : Int := ((r.bits 4 7 0 : Nat) : Int)
    let x := r.s16 2 0 - n / 2
    let y := r.s16 2 16 - n / 2
    ⟨x, y, x + n, y + n⟩
  | 0x04 =>
    let w : Int := ((r.bits 6 15 0 : Nat) : Int)
    let sx := pxSpan (2 * min (r.s32 2) (r.s32 4) - w) (2 * max (r.s32 2) (r.s32 4) + w)
    let sy := pxSpan (2 * min (r.s32 3) (r.s32 5) - w) (2 * max (r.s32 3) (r.s32 5) + w)
    ⟨sx.1, sy.1, sx.2, sy.2⟩
  | 0x05 =>
    let sx := pxSpan (2 * min (r.s32 2) (min (r.s32 4) (r.s32 6))) (2 * max (r.s32 2) (max (r.s32 4) (r.s32 6)))
    let sy := pxSpan (2 * min (r.s32 3) (min (r.s32 5) (r.s32 7))) (2 * max (r.s32 3) (max (r.s32 5) (r.s32 7)))
    ⟨sx.1, sy.1, sx.2, sy.2⟩
  | 0x06 => ⟨r.s16 2 0, r.s16 2 16, r.s16 2 0 + ((r.bits 4 7 0 : Nat) : Int), r.s16 2 16 + ((r.bits 4 15 8 : Nat) : Int)⟩
  | _ => ⟨r.s16 2 0, r.s16 2 16, r.s16 3 0, r.s16 3 16⟩

/-- The LINE covers a pixel. -/
def lineCovers (r : Rec) (x y : Int) : Bool :=
  let px := 256 * x + 128 - r.s32 2
  let py := 256 * y + 128 - r.s32 3
  let dx := r.s32 4 - r.s32 2
  let dy := r.s32 5 - r.s32 3
  let w : Int := ((r.bits 6 15 0 : Nat) : Int)
  if dx = 0 ∧ dy = 0 then decide (4 * (px * px + py * py) ≤ w * w)
  else
    let dot := px * dx + py * dy
    let cross := px * dy - py * dx
    decide (0 ≤ dot) && decide (dot ≤ dx * dx + dy * dy) && decide (4 * (cross * cross) ≤ w * w * (dx * dx + dy * dy))

/-- An edge's value at a pixel centre (positive inside, y downwards, for a triangle wound so that its area is positive), and
whether the edge is a top or a left edge. -/
def edgeAt (ax ay bx bY px py : Int) : Int × Bool :=
  ((bx - ax) * (py - ay) - (bY - ay) * (px - ax), decide (bY < ay) || (bY == ay && decide (ax < bx)))

/-- The TRIANGLE covers a pixel: strictly inside, or on a top or left edge (log entry 39). -/
def triCovers (r : Rec) (x y : Int) : Bool :=
  let px := 256 * x + 128
  let py := 256 * y + 128
  let area := (edgeAt (r.s32 2) (r.s32 3) (r.s32 4) (r.s32 5) (r.s32 6) (r.s32 7)).1
  if area = 0 then false
  else
    let bx := if 0 < area then r.s32 4 else r.s32 6
    let bY := if 0 < area then r.s32 5 else r.s32 7
    let cx := if 0 < area then r.s32 6 else r.s32 4
    let cy := if 0 < area then r.s32 7 else r.s32 5
    let es := [edgeAt (r.s32 2) (r.s32 3) bx bY px py, edgeAt bx bY cx cy px py, edgeAt cx cy (r.s32 2) (r.s32 3) px py]
    es.all (fun e => decide (0 ≤ e.1)) && (es.all (fun e => decide (0 < e.1)) || es.any (fun e => e.1 == 0 && e.2))

/-- The BOX's hole. -/
def boxHole (r : Rec) : PxRect :=
  let t : Int := ((r.bits 4 7 0 : Nat) : Int)
  ⟨r.s16 2 0 + t, r.s16 2 16 + t, r.s16 3 0 - t, r.s16 3 16 - t⟩

/-- A primitive covers a pixel. -/
def covers (r : Rec) (x y : Int) : Bool :=
  (primBox r).has x y &&
  match r.type with
  | 0x02 => !(boxHole r).has x y
  | 0x04 => lineCovers r x y
  | 0x05 => triCovers r x y
  | _ => true

/-! ### The list in progress -/

def setDraw (s : State) (d : Draw) : State := { s with rend := { s.rend with cur := some d } }

/-- The whole target. -/
def wholeTarget (p : Packet) : PxRect := ⟨0, 0, ((dlW p : Nat) : Int), ((dlH p : Nat) : Int)⟩

def clipOf (p : Packet) (d : Draw) (slot : Nat) : PxRect := ((d.clips[slot]?).getD (wholeTarget p)).meet (wholeTarget p)

/-- The ranges of some pixel tiles in the target, row by row. -/
def tileRows (p : Packet) (t : Nat) : List (Nat × Nat) :=
  let x0 := 32 * (t % dlTX p)
  let y0 := 32 * (t / dlTX p)
  (List.range (min 32 (dlH p - y0))).map (fun j => (dlTarget p + (y0 + j) * dlStride p + x0 * dlPx p, min 32 (dlW p - x0) * dlPx p))

/-- The renderer writes bytes; its writes allocate in the shared cache (R187). -/
def rendWrite (s : State) (d : Draw) (va : Nat) (bs : List Byte) : State :=
  let s := touchVA s 20 d.fn va bs.length true true
  vaWrite s .draw 20 0 d.fn d.pos ((List.range bs.length).zip bs |>.map (fun x => (va + x.1, x.2)))

/-- The renderer reads bytes; its reads do not allocate (R187). -/
def rendRead (s : State) (d : Draw) (va n : Nat) : List Byte := (List.range n).map (fun i => vaByte s 21 d.fn (va + i))

/-- A failed access of the renderer: a read that finds no entry is recorded too (Table 17.6; log entry 40). -/
def rendFault (s : State) (d : Draw) (st va : Nat) (write : Bool) : State :=
  let none_ := match leafOf s 21 d.fn va with
    | .none => true
    | _ => false
  let s := if none_ && !write then logX s 0x0302 5 d.fn (bytesLE 6 va ++ [1]) else s
  accessFault s d.fn va write st d.pos

/-- Do some work if every access it makes goes through; else ask for what is lacking, or fault (R167). -/
def withAccess (s : State) (d : Draw) (rs : List Range) (k : State → State) : State :=
  match blockRanges s 21 d.fn rs with
  | .none => k (rs.foldl (fun s r => if r.write then s else touchVA s 21 d.fn r.va r.len true false) s)
  | .waits => askRanges s .draw 21 5 0 d.fn d.pos rs
  | .fails st va w => rendFault (lookUpTo s 21 d.fn rs va) d st va w

/-- The list's report, the counters and the last-error record. -/
def closeDraw (s : State) (d : Draw) (st record : Nat) : State :=
  let s := finishPkt s d.fn d.pos st d.tiles
  if st = St.DONE then bump s 0x800100
  else
    let s := bump s 0x800108
    let s := wr s R.TB_LAST_ERROR_0 (BitVec.ofNat 32 (st + d.fn * 2 ^ 16 + 2 ^ 31))
    wr (wr s R.TB_LAST_ERROR_1 (BitVec.ofNat 32 record)) R.TB_LAST_ERROR_2 (BitVec.ofNat 32 d.pos)

/-- A list that has begun ends: bin memory is undefined (R338), and so are the pixel tiles it has written, where it does not end with
DONE (R330). -/
def endDraw (s : State) (d : Draw) (p : Packet) (st record : Nat) : State :=
  let s := undefVA { s with rend := { s.rend with cur := none } } d.fn (dlBin p) (dlBinLen p)
  let s := if st = St.DONE then s else d.wrote.foldl (fun s t => (tileRows p t).foldl (fun s r => undefVA s d.fn r.1 r.2) s) s
  closeDraw s d st record

/-! ### Start of a list (R323) -/

/-- A page of an extent has a `TARGET` in a set. -/
def pageTarget (s : State) (f va n : Nat) (bad : Nat → Bool) : Bool :=
  (pagesOf va n).any (fun q => match leafOf s 99 f q with
    | .leaf e _ => bad (leafTarget e)
    | _ => false)

/-- The list is refused before its first record. -/
def drawBad (s : State) (f : Nat) (p : Packet) : Bool :=
  pageTarget s f (dlTarget p) (dlExtent p) (· != 0) || pageTarget s f (dlBin p) (dlBinLen p) (· != 0) ||
  pageTarget s f (dlList p) (dlLen p) (· == 2) || decide (dlStride p < dlW p * dlPx p) || decide (4194304 < dlLen p) ||
  decide (dlBinLen p < dlBinMin p) || decide (268435456 < dlBinLen p) ||
  extentsMeet (dlBin p) (dlBinLen p) (dlTarget p) (dlExtent p) || extentsMeet (dlBin p) (dlBinLen p) (dlList p) (dlLen p)

/-- A pass starts: every directory entry is written 0 and every chunk is free (R336). -/
def startPass (s : State) (d : Draw) (p : Packet) (pass : Nat) : State :=
  let s := rendWrite s d (dlBin p) (List.replicate (8 * (dlTX p * dlTY p)) 0)
  setDraw s { d with pass := pass, bins := [], used := 0 }

/-- Take the next queued list, if none runs: a list refused by R323 ends at once and writes nothing, and so ends one without a record. -/
def kickRend : Nat → State → State
  | 0, s => s
  | fuel + 1, s =>
    match s.rend.cur, s.rend.queue with
    | none, (f, pos) :: rest =>
      let s := { s with rend := { s.rend with queue := rest } }
      match getPkt s f pos with
      | none => kickRend fuel s
      | some p =>
        let d : Draw := { fn := f, pos := pos, cursor := 0, pass := 1, clear := none, clips := [wholeTarget p], atlases := []
                          clip := 0, atlas := 0, bins := [], used := 0, wrote := [], tiles := 0 }
        let s := startPkt s f pos
        if drawBad s f p then kickRend fuel (closeDraw s d St.BAD_PARAM 0)
        else if dlLen p = 0 then kickRend fuel (endDraw s d p St.DONE 0)
        else startPass (setDraw s d) d p 1
    | _, _ => s

/-- Take the next queued list. -/
def kickDraw (s : State) : State := kickRend (s.rend.queue.length + 1) s

/-! ### Bins (13.6) -/

/-- Pixel tiles that a box of pixels overlaps, by number. -/
def boxTiles (p : Packet) (b : PxRect) : List Nat :=
  if b.isEmpty then []
  else
    let x0 := b.x0.toNat / 32
    let y0 := b.y0.toNat / 32
    let nx := (b.x1.toNat - 1) / 32 + 1 - x0
    let ny := (b.y1.toNat - 1) / 32 + 1 - y0
    ((List.range ny).map (fun j => (List.range nx).map (fun i => (y0 + j) * dlTX p + (x0 + i)))).flatten

def Bin.empty : Bin := ⟨[], 0⟩
def getBin (d : Draw) (t : Nat) : Bin := Tab.get Bin.empty d.bins t

/-- New chunks that one more reference in each of some tiles needs. -/
def chunksNeeded (d : Draw) (ts : List Nat) : Nat := (ts.filter (fun t => (getBin d t).refs.length % 15 == 0)).length

/-- A reference word (Table 13.5). -/
def refWord (x : BinRef) : Nat := x.record % 2 ^ 17 + x.clip % 256 * 2 ^ 17 + x.atlas % 128 * 2 ^ 25

/-- Byte address of a chunk. -/
def chunkVa (p : Packet) (i : Nat) : Nat := dlBin p + dlDir p + 64 * (i - 1)

/-- Put a reference into a pixel tile's bin and write it into bin memory. -/
def putRef (p : Packet) (x : BinRef) (s : State) (t : Nat) : State :=
  match s.rend.cur with
  | none => s
  | some d =>
    let b := getBin d t
    let n := b.refs.length
    let fresh := n % 15 == 0
    let c := if fresh then d.used + 1 else b.chunk
    let dirVa := dlBin p + 8 * t
    let s := if !fresh then rendWrite s d (chunkVa p c + 4 * (n % 15)) (bytesLE 4 (refWord x))
      else
        let s := rendWrite s d (chunkVa p c) (bytesLE 4 (refWord x) ++ List.replicate 60 0)
        rendWrite s d (if n = 0 then dirVa else chunkVa p b.chunk + 60) (bytesLE 4 c)
    let s := rendWrite s d (dirVa + 4) (bytesLE 4 ((n + 1) % 2 ^ 24))
    setDraw (bump s 0x800118) { d with bins := Tab.set Bin.empty d.bins t ⟨b.refs ++ [x], c⟩
                                       used := if fresh then d.used + 1 else d.used }

/-- The bin memory a binning may write. -/
def binRange (d : Draw) (p : Packet) (more : Nat) : Range := ⟨dlBin p, min (dlBinLen p) (dlDir p + 64 * (d.used + more)), true⟩

/-! ### Shading (13.7) -/

/-- The record at an index. -/
def readRec (s : State) (d : Draw) (p : Packet) (i : Nat) : Rec :=
  let bs := rendRead s d (dlList p + 32 * i) 32
  (List.range 8).map (fun k => BitVec.ofNat 32 (ofBytesLE ((bs.drop (4 * k)).take 4)))

/-- The atlas byte a GLYPH uses at a pixel. -/
def glyphByte (s : State) (d : Draw) (r : Rec) (slot : Nat) (x y : Int) : Nat :=
  let u := r.bits 3 15 0 + (x - r.s16 2 0).toNat
  let v := r.bits 3 31 16 + (y - r.s16 2 16).toNat
  if slot = 0 then (if Config.glyphDot u v then 255 else 0)
  else match d.atlases[slot - 1]? with
    | some a => (vaByte s 21 d.fn (a.addr + v * a.stride + u)).toNat
    | none => 0

/-- One reference applied to a pixel (R332, R333). -/
def applyRef (s : State) (d : Draw) (p : Packet) (x y : Int) (v : Px) (q : BinRef × Rec) : Px :=
  let r := q.2
  if !(clipOf p d q.1.clip).has x y || !covers r x y then v
  else if r.type = 0x06 then
    let k := glyphByte s d r q.1.atlas x y
    if k = 0 then v else blendPx (r.bits 0 10 8) ((sourcePx (r.w 1)).map (fun c => pMul c (unorm 8 k))) v
  else blendPx (r.bits 0 10 8) (sourcePx (r.w 1)) v

/-- The pixel tiles a shading pass visits (R339). -/
def passTiles (d : Draw) (p : Packet) : List Nat :=
  (List.range (dlTX p * dlTY p)).filter (fun t => (d.pass == 1 && d.clear.isSome) || !(getBin d t).refs.isEmpty)

/-- Shade and write one pixel tile. -/
def shadeTile (p : Packet) (s : State) (t : Nat) : State :=
  match s.rend.cur with
  | none => s
  | some d =>
    let refs := (getBin d t).refs.map (fun q => (q, readRec s d p q.record))
    let x0 := 32 * (t % dlTX p)
    let y0 := 32 * (t / dlTX p)
    let s' := (tileRows p t).zipIdx.foldl (fun s'' row =>
      let y : Int := ((y0 + row.2 : Nat) : Int)
      let bs := (List.range (row.1.2 / dlPx p)).map (fun i =>
        let x : Int := ((x0 + i : Nat) : Int)
        let v := match (if d.pass = 1 then d.clear else none) with
          | some c => sourcePx c
          | none => loadPx (dlFmt p) (rendRead s d (row.1.1 + i * dlPx p) (dlPx p))
        storePx (dlFmt p) (refs.foldl (fun v q => inFormat (dlFmt p) (applyRef s d p x y v q)) (inFormat (dlFmt p) v)))
      rendWrite s'' d row.1.1 bs.flatten) s
    setDraw (bump s' 0x800120) { d with tiles := d.tiles + 1, wrote := if d.wrote.contains t then d.wrote else t :: d.wrote }

/-- What a shading pass reads and writes: target rows, records, and atlases. -/
def shadeRanges (d : Draw) (p : Packet) : List Range :=
  let rows := ((passTiles d p).map (tileRows p)).flatten
  let refs := ((passTiles d p).map (fun t => (getBin d t).refs)).flatten
  let slots := (refs.map (·.atlas)).filter (· != 0)
  let atl := ((List.range d.atlases.length).filter (fun i => slots.contains (i + 1))).filterMap (fun i => d.atlases[i]?)
  (if d.pass = 1 ∧ d.clear.isSome then [] else rows.map (fun r => ⟨r.1, r.2, false⟩)) ++ rows.map (fun r => ⟨r.1, r.2, true⟩) ++
  refs.map (fun q => ⟨dlList p + 32 * q.record, 32, false⟩) ++
  atl.map (fun a => ⟨a.addr, (a.height - 1) * a.stride + a.width, false⟩)

/-- A shading pass, then what follows it. -/
def shadingPass (s : State) (d : Draw) (p : Packet) (k : State → State) : State :=
  withAccess s d (shadeRanges d p) (fun s => k ((passTiles d p).foldl (shadeTile p) s))

/-! ### Records performed -/

/-- The record at the cursor has been read. -/
def tookRec (s : State) : State :=
  match s.rend.cur with
  | none => s
  | some d => setDraw (bump s 0x800110) { d with cursor := d.cursor + 1 }

/-- Bin one primitive (R336), after a shading pass where chunks are short (R337). -/
def binPrim (s : State) (d : Draw) (p : Packet) (r : Rec) : State :=
  let ts := boxTiles p ((primBox r).meet (clipOf p d d.clip))
  let x : BinRef := ⟨d.cursor, d.clip, d.atlas⟩
  let put (s : State) : State := tookRec (ts.foldl (putRef p x) s)
  if d.used + chunksNeeded d ts ≤ dlChunks p then withAccess s d [binRange d p (chunksNeeded d ts)] put
  else
    withAccess s d [binRange d p 0] (fun s =>
      shadingPass s d p (fun s =>
        match s.rend.cur with
        | none => s
        | some d' => put (startPass (bump s 0x800128) d' p (d'.pass + 1))))

/-- SET_CLIP and SET_ATLAS take slots (R329). -/
def setClip (s : State) (d : Draw) (r : Rec) : State :=
  tookRec (setDraw s { d with clips := d.clips ++ [⟨r.s16 2 0, r.s16 2 16, r.s16 3 0, r.s16 3 16⟩], clip := d.clips.length })

def recAtlas (r : Rec) : Atlas := ⟨(r.w 2).toNat + r.bits 3 15 0 * 2 ^ 32, (r.w 4).toNat, r.bits 5 15 0, r.bits 5 31 16⟩

def setAtlas (s : State) (d : Draw) (p : Packet) (r : Rec) : State :=
  if r.bits 0 16 16 = 1 then tookRec (setDraw s { d with atlas := 0 })
  else
    let a := recAtlas r
    let n := (a.height - 1) * a.stride + a.width
    let ok := pinned s d.fn a.addr n false
    let pod := pageTarget s d.fn a.addr n (· == 2)
    let s := touchPages s d.fn a.addr n
    if pod then endDraw (bump s 0x800110) d p St.BAD_PARAM d.cursor
    else if !ok then endDraw (bump s 0x800110) d p St.UNPINNED_OPERAND d.cursor
    else tookRec (setDraw s { d with atlases := d.atlases ++ [a], atlas := d.atlases.length + 1 })

/-- The last shading pass, and the end of the list. -/
def lastPass (s : State) (d : Draw) (p : Packet) (took : State → State) : State :=
  shadingPass s d p (fun s =>
    match (took s).rend.cur with
    | some d' => endDraw (took s) d' p St.DONE 0
    | none => s)

/-- The list has ended at its last record (R327). -/
def listOver (d : Draw) (p : Packet) : Bool := decide (dlLen p / 32 ≤ d.cursor)

/-- A list without END ends once its last record is read. -/
def endIfOver (s : State) (p : Packet) : State :=
  match s.rend.cur with
  | some d => if listOver d p then lastPass s d p id else s
  | none => s

/-- One record, well formed (13.3). -/
def doRec (s : State) (d : Draw) (p : Packet) (r : Rec) : State :=
  match r.type with
  | 0x00 => tookRec s
  | 0x10 => setClip s d r
  | 0x11 => setAtlas s d p r
  | 0x12 => tookRec (setDraw s { d with clear := some (r.w 1) })
  | 0xFF => lastPass s d p tookRec
  | _ => binPrim s d p r

/-- The record at the cursor acts if it is of a row's type; a record that meets R328 ends the list whatever its type. A list that waits
at its end for its last pass ends with any row. -/
def drawRec (type : Nat) (s : State) : State :=
  let s := kickDraw s
  raiseMet (kickDraw (match s.rend.cur with
  | none => s
  | some d =>
    match getPkt s d.fn d.pos with
    | none => { s with rend := { s.rend with cur := none } }
    | some p =>
      if listOver d p then endIfOver s p
      else
        withAccess s d [⟨dlList p + 32 * d.cursor, 32, false⟩] (fun s =>
          let r := readRec s d p d.cursor
          if recBad d r then endDraw (bump s 0x800110) d p St.BAD_PARAM d.cursor
          else if r.type != type then s
          else endIfOver (doRec s d p r) p)))

/-- RECT. -/
def execDrawRect (s : State) : Out := .next (drawRec 0x01 s)
/-- BOX. -/
def execDrawBox (s : State) : Out := .next (drawRec 0x02 s)
/-- POINT. -/
def execDrawPoint (s : State) : Out := .next (drawRec 0x03 s)
/-- LINE. -/
def execDrawLine (s : State) : Out := .next (drawRec 0x04 s)
/-- TRIANGLE. -/
def execDrawTriangle (s : State) : Out := .next (drawRec 0x05 s)
/-- GLYPH. -/
def execDrawGlyph (s : State) : Out := .next (drawRec 0x06 s)
/-- SET_CLIP. -/
def execDrawSetClip (s : State) : Out := .next (drawRec 0x10 s)
/-- SET_ATLAS. -/
def execDrawSetAtlas (s : State) : Out := .next (drawRec 0x11 s)
/-- CLEAR. -/
def execDrawClear (s : State) : Out := .next (drawRec 0x12 s)
/-- DRAW_NOP. -/
def execDrawNop (s : State) : Out := .next (drawRec 0x00 s)
/-- DRAW_END. -/
def execDrawEnd (s : State) : Out := .next (drawRec 0xFF s)

/-- DRAW_LIST at dispatch (Table 4.11, R113, R322). -/
def dispDraw (s : State) (f : Nat) (p : Packet) : State :=
  if 16 ≤ s.rend.queue.length then holdPkt s f p.pos
  else if !dlShapeOk p then refusePkt s f p.pos St.BAD_PARAM true
  else
    let ok := pinned s f (dlList p) (dlLen p) false && pinned s f (dlTarget p) (dlExtent p) true && pinned s f (dlBin p) (dlBinLen p) true
    let s := touchPages (touchPages (touchPages s f (dlList p) (dlLen p)) f (dlTarget p) (dlExtent p)) f (dlBin p) (dlBinLen p)
    if !ok then refusePkt s f p.pos St.UNPINNED_OPERAND true
    else kickDraw { s with rend := { s.rend with queue := s.rend.queue ++ [(f, p.pos)] } }

/-- DRAW_LIST. -/
def execPktDrawList (f pos : Nat) (s : State) : Out := .next (dispatchAs s f pos 0x30 dispDraw)

end Sys2Proof.Machine
end

