-- ==== Sys2Proof/Machine/Display.lean ====
section
/-! DEFINITION. Compositor, DisplayPort output and write-back (chapter 14), and the DISPLAY packets. -/

namespace Sys2Proof.Machine

/-- Change the display's state. -/
def modDisp (s : State) (g : Display → Display) : State := { s with disp := g s.disp }

def getLayer (s : State) (n : Nat) : Layer := Tab.get Layer.reset s.disp.layers n
def setLayer (s : State) (n : Nat) (l : Layer) : State := modDisp s (fun d => { d with layers := Tab.set Layer.reset d.layers n l })

/-! ### Configurations (Table 4.11, R345) -/

def DispCfg.wbEn (c : DispCfg) : Bool := c.source == 1 && c.bits 4 2 2 == 1
def DispCfg.clock (c : DispCfg) : Nat := c.bits 5 31 0
def DispCfg.hAct (c : DispCfg) : Nat := c.bits 6 15 0
def DispCfg.hTot (c : DispCfg) : Nat := c.bits 6 31 16
def DispCfg.vAct (c : DispCfg) : Nat := c.bits 8 15 0
def DispCfg.vTot (c : DispCfg) : Nat := c.bits 8 31 16
def DispCfg.bpc10 (c : DispCfg) : Bool := c.bits 10 4 4 == 1
def DispCfg.wbBase (c : DispCfg) : Nat := c.bits 11 31 0 + c.bits 12 15 0 * 2 ^ 32
def DispCfg.wbStride (c : DispCfg) : Nat := c.bits 13 31 0

/-- The configuration a packet asks for: with source 0 or 2 every other field is ignored (R375). -/
def cfgOf (p : Packet) : DispCfg :=
  let src := p.bits 4 1 0
  if src = 1 then ⟨1, (List.range 10).map (fun i => p.dw (4 + i))⟩ else ⟨src, []⟩

/-- Check 1 of DISPLAY_CONFIG, with the ranges of R345 and Table 4.11. -/
def cfgRangeOk (c : DispCfg) : Bool :=
  decide (25000 ≤ c.clock) && decide (c.clock ≤ 594000) &&
  decide (64 ≤ c.hAct) && decide (c.hAct ≤ 3840) && decide (64 ≤ c.vAct) && decide (c.vAct ≤ 2160) &&
  decide (c.hTot ≤ 8192) && decide (c.vTot ≤ 4096) && decide (c.hAct + 32 ≤ c.hTot) && decide (c.vAct + 3 ≤ c.vTot) &&
  decide (c.hAct ≤ c.bits 7 15 0) && decide (c.bits 7 15 0 + c.bits 7 31 16 ≤ c.hTot) &&
  decide (c.vAct ≤ c.bits 9 15 0) && decide (c.bits 9 15 0 + c.bits 9 31 16 ≤ c.vTot) &&
  decide (1 ≤ c.bits 7 31 16) && decide (1 ≤ c.bits 9 31 16) && decide (c.lanes ≤ 2) &&
  c.wbBase % 256 == 0 && c.wbStride % 256 == 0 && decide (4 * c.hAct ≤ c.wbStride)

/-- Lane rate in units of 10 Mbit/s. -/
def rate10M (r : Nat) : Nat := match r with
  | 0 => 162
  | 1 => 270
  | 2 => 540
  | _ => 810

/-- Check 2: the mode fits the main link: PIXEL_CLOCK (kHz) × bits against lanes × rate × 0.8. -/
def cfgFits (c : DispCfg) : Bool :=
  decide (c.clock * (if c.bpc10 then 30 else 24) ≤ laneCount c.lanes * rate10M c.rate * 8000)

/-- Write-back slots, and a slot's size S (14.7). -/
def wbBuffers (s : State) : Nat := max 1 (min 4 (rf s R.DC_WB_CTRL F.DC_WB_CTRL.BUFFERS))
def slotBytes (c : DispCfg) : Nat := c.wbStride * c.vAct + 256

/-! ### Layers: registers and extents (14.2) -/

/-- A value as a register view gives it. -/
abbrev View := Nat → W32

/-- Fields of a layer's registers through a view. -/
def lfld (v : View) (k : Nat) (fd : Fld) : Nat := fld (v k) fd.1 fd.2
def srcX (v : View) (n : Nat) : Nat := lfld v (R.DC_LAYER_n_SRC_POS n) F.DC_LAYER_n_SRC_POS.SRC_X
def srcY (v : View) (n : Nat) : Nat := lfld v (R.DC_LAYER_n_SRC_POS n) F.DC_LAYER_n_SRC_POS.SRC_Y
def srcW (v : View) (n : Nat) : Nat := lfld v (R.DC_LAYER_n_SRC_SIZE n) F.DC_LAYER_n_SRC_SIZE.SRC_W
def srcH (v : View) (n : Nat) : Nat := lfld v (R.DC_LAYER_n_SRC_SIZE n) F.DC_LAYER_n_SRC_SIZE.SRC_H
def dstX (v : View) (n : Nat) : Nat := lfld v (R.DC_LAYER_n_DST_POS n) F.DC_LAYER_n_DST_POS.DST_X
def dstY (v : View) (n : Nat) : Nat := lfld v (R.DC_LAYER_n_DST_POS n) F.DC_LAYER_n_DST_POS.DST_Y
/-- Size of the destination rectangle: the source's own on a graphics layer (R350). -/
def dstW (v : View) (n : Nat) : Nat := if n < 4 then lfld v (R.DC_LAYER_n_DST_SIZE n) F.DC_LAYER_n_DST_SIZE.DST_W else srcW v n
def dstH (v : View) (n : Nat) : Nat := if n < 4 then lfld v (R.DC_LAYER_n_DST_SIZE n) F.DC_LAYER_n_DST_SIZE.DST_H else srcH v n
def layFmt (v : View) (n : Nat) : Nat := lfld v (R.DC_LAYER_n_CTRL n) F.DC_LAYER_n_CTRL.FORMAT
def layBit (v : View) (n : Nat) (fd : Fld) : Bool := lfld v (R.DC_LAYER_n_CTRL n) fd == 1

/-- Plane-0 bytes per pixel of a format (Table 14.1), and whether it has two planes. -/
def layBytes (fmt : Nat) : Nat := if fmt = 0x10 then 1 else if fmt = 0x11 then 2 else pxBytes fmt
def twoPlanes (fmt : Nat) : Bool := fmt == 0x10 || fmt == 0x11

/-- R0B of R351. -/
def r0b (v : View) (n : Nat) : Nat := (srcX v n + srcW v n) * layBytes (layFmt v n)

/-- The extents a flip's planes span (R351). -/
def flipExtents (v : View) (n : Nat) (x : Flip) : List (Nat × Nat) :=
  let rows := srcY v n + srcH v n
  (x.plane0, (rows - 1) * x.stride0 + r0b v n) ::
  (if x.plane1 = 0 then [] else [(x.plane1, (rows / 2 - 1) * x.stride1 + r0b v n)])

/-- FORMAT is one that Table 14.1 allows for the layer. -/
def fmtAllowed (n fmt : Nat) : Bool :=
  if n < 4 then [0x01, 0x02, 0x03, 0x10, 0x11].contains fmt else [0x01, 0x02, 0x03, 0x04, 0x05].contains fmt

/-- A layer's configuration with a buffer is valid (R352). -/
def layerValid (s : State) (v : View) (n : Nat) (x : Flip) : Bool :=
  let w := srcW v n
  let h := srcH v n
  let fmt := layFmt v n
  decide (1 ≤ w) && decide (1 ≤ h) && decide (1 ≤ dstW v n) && decide (1 ≤ dstH v n) && fmtAllowed n fmt &&
  (if n < 4 then
    decide (w ≤ 4096) && decide (h ≤ 4096) && decide (ceilDiv w 8 ≤ dstW v n) && decide (dstW v n ≤ 8 * w) &&
    decide (ceilDiv h 8 ≤ dstH v n) && decide (dstH v n ≤ 8 * h)
   else decide (w ≤ 3840) && decide (h ≤ 2160)) &&
  (!twoPlanes fmt || (srcX v n % 2 == 0 && srcY v n % 2 == 0 && w % 2 == 0 && h % 2 == 0)) &&
  (twoPlanes fmt == (x.plane1 != 0)) && (flipExtents v n x).all (fun e => pinned s x.fn e.1 e.2 false)

/-! ### Events -/

/-- An event bit sets: the PF's vector follows (Table 14.5). -/
def dcEvent (s : State) (fd : Fld) : State := raiseCtrl (sf s R.DC_EVENT_STATUS fd 1) R.DC_EVENT_CTRL

def setDc (s : State) (fd : Fld) (v : Nat) : State := sf s R.DC_STATUS fd v

/-- The noticeboard is scanned out, or no longer. -/
def setNotice (s : State) (v : Bool) : State :=
  sendNotice (setDc (sf s R.CP_BOOT_STATUS F.CP_BOOT_STATUS.NB_ACTIVE (b2n v)) F.DC_STATUS.DP_ACTIVE (b2n v))

/-! ### The latch (R347, R363, R364) -/

/-- RW-B registers of the DC block. -/
def inDC (k : Nat) : Bool := decide (0x900000 ≤ k) && decide (k < 0xA00000)

/-- The values a latch takes: the last ones written. -/
def latchView (s : State) : View := fun k => if s.dirty.contains k then rd s k else inForce s k

/-- Outcome of a layer but for withholding (Table 14.2): 5 stands for SKIP_FRAME. -/
def layerOutcome (s : State) (n : Nat) : Nat :=
  let v := latchView s
  let l := getLayer s n
  let pol := lfld v (R.DC_LAYER_n_CTRL n) F.DC_LAYER_n_CTRL.POLICY
  let bad := match l.pend, l.bound with
    | some x, _ => !layerValid s v n x
    | none, some x => !layerValid s v n x
    | none, none => false
  if !layBit v n F.DC_LAYER_n_CTRL.EN then 0
  else if bad then 6
  else if l.pend.isSome then 1
  else if l.bound.isSome && !layBit v n F.DC_LAYER_n_CTRL.PER_FRAME then 2
  else if pol = 2 then 5
  else if pol = 1 || l.bound.isNone then 4
  else 3

/-- Bind a layer's pending flip. -/
def bindFlip (s : State) (n : Nat) : State :=
  let l := getLayer s n
  match l.pend with
  | some x => setLayer s n ⟨none, some x⟩
  | none => s

/-- The RW-B values of the block, latched for the next frame (R347). -/
def latchRegs (s : State) : State × Tab W32 :=
  let ks := s.dirty.filter inDC
  ({ s with dirty := s.dirty.filter (fun k => !inDC k) }, ks.foldl (fun t k => Tab.insert t k (rd s k)) [])

/-- Ask for the translations that the shown layers lack on host pages (R162). -/
def askLayer (s : State) (v : View) (n : Nat) : State :=
  match (getLayer s n).bound with
  | none => s
  | some x => (flipExtents v n x).foldl (fun s e => (piecesOf e.1 e.2).foldl (fun s p =>
      match xlate s 22 x.fn p.1 false false with
      | .ats a => sendAtsFor s 22 x.fn a 7 x.pos p.1 e.1 e.2 false
      | _ => s) s) s

/-- A latch. -/
def latch (s : State) : State :=
  let v := latchView s
  let raw := (List.range 8).map (layerOutcome s)
  let held := s.disp.cfg.wbEn && !s.disp.cfg.dpEn && raw.contains 5
  let fallback := !held && raw.contains 5
  let outs := (List.range 8).map (fun n =>
    let o := (raw[n]?).getD 0
    if held then (if o = 0 ∨ o = 5 then o else 7)
    else if o = 5 then (if (getLayer s n).bound.isSome then 3 else 4) else o)
  let flips := if held then [] else (List.range 8).filterMap (fun n => (getLayer s n).pend)
  let r := latchRegs s
  let s := if held then r.1 else (List.range 8).foldl bindFlip r.1
  let s := (List.range 8).foldl (fun s n =>
    if (outs[n]?).getD 0 = 6 then dcEvent (logX s 0x0901 5 0xFF [BitVec.ofNat 8 n]) F.DC_EVENT_STATUS.INVALID else s) s
  let s := bumpBy s 0x900220 (outs.filter (fun o => o == 3 || o == 4 || o == 5)).length
  let s := traceEv s 40 5 0xFF none false (bytesLE 3 ((List.range 8).map (fun n => (outs[n]?).getD 0 * 8 ^ n)).sum)
  let s := (List.range 8).foldl (fun s n => askLayer s v n) s
  modDisp s (fun d => { d with latched := some ⟨outs, held, fallback, flips, r.2⟩ })

/-- LATCH: while the compositor is the source, once for a frame (R347, R349). A latch before the first frame of a new
configuration takes `WB_EN` and `DP_EN` from the one still in force (log entry 43). -/
def execLatch (s : State) : Out :=
  .next (if s.disp.cfg.source = 1 ∧ s.disp.latched = none then latch s else s)

/-! ### DISPLAY_CONFIG (R373 to R375) -/

/-- The link must train for a new configuration: `DP_EN`, `LANES` or `RATE` changed, or the link is down (R373). The noticeboard
counts as driving it at the sink's lanes and rate (log entry 117). -/
def needsTraining (d : Display) (c : DispCfg) : Bool :=
  (drive d c).isSome && (!d.linkUp || drive d c != drive d d.cfg || drive d c != some d.linkAt)

/-- The DISPLAY_CONFIG in progress ends, and its packet with it. -/
def cfgDone (s : State) (pos st : Nat) : State :=
  let s := modDisp s (fun d => { d with cfgCur := none })
  finishPkt (setDc s F.DC_STATUS.CONFIG_BUSY (b2n (!s.disp.cfgQ.isEmpty))) 0 pos st 0

/-- Send a host AUX request that waited for the device's own use of AUX (R369). -/
def auxGo (s : State) : State :=
  match s.disp.aux with
  | some r =>
    if r.sent || s.disp.train.isSome then s
    else { modDisp s (fun d => { d with aux := some { r with sent := true } }) with
           out := s.out ++ [.aux r.cmd r.addr r.mot r.len r.data] }
  | none => s

/-- Put a configuration in force. One that drives no link turns it off; a training under way for the one before goes on for
this one; and with the noticeboard and the link up, its page goes out. -/
def cfgInForce (s : State) (c : DispCfg) : State :=
  let s := modDisp s (fun d => { d with cfg := c, nextSlot := 0, frame := none })
  let s := modDisp s (fun d => if (drive d c).isNone then { d with linkUp := false, train := none }
    else if d.train.isSome then { d with train := wantsLink d } else d)
  let s := auxGo (setDc s F.DC_STATUS.SOURCE c.source)
  if c.source = 0 then setNotice s s.disp.linkUp else s

/-- The DISPLAY_CONFIG in progress goes on once no frame is in progress: it trains, or waits for the frame start. Source none
has no frame start and is in force at once (log entry 41). -/
def cfgProceed (s : State) (pos : Nat) (c : DispCfg) : State :=
  if needsTraining s.disp c then
    modDisp (setNotice s false) (fun d => { d with cfgCur := some (pos, .train), train := some .config, linkUp := false })
  else if c.source = 2 then cfgDone (cfgInForce (setNotice s false) c) pos St.DONE
  else modDisp s (fun d => { d with cfgCur := some (pos, .ready) })

/-- Begin waiting DISPLAY_CONFIGs in dispatch order, while none is in progress. Check 4: `DP_EN` needs HPD. -/
def cfgKick : Nat → State → State
  | 0, s => s
  | fuel + 1, s =>
    match s.disp.cfgCur, s.disp.cfgQ with
    | none, pos :: rest =>
      let s := modDisp s (fun d => { d with cfgQ := rest })
      match getPkt s 0 pos with
      | none => cfgKick fuel s
      | some p =>
        let c := cfgOf p
        if c.dpEn && !s.disp.hpd then cfgKick fuel (cfgDone s pos St.DISPLAY_NOT_READY)
        else
          let s := setDc (startPkt s 0 pos) F.DC_STATUS.CONFIG_BUSY 1
          if s.disp.frame.isSome then modDisp s (fun d => { d with cfgCur := some (pos, .waitEnd) })
          else cfgKick fuel (cfgProceed s pos c)
    | _, _ => s

def kickCfg (s : State) : State := cfgKick (s.disp.cfgQ.length + 1) s

/-- DISPLAY_CONFIG at dispatch: checks 1 to 3 (Table 4.11, R345, R370). -/
def dispDisplayConfig (s : State) (_f : Nat) (p : Packet) : State :=
  let c := cfgOf p
  let q (s : State) : State := kickCfg (modDisp s (fun d => { d with cfgQ := d.cfgQ ++ [p.pos] }))
  if c.source = 3 then refusePkt s 0 p.pos St.BAD_PARAM true
  else if c.source != 1 then q s
  else if !cfgRangeOk c || !cfgFits c then refusePkt s 0 p.pos St.BAD_PARAM true
  else
    let n := wbBuffers s * slotBytes c
    if c.wbEn && !pinned s 0 c.wbBase n true then refusePkt (touchPages s 0 c.wbBase n) 0 p.pos St.UNPINNED_OPERAND true
    else q (if c.wbEn then touchPages s 0 c.wbBase n else s)

/-- DISPLAY_CONFIG. -/
def execPktDisplayConfig (f pos : Nat) (s : State) : Out := .next (dispatchAs s f pos 0x41 dispDisplayConfig)

/-! ### LAYER_FLIP (Table 4.11, R351, R360, R361) -/

/-- The flip a packet carries. -/
def flipOf (f : Nat) (p : Packet) : Flip :=
  { fn := f, pos := p.pos, plane0 := p.addr 5, plane1 := p.addr 7, stride0 := (p.dw 9).toNat, stride1 := (p.dw 10).toNat }

/-- LAYER_FLIP at dispatch. The extents use the layer registers as they read; `OWNER` is the value in force (log entry 42). -/
def dispFlip (s : State) (f : Nat) (p : Packet) : State :=
  let n := p.bits 4 2 0
  let x := flipOf f p
  let v : View := rd s
  if (4 ≤ n && x.plane1 != 0) || (x.stride1 != 0 && x.plane1 == 0) || x.plane0 % 256 != 0 || x.plane1 % 256 != 0 ||
      x.stride0 % 64 != 0 || x.stride1 % 64 != 0 then refusePkt s f p.pos St.BAD_PARAM true
  else
    let ext := flipExtents v n x
    let ok := ext.all (fun e => pinned s f e.1 e.2 false)
    let s := ext.foldl (fun s e => touchPages s f e.1 e.2) s
    if !ok then refusePkt s f p.pos St.UNPINNED_OPERAND true
    else
      let s := startPkt s f p.pos
      if lfld (inForce s) (R.DC_LAYER_n_CTRL n) F.DC_LAYER_n_CTRL.OWNER != f then finishPkt s f p.pos St.NOT_PERMITTED 0
      else if (twoPlanes (layFmt v n) && x.plane1 == 0) || decide (x.stride0 < r0b v n) ||
          (x.plane1 != 0 && decide (x.stride1 < r0b v n)) then finishPkt s f p.pos St.BAD_PARAM 0
      else
        let l := getLayer s n
        let s := match l.pend with
          | some y => bump (finishPkt s y.fn y.pos St.SUPERSEDED 0) 0x900218
          | none => s
        setLayer s n { l with pend := some x }

/-- LAYER_FLIP. -/
def execPktLayerFlip (f pos : Nat) (s : State) : Out := .next (dispatchAs s f pos 0x40 dispFlip)

/-! ### Frame start (R347, R348, R373) -/

/-- The latched values take effect (R347). -/
def applyLatched (s : State) (r : LatchRes) : State :=
  { s with force := r.regs.foldl (fun t e => if e.2 = regReset e.1 then Tab.erase t e.1 else Tab.insert t e.1 e.2) s.force }

/-- The buffers bound to the layers. -/
def boundBufs (s : State) : List (Nat × Flip) := (List.range 8).filterMap (fun n => ((getLayer s n).bound).map (fun x => (n, x)))

/-- A frame of the compositor starts. One that no latch precedes takes its latch here; a latch taken before a DISPLAY_CONFIG made
another source the one in force is kept, and serves the compositor's first frame afterwards (log entry 43). -/
def startFrame (s : State) : State :=
  let s := if s.disp.latched.isNone then latch s else s
  match s.disp.latched with
  | none => s
  | some r =>
    let s := applyLatched s r
    let n := s.disp.count + 1
    let dp := s.disp.cfg.dpEn && s.disp.linkUp
    let fr : Frame := ⟨n, fineNow s, s.clk.epoch.toNat, dp, !s.disp.hpd, r, boundBufs s⟩
    let s := modDisp s (fun d => { d with count := n, latched := none, frame := some fr })
    let s := setDc (sf s R.CP_BOOT_STATUS F.CP_BOOT_STATUS.NB_ACTIVE 0) F.DC_STATUS.DP_ACTIVE (b2n dp)
    let s := wr (wr s R.DC_FRAME_COUNT_LO (BitVec.ofNat 32 n)) R.DC_FRAME_COUNT_HI (BitVec.ofNat 32 (n / 2 ^ 32))
    traceEv (bump s 0x900200) 41 5 0xFF none false (bytesLE 8 n)

/-- FRAME_START: a DISPLAY_CONFIG that is ready comes into force and completes (R123, R373); the compositor starts a frame. Output
stops while the link trains for a new configuration: no frame starts then. -/
def execFrameStart (s : State) : Out :=
  .next (match s.disp.cfgCur with
    | some (pos, .ready) =>
      match getPkt s 0 pos with
      | none => modDisp s (fun d => { d with cfgCur := none })
      | some p =>
        let c := cfgOf p
        let s := cfgInForce s c
        let s := if c.source = 1 then startFrame s else s
        kickCfg (cfgDone s pos St.DONE)
    | some (_, .train) => s
    | _ => if s.disp.cfg.source = 1 ∧ s.disp.frame = none then startFrame s else s)

/-! ### Samples (14.3) -/

/-- Arithmetic shift right. -/
def asr (x : Int) (k : Nat) : Int := x / ((2 ^ k : Nat) : Int)

/-- A byte of a plane as the compositor fetches it. -/
def dispByte (s : State) (x : Flip) (va : Nat) : Nat := (vaByte s 22 x.fn va).toNat

def dispLE (s : State) (x : Flip) (va n : Nat) : Nat := ((List.range n).map (fun i => dispByte s x (va + i) * 256 ^ i)).sum

/-- Component c (Y, Cb, Cr or R, G, B) of a video layer's source at a column and row of the plane that holds it, expanded to 10
bits. -/
def srcSample (s : State) (x : Flip) (fmt c col row : Nat) : Int :=
  let px := x.plane0 + row * x.stride0 + col * layBytes fmt
  let ch := x.plane1 + row * x.stride1
  let v : Nat := match fmt with
    | 0x10 => 4 * (if c = 0 then dispByte s x px else dispByte s x (ch + 2 * col + (c - 1)))
    | 0x11 => nbits (if c = 0 then dispLE s x px 2 else dispLE s x (ch + 4 * col + 2 * (c - 1)) 2) 15 6
    | 0x03 => nbits (dispLE s x px 4) (10 * c + 9) (10 * c)
    | 0x02 => 4 * dispByte s x (px + (2 - c))
    | _ => 4 * dispByte s x (px + c)
  (v : Int)

/-- Tap t at a phase of the horizontal table and of the vertical table (Table 14.9). -/
def hTap (s : State) (n p t : Nat) : Int :=
  let w := inForce s (0x908000 + 0x1000 * n + 16 * p + 4 * (t / 2))
  signedOf 12 (if t % 2 = 0 then fld w 11 0 else fld w 27 16)
def vTap (s : State) (n p t : Nat) : Int :=
  let w := inForce s (0x908400 + 0x1000 * n + 12 * p + 4 * (t / 2))
  signedOf 12 (if t % 2 = 0 then fld w 11 0 else fld w 27 16)

/-- Twice the position P of an output column or row (R353), in 2^-17 pixel. -/
def pos2 (src dst i : Nat) : Int := (2 * (i : Int) + 1) * ((src * 65536 / dst : Nat) : Int) - 65536

/-- Source index and phase of a doubled position `p` whose whole step is 2^k. -/
def posIndex (p : Int) (k : Nat) : Int := asr p k
def posPhase (p : Int) (k : Nat) : Nat := ((p % ((2 ^ k : Nat) : Int)) / ((2 ^ (k - 6) : Nat) : Int)).toNat

/-- One filter: the taps' products, rounded and clamped (R354). -/
def filterSum (taps : List (Int × Int)) : Int := clampInt 0 1023 (asr ((taps.map (fun t => t.1 * t.2)).sum + 512) 10)

/-- The nearest index inside a rectangle. -/
def nearest (len : Nat) (i : Int) : Nat := (clampInt 0 ((len : Int) - 1) i).toNat

/-- A scaled sample of component c at an output column and row. -/
def scaled (s : State) (v : View) (n : Nat) (x : Flip) (c i j : Nat) : Int :=
  let fmt := layFmt v n
  let chroma := twoPlanes fmt && decide (1 ≤ c)
  let w := if chroma then srcW v n / 2 else srcW v n
  let h := if chroma then srcH v n / 2 else srcH v n
  let x0 := if chroma then srcX v n / 2 else srcX v n
  let y0 := if chroma then srcY v n / 2 else srcY v n
  let px := pos2 (srcW v n) (dstW v n) i
  let py := pos2 (srcH v n) (dstH v n) j
  let kx := if chroma then 18 else 17
  let ky := if chroma then 18 else 17
  let py := if chroma then py - 65536 else py
  let line (row : Int) : Int :=
    filterSum ((List.range 8).map (fun t =>
      (hTap s n (posPhase px kx) t, srcSample s x fmt c (x0 + nearest w (posIndex px kx - 3 + (t : Int))) (y0 + nearest h row))))
  filterSum ((List.range 6).map (fun t => (vTap s n (posPhase py ky) t, line (posIndex py ky - 2 + (t : Int)))))

/-- The colour matrix (R355). -/
def csc (v : View) (n : Nat) (ins : List Int) : List Int :=
  let off (k i : Nat) : Int := signedOf 10 (nbits (v k).toNat (10 * i + 9) (10 * i))
  (List.range 3).map (fun i =>
    let sum := ((List.range 3).map (fun j =>
      signedOf 17 (lfld v (R.DC_LAYER_n_CSC_k n (3 * i + j)) F.DC_LAYER_n_CSC_k.M) *
        ((ins[j]?).getD 0 + off (R.DC_LAYER_n_CSC_IN_OFF n) j))).sum
    clampInt 0 1023 (asr (sum + 8192) 14 + off (R.DC_LAYER_n_CSC_OUT_OFF n) i))

/-! ### Composition (14.4) -/

/-- A 10-bit value of an unsigned normalised channel of n bits (R356). -/
def to10 (n v : Nat) : Nat := (v * 1023 + (2 ^ n - 1) / 2) / (2 ^ n - 1)

/-- A 10-bit value of an FP16 channel; a NaN gives 0. -/
def half10 (bits : Nat) : Nat :=
  match decodeNum 6 bits with
  | .nan => 0
  | .inf n => if n then 0 else 1023
  | .fin n m e => min 1023 (roundInt .rne false (if n then 0 else m * 1023) e).toNat

/-- A graphics layer's pixel at a column and row of its source rectangle: R, G, B, A. -/
def graphicsPx (s : State) (v : View) (n : Nat) (x : Flip) (i j : Nat) : List Nat :=
  let fmt := layFmt v n
  let va := x.plane0 + (srcY v n + j) * x.stride0 + (srcX v n + i) * layBytes fmt
  let w := dispLE s x va (layBytes fmt)
  match fmt with
  | 0x01 => [to10 8 (nbits w 7 0), to10 8 (nbits w 15 8), to10 8 (nbits w 23 16), to10 8 (nbits w 31 24)]
  | 0x02 => [to10 8 (nbits w 23 16), to10 8 (nbits w 15 8), to10 8 (nbits w 7 0), to10 8 (nbits w 31 24)]
  | 0x03 => [to10 10 (nbits w 9 0), to10 10 (nbits w 19 10), to10 10 (nbits w 29 20), to10 2 (nbits w 31 30)]
  | 0x04 => [half10 (nbits w 15 0), half10 (nbits w 31 16), half10 (nbits w 47 32), half10 (nbits w 63 48)]
  | _ =>
    let a := to10 8 (nbits w 7 0)
    let k := (v (R.DC_LAYER_n_CONST n)).toNat
    [(nbits k 9 0 * a + 511) / 1023, (nbits k 19 10 * a + 511) / 1023, (nbits k 29 20 * a + 511) / 1023, a]

/-- A layer's pixel at a column and row of its destination rectangle. -/
def layerPx (s : State) (v : View) (n : Nat) (x : Flip) (i j : Nat) : List Nat :=
  if n < 4 then
    let ins := [scaled s v n x 0 i j, scaled s v n x 1 i j, scaled s v n x 2 i j]
    (if layBit v n F.DC_LAYER_n_CTRL.CSC_EN then csc v n ins else ins).map Int.toNat ++ [1023]
  else graphicsPx s v n x i j

/-- One colour of a pixel. -/
def getN (l : List Nat) (k : Nat) : Nat := l[k]?.getD 0

/-- One layer over a pixel (R357). -/
def over_ (alpha : Nat) (c d : List Nat) : List Nat :=
  let sc (k : Nat) : Nat := (getN c k * alpha + 511) / 1023
  (List.range 3).map (fun k => min 1023 (sc k + (getN d k * (1023 - sc 3) + 511) / 1023))

/-- The layers a frame shows, with their buffers: outcomes 1, 2 and 3. -/
def shownLayers (fr : Frame) : List (Nat × Flip) :=
  fr.bufs.filter (fun l => [1, 2, 3].contains ((fr.latch.outcomes[l.1]?).getD 0))

/-- A pixel of the frame: R, G, B of 10 bits. `gone` tells on which lines a layer is transparent (R359). -/
def framePx (s : State) (shown : List (Nat × Flip)) (gone : Nat → Nat → Bool) (col row : Nat) : List Nat :=
  let v : View := inForce s
  let bg := (v R.DC_BG_COLOUR).toNat
  shown.foldl (fun d l =>
    let n := l.1
    if gone n row || col < dstX v n || row < dstY v n || dstX v n + dstW v n ≤ col || dstY v n + dstH v n ≤ row then d
    else over_ (lfld v (R.DC_LAYER_n_ALPHA n) F.DC_LAYER_n_ALPHA.ALPHA) (layerPx s v n l.2 (col - dstX v n) (row - dstY v n)) d)
    [nbits bg 9 0, nbits bg 19 10, nbits bg 29 20]

/-- A 10-bit value sent in 8 bits (R358). -/
def to8 (v : Nat) : Nat := (v * 255 + 511) / 1023

/-- The word of a pixel: 10 bits per component with alpha 3, or BGRA8 with alpha 255. -/
def px10 (d : List Nat) : Nat := (d[0]?).getD 0 + (d[1]?).getD 0 * 2 ^ 10 + (d[2]?).getD 0 * 2 ^ 20 + 3 * 2 ^ 30
def px8 (d : List Nat) : Nat := to8 ((d[2]?).getD 0) + to8 ((d[1]?).getD 0) * 2 ^ 8 + to8 ((d[0]?).getD 0) * 2 ^ 16 + 255 * 2 ^ 24

/-! ### Frame end (R366, R371, Table 14.4) -/

/-- A layer whose buffer cannot be fetched: a translation is awaited, or a page lies in a peer's memory (log entry 44). -/
def layerLate (s : State) (v : View) (n : Nat) (x : Flip) : Bool :=
  (flipExtents v n x).any (fun e => (piecesOf e.1 e.2).any (fun p =>
    match xlate s 22 x.fn p.1 false false with
    | .ats _ => true
    | .hold => true
    | .pod _ _ => true
    | _ => false))

/-- The lines of a layer that a frame reads pass through the shared cache, which they do not allocate in (R185, R187): plane by plane
in ascending rows (log entry 118). -/
def touchLayer (s : State) (v : View) (l : Nat × Flip) : State :=
  let n := l.1
  let x := l.2
  let w := srcW v n * layBytes (layFmt v n)
  let x0 := srcX v n * layBytes (layFmt v n)
  let s := (List.range (srcH v n)).foldl (fun s y => touchVA s 22 x.fn (x.plane0 + (srcY v n + y) * x.stride0 + x0) w false false) s
  if x.plane1 = 0 then s
  else (List.range (srcH v n / 2)).foldl (fun s y => touchVA s 22 x.fn (x.plane1 + (srcY v n / 2 + y) * x.stride1 + x0) w false false) s

/-- Display reads that find no valid entry are recorded, one record for each page (6.7, Table 17.6). -/
def noEntryRecs (s : State) (v : View) (l : Nat × Flip) : State :=
  (flipExtents v l.1 l.2).foldl (fun s e => (pagesOf e.1 e.2).foldl (fun s q =>
    match leafOf s 22 l.2.fn q with
    | .none => logX s 0x0302 5 l.2.fn (bytesLE 6 (max q e.1) ++ [0])
    | _ => s) s) s

/-- The doublewords of the frame status record. -/
def frameRecord (fr : Frame) (written : Bool) (under lines : Nat) : List Nat :=
  let flags := b2n fr.dpOut + b2n written * 2 + b2n fr.latch.withheld * 4 + b2n fr.hpdLost * 8 + b2n fr.latch.fallback * 16
  [fr.count % 2 ^ 32, fr.count / 2 ^ 32, fr.tick % 2 ^ 32, fr.tick / 2 ^ 32, fr.epoch + flags * 2 ^ 16,
   ((List.range 8).map (fun n => (fr.latch.outcomes[n]?).getD 0 * 8 ^ n)).sum, under + lines * 2 ^ 8, 0] ++
  (List.range 8).map (fun n => ((fr.bufs.find? (fun l => l.1 == n)).map (·.2.pos)).getD 0)

/-- Write back a frame and its record to the next slot (R371). -/
def writeBack (s : State) (rows : List (List (List Nat))) (recBytes : List Byte) : State :=
  let c := s.disp.cfg
  let base := c.wbBase + s.disp.nextSlot * slotBytes c
  let enc : List Nat → Nat := if rf s R.DC_WB_CTRL F.DC_WB_CTRL.FORMAT = 1 then px10 else px8
  let put (s : State) (va : Nat) (bs : List Byte) : State := writeVA (touchVA s 22 0 va bs.length true true) 22 0 va true bs
  let s := rows.zipIdx.foldl (fun s r => put s (base + r.2 * c.wbStride) ((r.1.map (fun d => bytesLE 4 (enc d))).flatten)) s
  let s := put s (base + c.wbStride * c.vAct) recBytes
  let s := sf s R.DC_WB_STATUS F.DC_WB_STATUS.LAST_SLOT s.disp.nextSlot
  bump (modDisp s (fun d => { d with nextSlot := (d.nextSlot + 1) % wbBuffers s })) 0x900208

/-- A frame ends. `underruns` lists layers and lines whose source lines were not fetched in time (R359). -/
def endFrame (underruns : List (Nat × Nat)) (s : State) (fr : Frame) : State :=
  let c := s.disp.cfg
  let v : View := inForce s
  let shown := shownLayers fr
  let late := shown.filter (fun l => layerLate s v l.1 l.2)
  let gone (n row : Nat) : Bool :=
    underruns.contains (n, row) || late.any (fun l => l.1 == n && decide (dstY v n ≤ row) && decide (row < dstY v n + dstH v n))
  let s := shown.foldl (fun s l => noEntryRecs s v l) s
  let s := (shown.filter (fun l => !late.contains l)).foldl (fun s l => touchLayer s v l) s
  let rows := (List.range c.vAct).map (fun y => (List.range c.hAct).map (fun x => framePx s shown gone x y))
  let hit := fun (n y : Nat) => shown.any (fun l => l.1 == n) && gone n y
  let badLines := (List.range c.vAct).filter (fun y => (List.range 8).any (fun n => hit n y))
  let under := ((List.range 8).map (fun n => if (List.range c.vAct).any (hit n) then 2 ^ n else 0)).sum
  let s := badLines.foldl (fun s y => (List.range 8).foldl (fun s n =>
    if hit n y then traceEv s 43 5 0xFF none false (bytesLE 1 n ++ bytesLE 2 y) else s) s) s
  let s := bumpBy s 0x900228 badLines.length
  let s := if badLines.isEmpty then s else dcEvent s F.DC_EVENT_STATUS.UNDERRUN
  let wb := c.wbEn && !fr.latch.withheld && !wedgedNow s
  let slot := s.disp.nextSlot
  let record := frameRecord fr wb under badLines.length
  let s := if fr.dpOut then { s with out := s.out ++ [.video fr.count c.bpc10 (rows.map (fun r => r.map (fun d =>
      if c.bpc10 then px10 d % 2 ^ 30 else px8 d % 2 ^ 24)))] } else s
  let s := if wb then writeBack s rows ((record.map (fun w => bytesLE 4 w)).flatten) else s
  let s := record.zipIdx.foldl (fun s w => wr s (R.DC_FRAME_STATUS_i w.2) (BitVec.ofNat 32 w.1)) s
  let s := if fr.latch.withheld then bump s 0x900210 else s
  let s := traceEv (dcEvent s F.DC_EVENT_STATUS.FRAME) 42 5 0xFF none false [BitVec.ofNat 8 slot, BitVec.ofNat 8 (b2n fr.latch.withheld)]
  let s := fr.latch.flips.foldl (fun s x => finishPkt s x.fn x.pos St.DONE fr.count) s
  modDisp s (fun d => { d with frame := none })

/-- FRAME_END: the last active line of the frame has been composed. -/
def execFrameEnd (underruns : List (Nat × Nat)) (s : State) : Out :=
  .next (match s.disp.frame with
    | none => s
    | some fr =>
      let s := raiseMet (endFrame underruns s fr)
      match s.disp.cfgCur with
      | some (pos, .waitEnd) =>
        match getPkt s 0 pos with
        | some p => kickCfg (cfgProceed s pos (cfgOf p))
        | none => modDisp s (fun d => { d with cfgCur := none })
      | _ => s)

/-! ### DisplayPort (R44, R45, R367 to R369, R374) -/

/-- A training ends: counted, and failures with it. -/
def countTraining (s : State) (ok : Bool) : State :=
  let s := bump s 0x900230
  if ok then s else bump s 0x900238

/-- Training starts for what should drive the link, if anything. -/
def retrain (s : State) : State := modDisp s Display.retrain

/-- HPD_UNPLUG (R368): main-link output stops, and goes on at a frame start after the link has been trained anew. -/
def execHpdUnplug (s : State) : Out :=
  .next (if !s.disp.hpd then s
    else
      let s := setDc (setNotice s false) F.DC_STATUS.HPD 0
      let s := modDisp s (fun d => { d with hpd := false, linkUp := false, train := if d.train = some .config then d.train else none,
                                            frame := d.frame.map (fun f => { f with hpdLost := true, dpOut := false }) })
      auxGo (dcEvent (traceEv s 44 5 0xFF none false [0]) F.DC_EVENT_STATUS.HPD_LOST))

/-- HPD_IRQ: the device reads the sink's link status, and retrains where it finds the link lost, be it down already (R368). A
training under way goes on. -/
def execHpdIrq (linkOk : Bool) (s : State) : Out :=
  .next (if linkOk || s.disp.train.isSome || !s.disp.hpd then s else retrain (setNotice s false))

/-- HPD_PLUG: `lanes` and `rate` are the highest the sink's DPCD allows (R44). -/
def execHpdPlug (lanes rate : Nat) (s : State) : Out :=
  .next (if s.disp.hpd then s
    else
      let s := setDc (modDisp s (fun d => { d with hpd := true, sink := (lanes, rate) })) F.DC_STATUS.HPD 1
      let s := traceEv s 44 5 0xFF none false [1]
      if s.disp.train = some .config then s else retrain s)

/-- The configuration that a training is for: the one of the DISPLAY_CONFIG in progress, else the one in force. -/
def trainedFor (s : State) (t : TrainFor) : DispCfg :=
  match t, s.disp.cfgCur with
  | .config, some (pos, _) => ((getPkt s 0 pos).map cfgOf).getD s.disp.cfg
  | _, _ => s.disp.cfg

/-- The end of a training. -/
def trainingEnds (ok : Bool) (t : TrainFor) (s : State) : State :=
  let at_ := if ok then (drive s.disp (trainedFor s t)).getD s.disp.linkAt else s.disp.linkAt
  let s := modDisp (countTraining s ok) (fun d => { d with train := none, linkUp := ok, linkAt := at_ })
  match t, s.disp.cfgCur with
  | .config, some (pos, _) =>
    if ok then modDisp s (fun d => { d with cfgCur := some (pos, .ready) })
    else kickCfg (retrain (cfgDone s pos St.DISPLAY_NOT_READY))
  | .notice, _ => if ok then setNotice s true else dcEvent s F.DC_EVENT_STATUS.TRAIN_FAIL
  | _, _ => if ok then s else dcEvent s F.DC_EVENT_STATUS.TRAIN_FAIL

/-- DP_TRAINING_DONE: none succeeds while HPD is low. -/
def execDpTrainingDone (ok : Bool) (s : State) : Out :=
  .next (match s.disp.train with
    | none => s
    | some t => auxGo (trainingEnds (ok && s.disp.hpd) t s))

/-! ### AUX (R369) -/

/-- A write of `DC_AUX_CTRL`: its fields, and a transaction where `START` is 1 and none is in progress or waiting. It waits while the
device itself uses AUX. -/
def auxStartIn (v : W32) (s : State) : State :=
  let s := (storeFields s R.DC_AUX_CTRL v false).1
  if !v.getLsbD 31 || rb s R.DC_AUX_STATUS F.DC_AUX_STATUS.BUSY then s
  else
    let n := rf s R.DC_AUX_CTRL F.DC_AUX_CTRL.LEN_M1 + 1
    let cmd := rf s R.DC_AUX_CTRL F.DC_AUX_CTRL.CMD
    let data := if cmd % 2 = 1 then [] else (((List.range 4).map (fun i => bytesLE 4 (rd s (R.DC_AUX_DATA_i i)).toNat)).flatten).take n
    let req : AuxReq := ⟨cmd, rf s R.DC_AUX_CTRL F.DC_AUX_CTRL.ADDR, rb s R.DC_AUX_CTRL F.DC_AUX_CTRL.MOT, n, data, false⟩
    auxGo (modDisp (sf s R.DC_AUX_STATUS F.DC_AUX_STATUS.BUSY 1) (fun d => { d with aux := some req }))

/-- AUX_START. -/
def execAuxStart (v : W32) (s : State) : Out := .next (tlp s (.auxStart v) (gate R.DC_AUX_CTRL (auxStartIn v)))

/-- AUX_DONE: the sink's reply to the request sent, 3 where none arrived, and the bytes of a read. -/
def execAuxDone (reply : Nat) (data : List Byte) (s : State) : Out :=
  .next (match s.disp.aux with
    | none => s
    | some r =>
      if !r.sent then s
      else
      let isRead := r.cmd % 2 == 1
      let bs := if isRead && reply % 4 == 0 then data.take r.len else []
      let s := modDisp s (fun d => { d with aux := none })
      let s := (List.range 4).foldl (fun s i =>
        let b := (bs.drop (4 * i)).take 4
        if b.isEmpty then s
        else wr s (R.DC_AUX_DATA_i i) (BitVec.ofNat 32 (ofBytesLE (b ++ (bytesLE 4 (rd s (R.DC_AUX_DATA_i i)).toNat).drop b.length)))) s
      let cnt := if reply % 4 != 0 then 0 else if isRead then bs.length else r.len
      let s := wr s R.DC_AUX_STATUS (BitVec.ofNat 32 (reply % 4 * 2 + cnt * 8))
      traceEv s 45 5 0xFF none false [BitVec.ofNat 8 (reply % 4)])

end Sys2Proof.Machine
end

