-- ==== Sys2Proof/Machine/Inval.lean ====
section
/-! DEFINITION. Invalidations, ATS and page request answers (6.5, 6.6), and the carve-out and ECC errors of the shared cache
(7.3 to 7.5). -/

namespace Sys2Proof.Machine

/-! ### Device invalidation (R171, R172) -/

/-- The range the invalidation registers name: function, all, first address, bytes (Table 6.8). -/
def invalRange (s : State) : Nat × Bool × Nat × Nat :=
  (rf s R.MT_INVAL_FN F.MT_INVAL_FN.FUNCTION, rb s R.MT_INVAL_FN F.MT_INVAL_FN.ALL,
   (rd s R.MT_INVAL_VA_LO).toNat + rf s R.MT_INVAL_VA_HI F.MT_INVAL_VA_HI.ADDR * 2 ^ 32,
   max 1 (rf s R.MT_INVAL_PAGES F.MT_INVAL_PAGES.COUNT) * 2 ^ 21)

/-- Whether an invalidation covers a range of a function. -/
def invalCovers (q : Nat × Bool × Nat × Nat) (f a n : Nat) : Bool :=
  f == q.1 && (q.2.1 || extentsMeet a n q.2.2.1 q.2.2.2)

/-- Drop the matching entries of the TLBs and the walk cache. -/
def dropLeaves (s : State) (q : Nat × Bool × Nat × Nat) : State :=
  let keep (l : List TlbEntry) : List TlbEntry := l.filter (fun t => !invalCovers q t.fn t.va (2 ^ t.log2))
  let clean (t : Tab (List TlbEntry)) : Tab (List TlbEntry) := (t.map (fun e => (e.1, keep e.2))).filter (fun e => !e.2.isEmpty)
  { s with xl := { s.xl with shared := clean s.xl.shared, local_ := clean s.xl.local_, walk := keep s.xl.walk } }

/-- A running job uses a page of the range: an extent checked at its start overlaps it (6.5). -/
def invalHeld (s : State) (q : Nat × Bool × Nat × Nat) : Bool :=
  s.tt.jobs.any (fun j => j.running && j.fn == q.1 &&
    match getProg s j.fn j.prog with
    | none => false
    | some g => q.2.1 || (startExtents g j).any (fun x => (pagesOf x.1 x.2.1).any (fun p => extentsMeet p (2 ^ 21) q.2.2.1 q.2.2.2)))

/-- An access issued with a dropped entry has not completed: a request to a peer is outstanding. -/
def invalBusy (s : State) (q : Nat × Bool × Nat × Nat) : Bool :=
  s.link.reqs.any (fun r => decide (r.type = 1 ∨ r.type = 2) && invalCovers q r.fn r.va r.len)

/-- A write of 1 to `MT_INVAL_CTRL.START`. -/
def invalidateIn (s : State) : State :=
  if s.xl.inval.isSome then writeReject s
  else
    let q := invalRange s
    let s := dropLeaves { s with xl := { s.xl with inval := some q } } q
    traceEv s 35 3 q.1 none false (bytesLE 1 q.1 ++ bytesLE 4 (q.2.2.2 / 2 ^ 21))

/-- INVALIDATE. -/
def execInvalidate (s : State) : Out :=
  .next (tlp s .invalidate (gate R.MT_INVAL_CTRL invalidateIn))

/-- INVALIDATION_COMPLETE: `BUSY` clears once both conditions of R171 hold. -/
def execInvalidationComplete (s : State) : Out :=
  .next (match s.xl.inval with
    | none => s
    | some q =>
      if invalHeld s q || invalBusy s q then s
      else traceEv { s with xl := { s.xl with inval := none } } 36 3 q.1 none false
        (bytesLE 1 q.1 ++ bytesLE 4 (q.2.2.2 / 2 ^ 21)))

/-! ### ATS invalidation (R163, R173) -/

/-- Untranslated host ranges that a running job of a function uses. -/
def jobHostRanges (s : State) (j : Job) : List (Nat × Nat) :=
  match getProg s j.fn j.prog with
  | none => []
  | some g => ((startExtents g j).map (fun x => (pagesOf x.1 x.2.1).filterMap (fun p =>
      match leafOf s 99 j.fn p with
      | .leaf e n => if leafTarget e = 1 then some (leafAddr e / 2 ^ n * 2 ^ n + p % 2 ^ n, 2 ^ 21) else none
      | _ => none))).flatten

/-- The running jobs of a function that use a page of a host range. -/
def atsUsers (s : State) (f a n : Nat) : List Nat :=
  (s.tt.jobs.filter (fun j => j.running && j.fn == f && (jobHostRanges s j).any (fun r => extentsMeet r.1 r.2 a n))).map (·.order)

/-- One of the jobs that hold an invalidation still runs. -/
def atsInUse (s : State) (q : AtsInval) : Bool := s.tt.jobs.any (fun j => j.running && q.jobs.contains j.order)

/-- Whether an ATC entry is covered by a range of its function. -/
def AtcEntry.within (t : AtcEntry) (f a n : Nat) : Bool := t.fn == f && extentsMeet t.addr (2 ^ t.log2) a n

/-- ATS_INVALIDATE_REQUEST: the entries are dropped, or, while running jobs use the range, kept for those jobs alone (R163, R173). A
request beyond the queue's depth, which the host may not send, is not taken (Table 6.4, log entry 105). -/
def execAtsInvalidateRequest (f addr log2 tag : Nat) (s : State) : Out :=
  .next (if invalidateQueueDepth ≤ s.xl.invals.length then s
    else
      let a := addr / 2 ^ log2 * 2 ^ log2
      let users := atsUsers s f a (2 ^ log2)
      let hold := !users.isEmpty
      let atc := if hold then s.xl.atc else s.xl.atc.filter (fun t => !t.within f a (2 ^ log2))
      let s := { s with xl := { s.xl with atc := atc, invals := s.xl.invals ++ [⟨f, a, log2, tag, hold, users⟩] } }
      if hold then traceEv s 37 2 f none false [1] else s)

/-- Transfers that an ended hold let go on. -/
def resumeHolds (s : State) : State :=
  [0, 1, 2, 3].foldl (fun s e =>
    match (getEng s e).running with
    | some x =>
      if x.phase == .waitAts && !s.xl.reqs.any (fun r => r.engine == e && r.fn == x.fn && r.pos == x.pos) then
        resumeXfer s e x false
      else s
    | none => s) s

/-- ATS_INVALIDATE_COMPLETION: sent once no running job uses the range; the entries go with it. -/
def execAtsInvalidateCompletion (tag : Nat) (s : State) : Out :=
  .next (match s.xl.invals.find? (fun q => q.tag == tag) with
    | none => s
    | some q =>
      if q.held && atsInUse s q then s
      else
        let s := { s with
          xl := { s.xl with invals := s.xl.invals.erase q, atc := s.xl.atc.filter (fun t => !t.within q.fn q.addr (2 ^ q.log2)) }
          out := s.out ++ [.atsInvalDone q.fn q.tag] }
        raiseMet (resumeHolds (if q.held then traceEv s 37 2 q.fn none false [0] else s)))

/-! ### Translation completions (R162, R168, Table 6.6) -/

/-- Put a translation into the ATC, 1,024 entries, the oldest leaving first. -/
def atcPut (s : State) (t : AtcEntry) : State :=
  let l := s.xl.atc.filter (fun u => !(u.fn == t.fn && u.addr == t.addr && u.log2 == t.log2)) ++ [t]
  { s with xl := { s.xl with atc := l.drop (l.length - 1024) } }

/-- What a transfer that waited for translations does once none is outstanding: a held one whose next page still grants too
little ends (Table 6.6), any other moves on, and a page that it asked for may be asked for again later. -/
def atsArrived (s : State) (e : Nat) (x : Xfer) : State :=
  if x.phase != .waitAts || s.xl.reqs.any (fun r => r.engine == e && r.fn == x.fn && r.pos == x.pos) then s
  else
    let wasHeld := (getEng s e).held.contains x
    let y := { x with phase := XferPhase.moving }
    match getPkt s x.fn x.pos with
    | none => s
    | some p =>
      let again (va n : Nat) (write : Bool) : Bool :=
        match xferAcc s (16 + e) y p va n write with
        | .again => true
        | _ => false
      let bad : Option (Nat × Bool) :=
        match nextMove s (16 + e) y p with
        | .copy a b n => if again a n false then some (a, false) else if again b n true then some (b, true) else none
        | .put b bs => if again b bs.length true then some (b, true) else none
        | .read a n => if again a n false then some (a, false) else none
        | _ => none
      match bad with
      | some (va, w) => if wasHeld then xferBlocked s e x p va 1 w .again else resumeXfer s e x false
      | none => resumeXfer (modXfer s e x (fun y => { y with asked := [] })) e x wasHeld

/-- Every engine looks at its waiting transfers. -/
def wakeXfers (s : State) : State :=
  [0, 1, 2, 3].foldl (fun s e => ((getEng s e).running.toList ++ (getEng s e).held).foldl (fun s x => atsArrived s e x) s) s

/-- A Translation Request failed: Unsupported Request, Completer Abort or completion timeout (R168, R594, Table 6.6). -/
def atsFailed (s : State) (r : AtsReq) : State :=
  if r.engine < 4 then
    match findXfer s r.engine r.fn r.pos, getPkt s r.fn r.pos with
    | some x, some p =>
      if x.phase == .failed then s else xferFails s r.engine x p St.TRANSLATION_TIMEOUT x.cursor r.va r.write
    | _, _ => s
  else if r.engine = 6 then functionFault s r.fn St.TRANSLATION_TIMEOUT r.pos
  else if r.engine = 7 then s
  else accessFault s r.fn r.va r.write St.TRANSLATION_TIMEOUT r.pos

/-- An outstanding request of a function still waits for the page of an address. -/
def AtsReq.awaits (r : AtsReq) (f a : Nat) : Bool := r.fn == f && r.left.contains (a / 4096 * 4096)

/-- The requests that wait for an address end. -/
def takeReqs (s : State) (f a : Nat) : List AtsReq × State :=
  (s.xl.reqs.filter (fun r => r.awaits f a), { s with xl := { s.xl with reqs := s.xl.reqs.filter (fun r => !r.awaits f a) } })

/-- A translation answers the pages of a function that it covers; a request all of whose pages are answered ends. -/
def answerReqs (s : State) (f a n : Nat) : State :=
  let answer (r : AtsReq) : AtsReq := { r with left := r.left.filter (fun p => !(decide (a ≤ p) && decide (p < a + 2 ^ n))) }
  { s with xl := { s.xl with
    reqs := (s.xl.reqs.map (fun r => if r.fn = f then answer r else r)).filter (fun r => !r.left.isEmpty) } }

/-- ATS_TRANSLATION_COMPLETION: one translation of a request's range (R162), or the end of the request without one. Work of jobs, of the
renderer and of the command processor that waited takes the entry at its next command. -/
def execAtsTranslationCompletion (f addr : Nat) (ok : Bool) (log2 target : Nat) (r w : Bool) (s : State) : Out :=
  .next (
    if !s.xl.reqs.any (fun q => q.awaits f addr) then s
    else if !ok then
      let q := takeReqs s f addr
      q.1.foldl atsFailed q.2
    else
      let n := max 12 log2
      let a := addr / 2 ^ n * 2 ^ n
      raiseMet (wakeXfers (atcPut (answerReqs s f a n) ⟨f, a, n, target / 2 ^ n * 2 ^ n, r, w⟩)))

/-- TRANSLATION_REQUEST_TIMEOUT. No completion timeout falls while it is disabled (Table 3.1). -/
def execTranslationRequestTimeout (f addr : Nat) (s : State) : Out :=
  .next (if s.pcie.ctoDisable then s
    else
      let q := takeReqs s f addr
      q.1.foldl atsFailed q.2)

/-! ### Page request answers (R178, R183) -/

/-- The group with an outstanding request under an index. -/
def findGroup (s : State) (index : Nat) : Option PrgGroup :=
  s.xl.groups.find? (fun g => g.index == index && (g.dead || !g.pages.isEmpty))

/-- Take a group away. -/
def dropGroup (s : State) (g : PrgGroup) : State := { s with xl := { s.xl with groups := s.xl.groups.erase g } }

/-- A group fails: its transfer ends (Table 6.6). -/
def groupFails (s : State) (g : PrgGroup) : State :=
  let s := bump32 s R.MT_PRI_FAILURES
  match findXfer s g.engine g.fn g.pos, getPkt s g.fn g.pos with
  | some x, some p => xferFails s g.engine x p St.PAGE_FAULT_UNRESOLVED x.cursor g.va g.write
  | _, _ => s

/-- A group succeeds: its transfer translates the pages afresh (R178). -/
def groupSucceeds (s : State) (g : PrgGroup) : State :=
  match findXfer s g.engine g.fn g.pos with
  | none => s
  | some x =>
    let asked := x.asked ++ g.pages
    let s := modXfer s g.engine x (fun y => { y with asked := asked })
    if !g.more.isEmpty then s
    else
      let s := { s with xl := { s.xl with
        atc := s.xl.atc.filter (fun t => !(t.fn == g.fn && asked.any (fun a => extentsMeet t.addr (2 ^ t.log2) a 4096))) } }
      let lo := asked.foldl min (asked.headD 0)
      let s := sendAts s g.fn lo (asked.foldl max 0 + 4096 - lo) g.engine g.pos g.va g.write
      modXfer s g.engine x (fun y => { y with phase := .waitAts })

/-- PRG_RESPONSE: `code` 0 is Success, 1 Invalid Request, 15 Response Failure. -/
def execPrgResponse (index code : Nat) (s : State) : Out :=
  .next (match findGroup s index with
    | none => bump32 s R.MT_PRI_FAILURES
    | some g =>
      let s := traceEv s 31 6 g.fn none false (bytesLE 1 g.engine ++ bytesLE 1 code)
      if g.dead then bump32 (dropGroup s g) R.MT_PRI_FAILURES
      else if code = 0 then
        let s := groupSucceeds s g
        let s := if g.more.isEmpty then dropGroup s g
          else { s with xl := { s.xl with groups := s.xl.groups.map (fun h => if h = g then { h with pages := [] } else h) } }
        pumpGroups s g.engine
      else pumpGroups (groupFails (dropGroup s g) g) g.engine)

/-- PRI_TIMEOUT: the group's timer expires; for a group already timed out or orphaned, its index is free again (R183). -/
def execPriTimeout (index : Nat) (s : State) : Out :=
  .next (match findGroup s index with
    | none => s
    | some g =>
      if g.dead then dropGroup s g
      else
        let s := { s with xl := { s.xl with groups := s.xl.groups.map (fun h => if h = g then { h with dead := true } else h) } }
        pumpGroups (groupFails s g) g.engine)

/-! ### The carve-out (R201, R202) -/

/-- The scratch carve-out is busy (R201). -/
def carveBusy (s : State) : Bool :=
  s.cache.transition.isSome || s.progs.any (fun g => decide (0 < g.scratch) || decide (0 < g.pencil))

/-- A write of `SC_CARVE`: accepted while the carve-out is not busy, it starts a transition. -/
def scCarveIn (who : Writer) (v : W32) (s : State) : State :=
  let busy := carveBusy s
  let s := storeReg s who R.SC_CARVE v busy
  if busy then s
  else
    let w := min 8 (rf s R.SC_CARVE F.SC_CARVE.SCRATCH_WAYS)
    { s with cache := { s.cache with transition := some (w, min w (rf s R.SC_CARVE F.SC_CARVE.PENCIL_WAYS)) } }

/-- SC_CARVE. -/
def execScCarve (v : W32) (s : State) : Out :=
  .next (tlp s (.scCarve v) (gate R.SC_CARVE (scCarveIn (.host 0) v)))

/-- CARVE_TRANSITION_DONE: ways that become scratch have been written back and invalidated, the new sizes hold, and scratch
is zero (R202). -/
def execCarveTransitionDone (s : State) : Out :=
  .next (match s.cache.transition with
    | none => s
    | some (w, p) =>
      let old := s.cache.wS
      let s := dropWays s (fun _ way => decide (old ≤ way) && decide (way < w))
      { s with cache := { s.cache with wS := w, wP := p, transition := none, scratch := [], undef := [] } })

/-! ### ECC errors (R188, R193, Table 20.2) -/

/-- CACHE_ECC_ERROR in a way of a set. A corrected error is counted. An uncorrectable one has a clean line fetched again; in a dirty
line or a scratch line it is a device-scope fault, and the line's 128 bytes are undefined. -/
def execCacheEccError (slice set : Nat) (e : WayError) (s : State) : Out :=
  .next (
    let way := e.way
    let fault (s : State) : State :=
      let detail := slice % 16 + set % 1024 * 2 ^ 4 + way % 16 * 2 ^ 14
      deviceFault s 1 7 detail 0
    if e.corrected then bump s 0x400138
    else if way < s.cache.wS then fault (undefScrLine s (way % 16 * 2 ^ 21 + set % 1024 * 2 ^ 11 + slice % 16 * 2 ^ 7))
    else match dirGet s slice set way with
      | none => s
      | some x =>
        if x.dirty then fault (writeL { s with freeCtr := s.freeCtr + 128 } (x.line * 128) (freeBytes s.freeCtr 128))
        else cacheFill (bump (dirSet s slice set way none) 0x400140) x.line false x.prefetched)

/-- MEMORY_ECC_ERROR at an address. A demand read, or the read before a partial-line write, that finds an uncorrectable error raises cause 2.
A prefetch fill that finds it is discarded and counted, and the line holds the error for the next demand read (R193). A corrected error is
counted. With inline ECC disabled nothing is detected. -/
def execMemoryEccError (addr : Nat) (error : MemoryError) (s : State) : Out :=
  .next (
    let l := addr / 128
    if !s.boot.ecc || decide (capBytes s ≤ addr) then s
    else match error with
      | .corrected => bump s 0xF00448
      | .prefetch =>
        let s := match dirFind s l with
          | some (w, x) => if x.prefetched then dirSet s (lineSlice l) (lineSet l) w none else s
          | none => s
        bump (setLineErr s l true) 0x400148
      | .demand => deviceFault (setLineErr s l true) 2 7 (memChannel addr) (nbits addr 37 7))

end Sys2Proof.Machine
end

