-- ==== Sys2Proof/Machine/Power.lean ====
section
/-! DEFINITION. Power states (chapter 19): POWER_REQUEST, the timeouts of a roll call, entry to Sleep and Deep Sleep, wakes. The
exit, which serves the host accesses it held, is in Exit. -/

namespace Sys2Proof.Machine

/-- Change the power state's record. -/
def modPwr (s : State) (g : Power → Power) : State := { s with pwr := g s.pwr }

/-! ### POWER_REQUEST (R125, R505, R514) -/

/-- POWER_REQUEST at dispatch. -/
def dispPower (s : State) (f : Nat) (p : Packet) : State :=
  let t := p.bits 4 2 0
  if 3 < t then refusePkt s f p.pos St.BAD_PARAM true
  else if t < 2 then finishPkt s f p.pos St.DONE 0
  else askRound (modPwr s (fun w => { w with reqs := w.reqs ++ [⟨p.pos, t, true, false⟩] })) t

/-- POWER_REQUEST. -/
def execPktPowerRequest (f pos : Nat) (s : State) : Out := .next (dispatchAs s f pos 0x71 dispPower)

/-! ### Timeouts of a roll call (R516, R517) -/

/-- ROLL_CALL_TIMEOUT: at the coordinator, a member has not answered. -/
def execRollCallTimeout (s : State) : Out :=
  .next (if !leadsRound s || held s then s
    else match s.pwr.waitFor with
      | [] => s
      | pod :: _ => serve (abortRound s 8 pod))

/-- VERDICT_TIMEOUT: a member that sent ACCEPT has heard no VERDICT: the round is aborted and WAKE goes to every member. Where no
wake source of its own has appeared, the code the WAKE carries is open (log entry 45). -/
def execVerdictTimeout (s : State) : Out :=
  .next (match s.pwr.round with
    | some (_, true) =>
      if leadsRound s || held s then s
      else
        let s' := if s.pwr.wake.isSome then s else { s with freeCtr := s.freeCtr + 1 }
        sendWakes (modPwr (bump s' 0xE00390) (fun w => { w with round := none, wake := none }))
          (s.pwr.wake.getD (Config.freeNat s.freeCtr))
    | _ => s)

/-- A request waits in the queue of this device, which coordinates: no ASK was sent for it (R514). -/
def queuedHere (s : State) (q : PwrReq) : Bool := isCoord s && s.pwr.asks.any (fun a => a.1 == s.boot.podId && a.2 == q.target)

/-- ASK_TIMEOUT: the oldest ask of this device has led to no VERDICT; the device that it asked may be lost, and this one the
coordinator since (R517, Case 19.3). -/
def execAskTimeout (s : State) : Out :=
  .next (if held s then s
    else match s.pwr.reqs.find? (fun q => q.asked && !q.committed && !queuedHere s q) with
      | some q => settleFn (failReq s q.target) 0
      | none => s)

/-! ### Wakes (R508, R510, R511) -/

/-- The source stands: source 4 needs an enabled attention source under `HR_EN`, source 5 `CASE_WAKE_EN`. -/
def sourceStands (s : State) (src : Nat) : Bool :=
  match src with
  | 4 => hrSources s != 0
  | 5 => rb s R.KA_CFG F.KA_CFG.CASE_WAKE_EN
  | _ => decide (src < 4)

/-- WAKE_SOURCE. -/
def execWakeSource (src : Nat) (s : State) : Out := .next (if s.boot.supplies && sourceStands s src then latchWake s src else s)

/-- LINK_ACTIVITY: the far end of a parked port resumes transmission. -/
def execLinkActivity (p : Nat) (s : State) : Out :=
  .next (if p < 3 && (getPort s p).parked then latchWake s 1 else s)

/-! ### Entry (R522, R525, Tables 19.5 and 19.6) -/

/-- The ports are ready to park: no training under way on a link in use, and nothing unacknowledged. -/
def portsQuiet (s : State) : Bool :=
  [0, 1, 2].all (fun p => portState s p != 4 && (getPort s p).replay.isEmpty)

/-- Entry may end: the controller port is idle (R441), and the ports are ready, or, in a forced entry, every discard is complete
(R536); a restart of R537 ends first. -/
def entryReady (s : State) (forced : Bool) : Bool :=
  s.mgmt.ctl.isNone && !islandRestarting s &&
  (if forced then (List.range (s.vfs + 1)).all (fun f => !discarding s f) else portsQuiet s)

/-- One port at entry: an up or standby port parks, a training one goes DOWN; a forced entry takes every port DOWN. -/
def parkPort (target : Nat) (forced : Bool) (s : State) (p : Nat) : State :=
  let st := portState s p
  if st = 0 then s
  else if forced || st == 2 then portDown s p 1
  else if st = 3 ∨ st = 5 then setPort s p { getPort s p with parked := true, savedEq := target == 3 }
  else s

/-- The power-state attention source at an entry: it does not itself wake the device (log entry 33). -/
def attnQuiet (s : State) (bit : Nat) : State :=
  let w := rd s R.MB_ATTENTION
  let s := if nbit w.toNat bit then s else modMgmt s (fun m => { m with hrNew := Nat.lor m.hrNew (2 ^ bit) })
  raiseCtrl (wr s R.MB_ATTENTION (setFld w bit bit 1)) R.MB_EVENT_CTRL

/-- Deep Sleep: every dirty line is written back, and the rail is off. -/
def deepEntry (s : State) : State :=
  let dirtyN := (s.cache.dir.filter (fun e => (e.2.map (·.dirty)).getD false)).length
  let s := bumpBy s 0x400110 dirtyN
  let s := { s with cache := { s.cache with dir := s.cache.dir.map (fun e => (e.1, e.2.map (fun w => { w with dirty := false }))) } }
  setChosen (setVr (modRail s (fun r => { r with ackMv := 0 })) 0) 0

/-- The state is reached: the fine tick stops and joins H (R473), every island but
keep-alive stops (Table 19.1), and the entry is recorded. -/
def reached (s : State) (target : Nat) (forced : Bool) : State :=
  let s := logX s 0x1101 1 0xFF [BitVec.ofNat 8 target, BitVec.ofNat 8 (b2n forced)]
  let s := traceEv (bump s (if target = 3 then 0xE003B8 else 0xE003B0)) 54 1 0xFF none false [BitVec.ofNat 8 target, 0]
  let s := attnQuiet s 7
  { s with
    islands := [2, 3, 4, 5, 6, 7].map (fun i => (i, .stopped))
    care := { s.care with hwm := max s.care.hwm (fineNow s) }
    clk := { s.clk with fineRun := false } }

/-- The PCIe link enters L1, and then L1.2 where that is permitted (R71, Table 19.1). -/
def enterL1 (s : State) : State :=
  if !s.pcie.aspmL1 then s
  else
    let s := modPcie { s with out := s.out ++ [.linkPm .l1] } (fun c => { c with link := .l1 })
    if s.pcie.aspmL12 then modPcie { s with out := s.out ++ [.linkPm .l12] } (fun c => { c with link := .l12 }) else s

/-- Sleep or Deep Sleep is reached: the latency is reported (R72), and the link enters L1. A latched wake starts the exit at once
(R510). -/
def sleepReached (s : State) (target : Nat) (forced : Bool) : State :=
  let s := stopClusters ([0, 1, 2].foldl (parkPort target forced) s)
  let s := reached (if target = 3 then deepEntry s else s) target forced
  let s := enterL1 (sendLtr (modPwr s (fun w => { w with phase := .asleep target forced })))
  let s := if target = 3 then s else modRail s (fun r => { r with ackMv := railTarget s })
  match s.pwr.wake with
  | some src => modPwr s (fun w => { w with phase := .exiting target src true forced, wake := none, exitFrom := s.clk.now })
  | none => s

/-- SLEEP_ENTRY_DONE. -/
def execSleepEntryDone (s : State) : Out :=
  .next (match s.pwr.phase with
    | .entering t forced => if entryReady s forced then sleepReached s t forced else s
    | _ => s)

end Sys2Proof.Machine
end

