-- ==== Sys2Proof/Machine/Sha.lean ====
section
/-! DEFINITION. SHA-256 (FIPS 180-4), which the digest check of a configuration image uses (R51). Its constants are computed from
what FIPS 180-4 says they are: the first 32 fraction bits of square and cube roots of the first primes. -/

namespace Sys2Proof.Machine.Sha

/-- The largest r below 2^bits with r^e ≤ n, found bit by bit from a start value. -/
def rootFrom (e n : Nat) : Nat → Nat → Nat
  | 0, r => r
  | bits + 1, r => rootFrom e n bits (if (r + 2 ^ bits) ^ e ≤ n then r + 2 ^ bits else r)

/-- The first 32 fraction bits of the e-th root of a number below 512. -/
def rootFraction (e p : Nat) : W32 := BitVec.ofNat 32 (rootFrom e (p * 2 ^ (32 * e)) 38 0)

/-- Primes below a bound. -/
def primesBelow (n : Nat) : List Nat :=
  (List.range n).filter (fun p => decide (2 ≤ p) && (List.range p).all (fun d => decide (d < 2) || p % d != 0))

/-- The constant of each of the 64 rounds: cube roots of the first 64 primes. -/
def roundConstants : List W32 := (primesBelow 312).map (rootFraction 3)

/-- The eight words chained from block to block, which a round also works on. -/
structure Chain where
  a : W32
  b : W32
  c : W32
  d : W32
  e : W32
  f : W32
  g : W32
  h : W32
  deriving DecidableEq, Repr

/-- The first chain: square roots of the first eight primes. -/
def Chain.first : Chain :=
  let r := rootFraction 2
  ⟨r 2, r 3, r 5, r 7, r 11, r 13, r 17, r 19⟩

/-- The exclusive or of a word turned right by several counts. -/
def turned (counts : List Nat) (x : W32) : W32 := counts.foldl (fun acc n => acc ^^^ x.rotateRight n) 0

/-- Bit by bit, the value held by at least two of three words. -/
def majority (x y z : W32) : W32 := (x &&& (y ||| z)) ||| (y &&& z)

/-- Bit by bit, y where the selector holds 1 and z where it holds 0. -/
def choose (sel y z : W32) : W32 := z ^^^ (sel &&& (y ^^^ z))

/-- One round with the sum of its constant and its message word. -/
def Chain.round (v : Chain) (kw : W32) : Chain :=
  let into := v.h + turned [6, 11, 25] v.e + choose v.e v.f v.g + kw
  { v with
    a := into + turned [2, 13, 22] v.a + majority v.a v.b v.c
    b := v.a, c := v.b, d := v.c, e := v.d + into, f := v.e, g := v.f, h := v.g }

/-- Word-wise sum of two chains. -/
def Chain.plus (v w : Chain) : Chain :=
  ⟨v.a + w.a, v.b + w.b, v.c + w.c, v.d + w.d, v.e + w.e, v.f + w.f, v.g + w.g, v.h + w.h⟩

/-- The message schedule as a window of sixteen words: the first leaves, and the next comes in at the end. -/
def slide (win : List W32) : List W32 :=
  let at_ (i : Nat) : W32 := (win[i]?).getD 0
  let near := turned [17, 19] (at_ 14) ^^^ (at_ 14 >>> 10)
  let far := turned [7, 18] (at_ 1) ^^^ (at_ 1 >>> 3)
  win.tail ++ [at_ 0 + far + at_ 9 + near]

/-- The rounds of one block: each takes the window's first word. -/
def rounds : List W32 → List W32 → Chain → Chain
  | [], _, v => v
  | k :: ks, win, v => rounds ks (slide win) (v.round (k + win.headD 0))

/-- A number's bytes with the most significant first. -/
def bigEndian (n v : Nat) : List Byte := (bytesLE n v).reverse

/-- The sixteen words of a block, read with the most significant byte first. -/
def windowOf (bytes : List Byte) : List W32 :=
  (List.range 16).map (fun i => BitVec.ofNat 32 (ofBytesLE ((bytes.drop (4 * i)).take 4).reverse))

/-- n blocks in order. -/
def absorb : Nat → List Byte → Chain → Chain
  | 0, _, v => v
  | n + 1, bytes, v => absorb n (bytes.drop 64) (v.plus (rounds roundConstants (windowOf bytes) v))

/-- The message with its one bit, its zeros and its length in bits, a whole number of blocks. -/
def padded (msg : List Byte) : List Byte :=
  msg ++ 0x80 :: List.replicate ((119 - msg.length % 64) % 64) 0 ++ bigEndian 8 (8 * msg.length)

/-- The 32 bytes of the digest. -/
def digest (msg : List Byte) : List Byte :=
  let v := absorb ((padded msg).length / 64) (padded msg) Chain.first
  ([v.a, v.b, v.c, v.d, v.e, v.f, v.g, v.h].map (fun w => bigEndian 4 w.toNat)).flatten

end Sys2Proof.Machine.Sha
end

