-- ==== Sys2Proof/Machine/Startup.lean ====
section
/-! DEFINITION. Start-up (chapter 2): supplies, straps, restarts, the flash image and its checks, start-up complete, the
noticeboard, OTP programming, the staging buffer and the PF BAR2 aperture. The image's records are in ImageApply. -/

namespace Sys2Proof.Machine

def modBoot (s : State) (g : Boot → Boot) : State := { s with boot := g s.boot }

/-! ### Reset of everything but Caretaker (R41, R42, R554, R565) -/

def isKa (k : Nat) : Bool := decide (0xC00000 ≤ k) && decide (k < 0xD00000)
def isMb (k : Nat) : Bool := decide (0xB00000 ≤ k) && decide (k < 0xC00000)

/-- Straps, fuses and OTP programming under way stand in their registers. -/
def strapRegs (s : State) : State :=
  let s := sf s R.CP_BOOT_STATUS F.CP_BOOT_STATUS.POD_ID s.boot.podId
  let s := sf s R.CP_BOOT_STATUS F.CP_BOOT_STATUS.ECC_EN (b2n s.boot.ecc)
  let s := sf s R.CP_OTP_STATUS F.CP_OTP_STATUS.SLOT_PROGRAMMED (b2n s.boot.otpLocked)
  let s := sf s R.CP_OTP_STATUS F.CP_OTP_STATUS.PROG_BUSY (b2n s.boot.otpBusy)
  if !s.boot.otpLocked then s
  else (List.range 8).foldl (fun s i => wr s (R.CP_OTP_DIGEST_n i) (BitVec.ofNat 32 (ofBytesLE ((s.boot.otp.drop (4 * i)).take 4)))) s

/-- Every field but Caretaker's (and, at a restart, the MB block's) takes its reset value, and all work is gone. Local memory
holds undefined content (R590, log entry 1). -/
def clearDevice (s : State) (keepMb : Bool) : State :=
  let keep (k : Nat) : Bool := isKa k || (keepMb && isMb k)
  let z := State.reset
  strapRegs { s with
    regs := s.regs.filter (fun e => keep e.1)
    force := s.force.filter (fun e => keep e.1)
    dirty := s.dirty.filter keep
    hostLatch := s.hostLatch.filter (fun e => keep e.1)
    mgmtLatch := s.mgmtLatch.filter (fun e => keep e.1)
    ctr := s.ctr.filter (fun e => keep e.1)
    mem := [], ramGen := s.ramGen + 1
    fns := z.fns, tt := z.tt, progs := z.progs, xl := z.xl, cache := z.cache, eng := z.eng
    boot := { s.boot with
      cfgReady := false, trained := false, img := [], imgHost := false, imgPhase := .none, imgCursor := 0, imgRejected := 0
      applyPos := none, earlyWrites := 0, staging := [], nbItems := [], nbTexts := [], nbShown := [] }
    trace := z.trace, vfs := 0, priEn := false, priAlloc := 0, pcie := z.pcie, islands := z.islands, link := z.link
    waves := [], groups := [], tmsgs := [], shOps := [], rend := z.rend, disp := z.disp
    mgmt := if keepMb then s.mgmt else z.mgmt
    rail := { Rail.reset with ackMv := s.rail.ackMv }
    clusters := [], pwr := z.pwr, heldTlps := [], dispatched := 0, waiting := [] }

/-- OTP programming that loses its supplies leaves the slot and its fuse unknown (R69): free values. -/
def otpInterrupted (s : State) : State :=
  if !s.boot.otpBusy then s
  else modBoot { s with freeCtr := s.freeCtr + 33 } (fun b => { b with
    otp := freeBytes s.freeCtr 32, otpUnknown := true, otpBusy := false, otpLocked := Config.freeNat (s.freeCtr + 32) % 2 == 1 })

/-- SUPPLIES_VALID: straps are sampled and start-up begins (R32, R43). -/
def execSuppliesValid (podId : Nat) (ecc : Bool) (capGiB : Nat) (perst : Bool) (s : State) : Out :=
  .next (if s.boot.supplies || !s.care.alive then s
    else
      let fitted := if capGiB = 64 then 64 else if capGiB = 32 then 32 else 16
      let s := modBoot s (fun b => { b with supplies := true, podId := podId % 4, ecc := ecc, fitted := fitted, perst := perst })
      let s := clearDevice { s with jtag := ⟨0, 0⟩, clk := { s.clk with fineRun := false } } false
      setVr (modRail s (fun r => { r with ackMv := 0 })) 1)

/-- SUPPLIES_LOST: everything but Caretaker stops; work ends without reports (R565). -/
def execSuppliesLost (s : State) : Out :=
  .next (if !s.boot.supplies then s
    else
      let s := modBoot (otpInterrupted s) (fun b => { b with supplies := false })
      let s := clearDevice { s with clk := { s.clk with fineRun := false } } false
      modRail s (fun r => { r with ackMv := 0 }))

/-- A restart (R40): all work is discarded, what it may have written in host memory is undefined, and start-up recurs from t = 1.5 ms. The
fine tick counts on until it is aligned (R473). OTP programming under way goes on (R41). -/
def restart (s : State) : State :=
  if !s.boot.supplies then s
  else
    let s := (List.range (s.vfs + 1)).foldl stopWork s
    setVr (clearDevice s true) 1

/-- PERST_ASSERT: PERST# is asserted, or a hot reset arrives. -/
def execPerstAssert (hotReset : Bool) (s : State) : Out :=
  .next (restart (if hotReset then s else modBoot s (fun b => { b with perst := true })))

/-- The link's speed code and width: a link takes the widest of x1, x4, x8 and x16 that its lanes allow, at 2.5 to 32.0 GT/s (Table 3.1). -/
def linkSpeed (code : Nat) : Nat := min 5 (max 1 code)
def linkWidth (lanes : Nat) : Nat := if 16 ≤ lanes then 16 else if 8 ≤ lanes then 8 else if 4 ≤ lanes then 4 else 1

/-- CONFIG_SPACE_READY (R34, R567): PERST# has been released; the link's speed and lanes are known. -/
def execConfigSpaceReady (speed width : Nat) (s : State) : Out :=
  .next (if !s.boot.supplies || s.boot.cfgReady then s
    else
      let s := modBoot s (fun b => { b with cfgReady := true, perst := false })
      sf (sf s R.HI_PCIE_LINK F.HI_PCIE_LINK.SPEED (linkSpeed speed)) R.HI_PCIE_LINK F.HI_PCIE_LINK.WIDTH (linkWidth width))

/-! ### The fine tick (R473) -/

/-- The fine tick is aligned on a coarse-tick edge, and counts from there. -/
def alignFine (s : State) : State :=
  let h := if s.clk.fineRun then max s.care.hwm (fineNow s) else s.care.hwm
  let f := max (fineOfCoarse s.clk.coarse.toNat) (h + 1)
  { s with
    clk := { s.clk with fine := BitVec.ofNat 64 f, fineRun := true }
    care := { s.care with hwm := f } }

/-! ### The image: header, checks, outcomes (2.4, R51 to R60) -/

/-- A little-endian word of the image. -/
def imgWord (img : List Byte) (off : Nat) : Nat := ofBytesLE ((img.drop off).take 4)

def imgMagic (img : List Byte) : Bool := imgWord img 0 == 0x4854524B
def imgLen (img : List Byte) : Nat := imgWord img 8

/-- `IMAGE_LENGTH` is in order for the bytes available. -/
def imgLenOk (img : List Byte) (available : Nat) : Bool :=
  imgLen img % 4 == 0 && decide (64 ≤ imgLen img) && decide (imgLen img ≤ 1048576) && decide (imgLen img ≤ available)

/-- The versions the device implements (R48). -/
def versionOk (img : List Byte) : Bool := imgWord img 4 == 0x10000 || imgWord img 4 == 0x10001

/-- A record may write a register at this offset (R52); the MSI-X table is none (log entry 95). -/
def presetOk (off : Nat) : Bool :=
  off % 4 == 0 && decide (off < 0x1000000) && !(decide (0x10F000 ≤ off) && decide (off < 0x110000)) &&
  (regFields off).any (fun r => r.acc == .rwS || r.acc == .rwB || r.acc == .rwL || r.acc == .w1c || r.acc == .wo)

/-- A noticeboard item's word is in order. -/
def itemOk (w : Nat) : Bool :=
  decide (1 ≤ nbits w 7 0) && decide (nbits w 7 0 ≤ 8) && decide (nbits w 15 8 ≤ 29) && decide (nbits w 23 16 ≤ 79) &&
  nbits w 31 25 == 0

/-- A text record's first word is in order for its N (log entry 46). -/
def textOk (n w : Nat) : Bool :=
  decide (nbits w 7 0 ≤ 29) && decide (nbits w 15 8 ≤ 79) && decide (1 ≤ nbits w 23 16) && decide (nbits w 23 16 ≤ 80) &&
  decide (nbits w 15 8 + nbits w 23 16 ≤ 80) && nbits w 31 24 == 0 && n == 1 + ceilDiv (nbits w 23 16) 4

/-- One record, its words after DW0 given: type and N suit the version, and its operands are in order. -/
def recordOk (v11 : Bool) (type n : Nat) (ws : List Nat) : Bool :=
  let w0 := (ws[0]?).getD 0
  match type with
  | 0x01 => n == 2 && presetOk w0
  | 0x02 => n == 3 && presetOk w0
  | 0x03 => decide (2 ≤ n) && (List.range (n - 1)).all (fun i => presetOk (w0 + 4 * i))
  | 0x10 => v11 && decide (1 ≤ n) && decide (n ≤ 8) && ws.all itemOk
  | 0x11 => v11 && decide (2 ≤ n) && decide (n ≤ 21) && textOk n w0
  | _ => false

/-- The records of an image, as words: how many there are, END included, where all are in order and END is the last. -/
def countRecords (v11 : Bool) : Nat → List Nat → Nat → Option Nat
  | 0, _, _ => none
  | fuel + 1, ws, k =>
    match ws with
    | [] => none
    | w :: rest =>
      let type := nbits w 7 0
      let n := nbits w 15 8
      if nbits w 31 16 != 0 || decide (rest.length < n) then none
      else if type = 0xFF then (if n = 0 ∧ rest = [] then some (k + 1) else none)
      else if recordOk v11 type n (rest.take n) then countRecords v11 fuel (rest.drop n) (k + 1) else none

/-- Little-endian words of bytes. -/
def leWords : List Byte → List Nat
  | a :: b :: c :: d :: bs => ofBytesLE [a, b, c, d] :: leWords bs
  | _ => []

/-- The structure check (R52). -/
def structureOk (img : List Byte) : Bool :=
  let img := img.take (imgLen img)
  ((img.drop 0x14).take 44).all (· == 0) &&
  countRecords (imgWord img 4 == 0x10001) (imgLen img / 4) (leWords (img.drop 64)) 0 == some (imgWord img 12)

/-- The digest check: passed by every image while the slot is blank (R54). A slot left unknown holds free bytes. -/
def digestOk (s : State) (img : List Byte) : Bool :=
  !s.boot.otpLocked || Sha.digest (img.take (imgLen img)) == s.boot.otp

/-- The figures of a START record (Table 17.5). -/
def startDetail (s : State) : List Byte :=
  let img := s.boot.img
  bytesLE 1 (rf s R.CP_BOOT_STATUS F.CP_BOOT_STATUS.IMAGE_SOURCE) ++ bytesLE 1 (rf s R.CP_BOOT_STATUS F.CP_BOOT_STATUS.IMAGE_OUTCOME) ++
  bytesLE 4 (imgWord img 16) ++ bytesLE 2 (imgWord img 4 / 65536)

/-- `DONE` is set once memory is trained and the image is settled (R35); the ignored writes and the start are recorded (R36, R60), in
this order (log entry 94). -/
def tryDone (s : State) : State :=
  if bootDone s || !s.boot.trained || s.boot.imgPhase != .settled then s
  else
    let s := sf s R.CP_BOOT_STATUS F.CP_BOOT_STATUS.DONE 1
    let s := if s.boot.earlyWrites = 0 then s else logX s 0x0107 1 0xFF (bytesLE 4 s.boot.earlyWrites)
    logX s 0x0101 1 0xFF (startDetail s)

/-- The image is settled with a source and an outcome. -/
def settleImg (s : State) (source outcome : Nat) : State :=
  let s := sf (sf s R.CP_BOOT_STATUS F.CP_BOOT_STATUS.IMAGE_SOURCE source) R.CP_BOOT_STATUS F.CP_BOOT_STATUS.IMAGE_OUTCOME outcome
  tryDone (modBoot s (fun b => { b with imgPhase := .settled }))

def configStatus (s : State) (st : Nat) : State := sf s R.CP_CONFIG_RESULT F.CP_CONFIG_RESULT.STATUS st

/-- Reading the OTP digest slot fails (R59; when it is read is log entry 93). -/
def otpReadError (s : State) : State :=
  let s := sf s R.CP_OTP_STATUS F.CP_OTP_STATUS.READ_ERROR 1
  let s := configStatus (logX s 0x0106 1 0xFF [1]) St.DEVICE_FAULT
  settleImg (deviceFault s 7 1 0 0) (rf s R.CP_BOOT_STATUS F.CP_BOOT_STATUS.IMAGE_SOURCE) 6

/-- A flash image is refused (R58); the source reads flash (log entry 92). -/
def flashRefused (s : State) (event st outcome : Nat) : State :=
  let s := sf s R.CP_BOOT_STATUS F.CP_BOOT_STATUS.IMAGE_OUTCOME outcome
  settleImg (configStatus (logX s event 1 0xFF (startDetail s)) st) 1 outcome

/-- FLASH_READ: at t = 1.5 ms the fine tick is aligned and the ports begin training; the flash is read (Table 2.1, R56, R57).
`image` is what the flash holds. -/
def execFlashRead (sfdp quad : Bool) (image : List Byte) (s : State) : Out :=
  .next (if !s.boot.supplies || s.boot.imgPhase != .none then s
    else
      let s := alignFine s
      let s := [0, 1, 2].foldl (fun s p => if portState s p = 1 ∧ rb s (R.BL_LINK_n_CTRL p) F.BL_LINK_n_CTRL.EN then startTraining s p else s) s
      let s := sf s R.CP_BOOT_STATUS F.CP_BOOT_STATUS.FLASH_PRESENT (b2n sfdp)
      let s := sf s R.CP_BOOT_STATUS F.CP_BOOT_STATUS.FLASH_QUAD (b2n (sfdp && quad))
      if sfdp && imgMagic image then
        let s := sf s R.CP_BOOT_STATUS F.CP_BOOT_STATUS.IMAGE_SOURCE 1
        modBoot s (fun b => { b with img := image, imgHost := false, imgPhase := .loaded })
      else if s.boot.otpUnknown then otpReadError s
      else settleImg s 0 0)

/-- The image passes every check: its records are applied next. -/
def beginApply (s : State) : State :=
  modBoot s (fun b => { b with imgPhase := .applying, imgCursor := 64, imgRejected := 0 })

/-- The checks of a flash image. -/
def checkFlash (s : State) : State :=
  let img := s.boot.img
  if !imgLenOk img img.length then flashRefused s 0x0104 St.BAD_LENGTH 5
  else if !versionOk img then flashRefused s 0x0102 St.CONFIG_VERSION_REFUSED 3
  else if !digestOk s img then flashRefused s 0x0103 St.CONFIG_DIGEST_REFUSED 4
  else if !structureOk img then flashRefused s 0x0104 St.BAD_PARAM 5
  else beginApply s

/-- A CONFIG_APPLY ends with a status (Table 2.6, R63); a refusal leaves source and outcome as they were (log entry 92). -/
def applyEnds (s : State) (st rejected : Nat) : State :=
  let s := sf (configStatus s st) R.CP_CONFIG_RESULT F.CP_CONFIG_RESULT.REJECTED_COUNT rejected
  let s := logX s 0x0105 1 0xFF (bytesLE 2 st ++ bytesLE 2 rejected)
  let mine := s.boot.applyPos.bind (getPkt s 0)
  let s := modBoot s (fun b => { b with applyPos := none, imgPhase := .settled })
  match mine with
  | none => s
  | some p =>
    if p.phase = .complete then s
    else settleFn (if st = St.DONE then finishPkt s 0 p.pos st 0 else refusePkt s 0 p.pos st true) 0

/-- The checks of a host-supplied image (Table 2.6). -/
def checkHost (s : State) (bytes : Nat) : State :=
  let img := s.boot.img
  if bytes != imgLen img || !imgLenOk img bytes then applyEnds s St.BAD_LENGTH 0
  else if !imgMagic img then applyEnds s St.BAD_PARAM 0
  else if !versionOk img then applyEnds s St.CONFIG_VERSION_REFUSED 0
  else if !digestOk s img then applyEnds s St.CONFIG_DIGEST_REFUSED 0
  else if !structureOk img then applyEnds s St.BAD_PARAM 0
  else beginApply s

/-- IMAGE_CHECK_DONE (R51): `otpError` is a failed read of the OTP digest slot, which a slot left unknown always gives (R69). -/
def execImageCheckDone (otpError : Bool) (s : State) : Out :=
  .next (if s.boot.imgPhase != .loaded then s
    else if s.boot.imgHost then
      checkHost s (((s.boot.applyPos.bind (getPkt s 0)).map (fun p => (p.dw 4).toNat)).getD 0)
    else if otpError || s.boot.otpUnknown then otpReadError s
    else checkFlash s)

/-- CONFIG_APPLY at dispatch (R61, R62): the staged bytes are taken; IMAGE_CHECK_DONE judges them. -/
def dispConfigApply (s : State) (f : Nat) (p : Packet) : State :=
  let s := startPkt s f p.pos
  let s := modBoot s (fun b => { b with applyPos := some p.pos })
  if !rb s R.CP_STAGE_CTRL F.CP_STAGE_CTRL.STAGE_EN then applyEnds s St.BAD_PARAM 0
  else
    let n := min 1048576 (max 64 (p.dw 4).toNat)
    modBoot s (fun b => { b with img := (List.range n).map (Tab.get 0 b.staging), imgHost := true, imgPhase := .loaded })

/-- CONFIG_APPLY. -/
def execPktConfigApply (f pos : Nat) (s : State) : Out := .next (dispatchAs s f pos 0x70 dispConfigApply)

/-- MEMORY_TRAINED. -/
def execMemoryTrained (s : State) : Out :=
  .next (if !s.boot.supplies || s.boot.trained then s else tryDone (modBoot s (fun b => { b with trained := true })))

/-! ### The noticeboard (2.3) -/

/-- Every item is refreshed (R46), and shown where the noticeboard is scanned out. -/
def refreshNotice (s : State) : State := sendNotice (modBoot s (fun b => { b with nbShown := noticeNow s }))

/-- NOTICEBOARD_REFRESH. -/
def execNoticeboardRefresh (s : State) : Out := .next (if s.disp.nbStarted then refreshNotice s else s)

/-- NOTICEBOARD_START (R44, R45): the image is settled; `lanes` 0 means that no sink asserts HPD, else the sink's DPCD gave lanes
and rate, and the link trains. -/
def execNoticeboardStart (lanes rate : Nat) (trainOk : Bool) (s : State) : Out :=
  .next (if !s.boot.supplies || s.boot.imgPhase != .settled || s.disp.nbStarted then s
    else
      let s := refreshNotice (modDisp s (fun d => { d with nbStarted := true }))
      if lanes = 0 then s
      else
        let s := if s.disp.hpd then s else traceEv (setDc s F.DC_STATUS.HPD 1) 44 5 0xFF none false [1]
        let s := modDisp s (fun d => { d with hpd := true, sink := (lanes, rate) })
        if s.disp.cfg.source != 0 then s
        else
          let s := modDisp (countTraining s trainOk) (fun d => { d with train := none, linkUp := trainOk, linkAt := if trainOk then d.sink else d.linkAt })
          if trainOk then setNotice s true else dcEvent s F.DC_EVENT_STATUS.TRAIN_FAIL)

/-! ### OTP programming (R67 to R69) -/

/-- A write of `CP_OTP_PROG_CTRL`. -/
def otpProgramIn (v : W32) (s : State) : State :=
  let refuse (s : State) (why : Byte) : State := logX (sf s R.CP_OTP_STATUS F.CP_OTP_STATUS.PROG_FAIL 1) 0x0106 1 0xFF [why]
  if !v.getLsbD 0 then s
  else if s.boot.otpLocked then refuse s 2
  else if fld v 31 16 != 0x0A5C then refuse s 3
  else if s.boot.otpBusy then s
  else
    let data := ((List.range 8).map (fun i => bytesLE 4 (rd s (R.CP_OTP_PROG_DATA_n i)).toNat)).flatten
    modBoot (sf s R.CP_OTP_STATUS F.CP_OTP_STATUS.PROG_BUSY 1) (fun b => { b with otpBusy := true, otp := data })

/-- OTP_PROGRAM. -/
def execOtpProgram (v : W32) (s : State) : Out := .next (tlp s (.otpProgram v) (gate R.CP_OTP_PROG_CTRL (otpProgramIn v)))

/-- OTP_PROGRAM_DONE: the slot, then the lock fuse, are blown, so that its content is known again. A programming that failed leaves the
fuse unblown, so the slot blank, and sets `PROG_FAIL`; no record is made (log entry 91). -/
def execOtpProgramDone (ok : Bool) (s : State) : Out :=
  .next (if !s.boot.otpBusy then s
    else
      let s := sf s R.CP_OTP_STATUS F.CP_OTP_STATUS.PROG_BUSY 0
      let s := modBoot s (fun b => { b with otpBusy := false, otpLocked := ok, otpUnknown := b.otpUnknown && !ok })
      if ok then strapRegs s else sf s R.CP_OTP_STATUS F.CP_OTP_STATUS.PROG_FAIL 1)

/-! ### Staging buffer and aperture (R38, R61, R64, R76) -/

/-- A write of `STAGE_EN`. -/
def stageEnIn (v : Bool) (s : State) : State :=
  if s.boot.applyPos.isSome then writeReject s
  else if rb s R.CP_STAGE_CTRL F.CP_STAGE_CTRL.STAGE_EN = v then s
  else
    let s := if v then dropWays s (fun slice way => slice == 0 && decide (8 ≤ way)) else s
    sf (modBoot s (fun b => { b with staging := [] })) R.CP_STAGE_CTRL F.CP_STAGE_CTRL.STAGE_EN (b2n v)

/-- STAGE_EN. -/
def execStageEn (v : Bool) (s : State) : Out := .next (tlp s (.stageEn v) (gate R.CP_STAGE_CTRL (stageEnIn v)))

/-- Local address of aperture offset 0; bits [25:0] of the register are ignored (R77). -/
def apertureBase (s : State) : Nat :=
  ((rd s R.HI_APERTURE_BASE).toNat / 2 ^ 26 * 2 ^ 26) + (rd s R.HI_APERTURE_BASE_HI).toNat * 2 ^ 32

/-- A BAR2 offset reaches the staging buffer. -/
def staged (s : State) (off : Nat) : Bool := rb s R.CP_STAGE_CTRL F.CP_STAGE_CTRL.STAGE_EN && decide (off < 0x100000)

/-- One byte of a BAR2 read. -/
def bar2Byte (s : State) (off : Nat) : Byte :=
  if staged s off then Tab.get 0 s.boot.staging off
  else if apertureBase s + off < capBytes s then lget s (apertureBase s + off) else 0xFF

/-- One byte of a BAR2 write. -/
def bar2Put (s : State) (off : Nat) (b : Byte) : State :=
  if staged s off then (if s.boot.applyPos.isSome then s else modBoot s (fun t => { t with staging := Tab.set 0 t.staging off b }))
  else if apertureBase s + off < capBytes s then lset s (apertureBase s + off) b else s

/-- The cache lines of an access below the capacity (R184). -/
def bar2Touch (s : State) (off len : Nat) (write : Bool) : State :=
  let a := apertureBase s + off
  let n := min len (capBytes s - a)
  if staged s off then s else if write then touchWrite s true a n else touchRead s none true a n

/-- A read of PF BAR2 after `DONE`: the bytes, or, where it meets an uncorrectable error, a poisoned completion (20.1). -/
def bar2Read (s : State) (off n : Nat) : State :=
  let t := bar2Touch s off n false
  { t with out := t.out ++ [if t.cache.met = s.cache.met then .readData ((List.range n).map (fun i => bar2Byte s (off + i))) else .poisoned n] }

/-- A PF BAR2 access: `write` gives the bytes written, none where a byte enable is 0. -/
def bar2In (off len : Nat) (write : Option (List (Option Byte))) (s : State) : State :=
  if !s.boot.cfgReady then s
  else
    let off := off % 0x4000000
    let n := match write with
      | some bs => bs.length
      | none => len
    if !bootDone s || wedgedNow s then
      (if write.isNone then { s with out := s.out ++ [.readData (List.replicate n 0xFF)] } else s)
    else
      let beyond := (List.range n).any (fun i => !staged s (off + i) && decide (capBytes s ≤ apertureBase s + off + i))
      let blocked := write.isSome && s.boot.applyPos.isSome && (List.range n).any (fun i => staged s (off + i))
      let s := if beyond then writeReject s else s
      let s := if blocked then writeReject s else s
      match write with
      | none => bar2Read s off n
      | some bs =>
        let s := ((List.range n).zip bs).foldl (fun s e =>
          match e.2 with
          | some b => bar2Put s (off + e.1) b
          | none => s) s
        bar2Touch s off n true

/-- BAR2_ACCESS. -/
def execBar2Access (off len : Nat) (write : Option (List (Option Byte))) (s : State) : Out :=
  .next (tlp s (.bar2Access off len write) (fun s => raiseMet (bar2In off len write s)))

end Sys2Proof.Machine
end

