-- ==== Sys2Proof/Machine/Islands.lean ====
section
/-! DEFINITION. Islands and their crossings (1.3), the fabric timeout (R537), the trace unit's enable (R547) and the JTAG port
(R571, R572). -/

namespace Sys2Proof.Machine

/-! ### Islands (R21 to R23, R537) -/

/-- An island is clocked and serves entries, by ORIGIN code: Caretaker while it is alive, a cluster that is neither stopped nor
starting, any other while it runs or, having closed its inbound crossings, is still stopping (R21, R22). -/
def clocked (s : State) (i : Nat) : Bool :=
  let r := islandRun s i
  if i = 0 then s.care.alive
  else if 8 ≤ i ∧ i ≤ 23 then r == .running && clusterSt s (i - 8) == .idle
  else r == .running || r == .stopping

/-- FABRIC_TIMEOUT: `silent` has not acknowledged an entry of `sender` for 1 ms; the timer runs only while it runs (R23). The
crossings' entries to and from it are lost and the silent island restarts (R537). -/
def execFabricTimeout (silent sender : Nat) (s : State) : Out :=
  .next (if !s.boot.supplies || !clocked s silent then s
    else
      let s := { s with waiting := s.waiting.filter (fun i => !(islandsOf i).contains silent) }
      let s := if silent ≤ 1 then { s with log := { s.log with cross := Crossing.controlKeep.heldBack s.log.cross } } else s
      setIsland (deviceFault s 3 sender silent 0) silent .starting)

/-- WEDGED: the island stays silent after its restart (R537). -/
def execWedged (s : State) : Out :=
  .next (match s.islands.find? (fun e => e.2 == .starting) with
    | none => s
    | some e =>
      if wedgedNow s then s
      else logX (sf s R.FL_DEVICE_FAULT F.FL_DEVICE_FAULT.WEDGED 1) 0x0F06 1 0xFF [BitVec.ofNat 8 e.1])

/-! ### The trace unit (R547) -/

/-- The trace ring lies wholly below the mapped capacity. -/
def traceRingOk (s : State) : Bool :=
  let n := min 20 (max 10 (rf s R.FL_TRACE_SIZE F.FL_TRACE_SIZE.LOG2))
  decide ((rd s R.FL_TRACE_BASE_LO).toNat + rf s R.FL_TRACE_BASE_HI F.FL_TRACE_BASE_HI.ADDR * 2 ^ 32 + 32 * 2 ^ n ≤ capBytes s)

/-- A write of `FL_TRACE_CTRL`: its fields, and, where `EN` rises, the check of the ring. The trace unit is busy while `EN` is 1. -/
def traceEnableIn (who : Writer) (v : W32) (s : State) : State :=
  let was := rb s R.FL_TRACE_CTRL F.FL_TRACE_CTRL.EN
  let s := storeReg s who R.FL_TRACE_CTRL v was
  if !was && rb s R.FL_TRACE_CTRL F.FL_TRACE_CTRL.EN && !traceRingOk s then
    sf (sf s R.FL_TRACE_CTRL F.FL_TRACE_CTRL.EN 0) R.FL_TRACE_CTRL F.FL_TRACE_CTRL.ERR 1
  else s

/-- TRACE_ENABLE. -/
def execTraceEnable (v : W32) (s : State) : Out :=
  .next (tlp s (.traceEnable v) (gate R.FL_TRACE_CTRL (traceEnableIn (.host 0) v)))

/-! ### JTAG (R571, R572) -/

/-- An instruction reaches the TAP: while PERST# is high, EXTEST, CLAMP and HIGHZ load BYPASS; when one of the three leaves the
instruction register the device restarts. -/
def loadIr (s : State) (i : Nat) : State :=
  let j := if 2 ≤ i ∧ !s.boot.perst then 0 else i
  let old := s.jtag.ir
  let s := { s with jtag := { s.jtag with ir := j } }
  if 2 ≤ old ∧ j ≠ old then restart s else s

/-- BYPASS. -/
def execJtagBypass (s : State) : Out := .next (loadIr s 0)

/-- SAMPLE/PRELOAD: the boundary register takes the balls' levels, input, output and control cells in the order of
Table 22.3 (29 balls, 87 cells). -/
def execJtagSamplePreload (pins : Nat) (s : State) : Out :=
  .next (let s := loadIr s 1
         { s with jtag := { s.jtag with boundary := pins % 2 ^ 87 } })

/-- EXTEST; `leave`: it leaves the instruction register for BYPASS. -/
def execJtagExtest (leave : Bool) (s : State) : Out := .next (loadIr s (if leave then 0 else 2))

/-- CLAMP. -/
def execJtagClamp (s : State) : Out := .next (loadIr s 3)

/-- HIGHZ. -/
def execJtagHighz (s : State) : Out := .next (loadIr s 4)

end Sys2Proof.Machine
end

