-- ==== Sys2Proof/Machine/Query.lean ====
section
/-! DEFINITION. QUERY and COUNTER_SNAPSHOT (4.5.6), and the dispatch of a packet by its opcode (R108). -/

namespace Sys2Proof.Machine

/-- Sum of a figure over the programs of a function. -/
def progSum (s : State) (f : Nat) (g : Prog → Nat) : Nat := ((s.progs.filter (fun p => p.fn == f)).map g).sum

/-- The doublewords of a QUERY item (Table 4.14); missing ones are 0. -/
def queryWords (s : State) (f item id : Nat) : List Nat :=
  let q := (getFn s f).quota
  match item with
  | 1 => [0x1640 + s.boot.podId * 2 ^ 16 + b2n s.boot.ecc * 2 ^ 18, capBytes s / 2 ^ 20, f]
  | 2 => [q.clusters + fnClusters s f * 2 ^ 16, q.scratch, progSum s f (·.scratch), q.pencil, progSum s f (·.pencil), q.share,
          q.budgetCap, q.classLimit.toNat]
  | 3 =>
    match getProg s f id with
    | none => []
    | some p =>
      let mine := s.tt.jobs.filter (fun j => j.fn == f && j.prog == id)
      [1 + p.c * 2, p.slate, p.scratch, p.pencil, p.seqSlots, (p.seqs.filter (fun e => e.2.joined)).length,
       (mine.filter (fun j => !j.running)).length, (mine.filter (fun j => j.running)).length]
  | 4 => [fineNow s % 2 ^ 32, fineNow s / 2 ^ 32, s.clk.coarse.toNat % 2 ^ 32, s.clk.coarse.toNat / 2 ^ 32, s.clk.epoch.toNat]
  | 5 => [0, 1, 2].map (fun p => portState s p + rf s (R.BL_LINK_n_STATE p) F.BL_LINK_n_STATE.WIDTH * 8 + portPeer s p * 32)
  | _ => []

/-- The 32 bytes of a QUERY. -/
def queryBytes (s : State) (f item id : Nat) : List Byte :=
  let w := queryWords s f item id
  ((List.range 8).map (fun i => bytesLE 4 ((w[i]?).getD 0))).flatten

/-- The 144 bytes of a COUNTER_SNAPSHOT. -/
def snapshotBytes (s : State) (g : Nat) : List Byte :=
  bytesLE 8 (fineNow s) ++ bytesLE 2 s.clk.epoch.toNat ++ bytesLE 6 0 ++
  ((List.range 16).map (fun i => bytesLE 8 (ctrGet s (C.FN g (0x1000 + 8 * i))))).flatten

/-- Write a packet's result bytes: at once, or as requests to a peer whose answers complete the packet (log entry 47). A
Translation Request first holds the packet at dispatch. -/
def writeResult (s : State) (f : Nat) (p : Packet) (va : Nat) (bs : List Byte) : State :=
  let r : Range := ⟨va, bs.length, true⟩
  let s := touchPages s f va bs.length
  if !pinned s f va bs.length true then refusePkt s f p.pos St.UNPINNED_OPERAND true
  else match blockRanges s 20 f [r] with
    | .waits => holdPkt (askRanges s .packet 20 6 0 f p.pos [r]) f p.pos
    | .fails st a _ => rangesFault s 20 f [r] a true st p.pos
    | .none =>
      vaWrite (touchVA (startPkt s f p.pos) 20 f va bs.length true true) .packet 20 0 f p.pos
        ((List.range bs.length).map (va + ·) |>.zip bs)

/-- QUERY: an unknown item or a misaligned destination is refused, then R113. -/
def dispQuery (s : State) (f : Nat) (p : Packet) : State :=
  let item := p.bits 4 7 0
  let va := p.addr 5
  if decide (item < 1) || decide (5 < item) || va % 32 != 0 then refusePkt s f p.pos St.BAD_PARAM true
  else writeResult s f p va (queryBytes s f item (p.bits 7 11 0))

/-- COUNTER_SNAPSHOT: a VF reads its own counters only. -/
def dispSnapshot (s : State) (f : Nat) (p : Packet) : State :=
  let va := p.addr 4
  let g := p.bits 6 6 0
  if va % 16 != 0 then refusePkt s f p.pos St.BAD_PARAM true
  else if f != 0 && g != f then refusePkt s f p.pos St.NOT_PERMITTED true
  else writeResult s f p va (snapshotBytes s g)

/-- Each opcode's own checks and work (Table 4.3). -/
def dispatchOp (s : State) (f : Nat) (p : Packet) : State :=
  match p.opcode with
  | 0x00 => dispNop s f p
  | 0x01 => dispBarrier s f p
  | 0x02 => dispSignal s f p
  | 0x03 => dispWait s f p
  | 0x10 => dispLoad s f p
  | 0x11 => dispUnload s f p
  | 0x12 => dispJob s f p
  | 0x13 => dispJob s f p
  | 0x14 => dispStep s f p
  | 0x15 => dispLeave s f p
  | 0x16 => dispResolve s f p
  | 0x20 => dispCopy s f p
  | 0x21 => dispCopy s f p
  | 0x22 => dispCopy s f p
  | 0x23 => dispRegion s f p
  | 0x24 => dispCopy s f p
  | 0x30 => dispDraw s f p
  | 0x40 => dispFlip s f p
  | 0x41 => dispDisplayConfig s f p
  | 0x50 => dispLinkSend s f p
  | 0x60 => dispQuery s f p
  | 0x61 => dispSnapshot s f p
  | 0x70 => dispConfigApply s f p
  | 0x71 => dispPower s f p
  | 0x72 => dispQuota s f p
  | _ => s

/-- PACKET_DISPATCH: a packet that nothing holds is dispatched (R108, R109). -/
def execPacketDispatch (f pos : Nat) (s : State) : Out := .next (settleFn (raiseMet (dispatchWith s f pos dispatchOp)) f)

end Sys2Proof.Machine
end

