-- ==== Sys2Proof/Machine/RegView.lean ====
section
/-! DEFINITION. What a read of a register returns: the held word with the fields that show the hardware as it stands (RO-H,
Table 0.2), the counters, the MSI-X tables, and the latches of R589. -/

namespace Sys2Proof.Machine

/-! ### Fields computed from the hardware's state -/

/-- A mask of the numbers below n that satisfy a test. -/
def maskWhere (n : Nat) (p : Nat → Bool) : Nat := ((List.range n).map (fun i => if p i then 2 ^ i else 0)).sum

/-- A word built from its fields: (bits, value). -/
def withFields (w : W32) (l : List (Fld × Nat)) : W32 := l.foldl (fun w e => setFld w e.1.1 e.1.2 e.2) w

/-- The running job of a cluster, and the operator it runs there. -/
def clusterOp (s : State) (n : Nat) : Option (Job × Option (Nat × Nat)) :=
  (s.tt.jobs.find? (fun j => j.running && j.clusters.contains n)).map (fun j =>
    (j, (getProg s j.fn j.prog).bind (fun g =>
      (List.range (max 1 g.stages.length)).findSome? (fun st =>
        if stageRuns j g st && (opClusters j st).contains n then
          (nextOp j g st).map (fun o => (o, opFamily (opWords g o)))
        else none))))

/-- `TX_CLUSTER_n_STATUS` (Table 10.12). -/
def txStatus (s : State) (n : Nat) : W32 :=
  match clusterOp s n with
  | none => 0
  | some (j, none) => withFields 0 [(F.TX_CLUSTER_n_STATUS.FUNCTION, j.fn)]
  | some (j, some (o, fam)) =>
    withFields 0 [(F.TX_CLUSTER_n_STATUS.ARRAY_BUSY, b2n (famArray fam)),
      (F.TX_CLUSTER_n_STATUS.VECTOR_BUSY, b2n (!famArray fam && fam != 0x20)),
      (F.TX_CLUSTER_n_STATUS.OP, o), (F.TX_CLUSTER_n_STATUS.FUNCTION, j.fn)]

/-- `SH_CORE_k_STATUS` (Table 12.19). -/
def shStatus (s : State) (k : Nat) : W32 :=
  let ws := s.waves.filter (fun w => w.core == k)
  let gs := s.groups.filter (fun g => g.core == k)
  match gs with
  | [] => 0
  | g :: _ => withFields 0 [(F.SH_CORE_k_STATUS.WAVES, ws.length), (F.SH_CORE_k_STATUS.GROUPS, gs.length),
      (F.SH_CORE_k_STATUS.FUNCTION, g.fn), (F.SH_CORE_k_STATUS.OP, g.op)]

/-- `CE_ENG_n_STATUS` (Table 8.7). -/
def ceStatus (s : State) (n : Nat) : W32 :=
  let g := getEng s n
  withFields 0 [(F.CE_ENG_n_STATUS.QUEUED, g.queue.length), (F.CE_ENG_n_STATUS.RUNNING, b2n g.running.isSome),
    (F.CE_ENG_n_STATUS.HELD, g.held.length), (F.CE_ENG_n_STATUS.FUNCTION, (g.running.map (·.fn)).getD 0)]

/-- `TB_STATUS` (Table 13.6). A shading pass is within one command here. -/
def tbStatus (s : State) : W32 :=
  withFields 0 [(F.TB_STATUS.QUEUED, s.rend.queue.length), (F.TB_STATUS.BUSY, b2n s.rend.cur.isSome),
    (F.TB_STATUS.FUNCTION, (s.rend.cur.map (·.fn)).getD 0), (F.TB_STATUS.PASS, (s.rend.cur.map (·.pass)).getD 0)]

/-- `TT_QUEUED_c` (Table 5.8). -/
def ttQueued (s : State) (c : Nat) : W32 :=
  let l := s.tt.jobs.filter (fun j => j.cls == c)
  withFields 0 [(F.TT_QUEUED_c.JOBS, (l.filter (fun j => !j.running)).length), (F.TT_QUEUED_c.RUNNING, (l.filter (·.running)).length)]

/-- Claims waiting, and granules claimed, of all jobs (Table 11.3). -/
def pencilStatus (s : State) : W32 :=
  let rs := (s.tt.jobs.map (fun j => j.stages.map (·.2))).flatten
  withFields 0 [(F.SC_PENCIL_STATUS.GRANULES, (rs.map (fun r => r.granules.length)).sum),
    (F.SC_PENCIL_STATUS.WAITING, (rs.filter (·.claimWaiting)).length)]

/-- `BL_ROUTE` (Table 15.13, R412). -/
def routeWord (s : State) : W32 :=
  BitVec.ofNat 32 (((List.range 4).map (fun d =>
    (match route s d with
      | none => 0
      | some (p, none) => p + 32
      | some (p, some k) => p + k * 4 + 16 + 32) * 256 ^ d)).sum)

/-- A register of the DC block is written and its frame has not started (R11, R347). -/
def dcPending (s : State) (p : Nat → Bool) : Bool :=
  s.dirty.any (fun k => inDC k && p k) || ((s.disp.latched.map (fun r => r.regs.any (fun e => p e.1))).getD false)

/-- The registers of layer n. -/
def inLayer (n k : Nat) : Bool := decide (0x900400 + 0x80 * n ≤ k) && decide (k < 0x900480 + 0x80 * n)

/-- `HI_FN_STATUS` with `IDLE` as it stands. -/
def fnStatus (s : State) (f : Nat) : W32 := withFields (rd s (R.HI_FN_STATUS f)) [(F.HI_FN_STATUS.IDLE, b2n (fnIdle s f))]

/-! ### A read by block -/

def viewTT (s : State) (k : Nat) : W32 :=
  if k = R.TT_STANDBY then withFields (rd s k) [(F.TT_STANDBY.PENDING, b2n (rwbPending s inTT))]
  else if R.TT_QUEUED_c 0 ≤ k ∧ k ≤ R.TT_QUEUED_c 3 then ttQueued s ((k - R.TT_QUEUED_c 0) / 4)
  else if k = R.TT_CLUSTER_BUSY then
    withFields 0 [(F.TT_CLUSTER_BUSY.BUSY, maskWhere 16 (clusterRuns s)),
      (F.TT_CLUSTER_BUSY.IDLE_READY, maskWhere 16 (fun n => !clusterBusy s n && clusterSt s n == .idle))]
  else rd s k

def viewMT (s : State) (k : Nat) : W32 :=
  if k = R.MT_INVAL_STATUS then
    match s.xl.inval with
    | none => 0
    | some q => withFields 0 [(F.MT_INVAL_STATUS.BUSY, 1), (F.MT_INVAL_STATUS.HELD, b2n (invalHeld s q && !invalBusy s q))]
  else if k = R.MT_ATS_HELD then BitVec.ofNat 32 (s.xl.invals.filter (·.held)).length
  else rd s k

def viewSC (s : State) (k : Nat) : W32 :=
  if k = R.SC_CARVE_STATUS then
    withFields 0 [(F.SC_CARVE_STATUS.BUSY, b2n s.cache.transition.isSome), (F.SC_CARVE_STATUS.SCRATCH_WAYS, s.cache.wS),
      (F.SC_CARVE_STATUS.PENCIL_WAYS, s.cache.wP), (F.SC_CARVE_STATUS.BLOCKS_USED, (s.progs.map (fun g => g.blocks.length)).sum)]
  else if k = R.SC_PENCIL_STATUS then pencilStatus s
  else rd s k

def viewCE (s : State) (k : Nat) : W32 :=
  let n := (k - 0x500000) / 0x100
  if k = R.CE_ENG_n_CTRL n then withFields (rd s k) [(F.CE_ENG_n_CTRL.PENDING, b2n (s.dirty.contains k))]
  else if k = R.CE_ENG_n_STATUS n ∧ n < 4 then ceStatus s n
  else rd s k

def viewTX (s : State) (k : Nat) : W32 :=
  let n := (k - 0x600000) / 0x10000
  if k = R.TX_CLUSTER_n_CTRL n then withFields (rd s k) [(F.TX_CLUSTER_n_CTRL.PENDING, b2n (s.dirty.contains k))]
  else if k = R.TX_CLUSTER_n_STATUS n then txStatus s n
  else rd s k

def viewDC (s : State) (k : Nat) : W32 :=
  if k = R.DC_STATUS then
    withFields (rd s k) [(F.DC_STATUS.PENDING, b2n (dcPending s (fun k => !(decide (0x900400 ≤ k) && decide (k < 0x900800)))))]
  else
    let n := (k - 0x900400) / 0x80
    if k = R.DC_LAYER_n_CTRL n ∧ n < 8 ∧ 0x900400 ≤ k then
      withFields (rd s k) [(F.DC_LAYER_n_CTRL.PENDING, b2n (dcPending s (inLayer n)))]
    else rd s k

def viewBL (s : State) (k : Nat) : W32 :=
  if k = R.BL_ROUTE then routeWord s
  else if k = R.BL_POD then
    withFields 0 [(F.BL_POD.MEMBERS, maskWhere 4 (isMember s)), (F.BL_POD.INCARNATION, incarnation s)]
  else if k = R.BL_LINK_n_CTRL ((k - 0xA00000) / 0x100) then
    withFields (rd s k) [(F.BL_LINK_n_CTRL.PENDING, b2n (s.dirty.contains k))]
  else rd s k

/-- `IN_TRANSACTION` reads 0: no target transaction lasts from one command to the next. -/
def viewMB (s : State) (k : Nat) : W32 :=
  if k = R.MB_STATUS then withFields 0 [(F.MB_STATUS.ADDRESS, mbAddress s), (F.MB_STATUS.HR_PENDING, b2n (hrPending s))]
  else rd s k

def viewKA (s : State) (k : Nat) : W32 :=
  if k = R.KA_STATUS then
    withFields (rd s k) [(F.KA_STATUS.HARV_STATE, harvState s), (F.KA_STATUS.CHARGING, b2n (charging s))]
  else if k = R.KA_COARSE_LO then BitVec.ofNat 32 s.clk.coarse.toNat
  else if k = R.KA_COARSE_HI then BitVec.ofNat 32 (s.clk.coarse.toNat / 2 ^ 32)
  else if k = R.KA_EPOCH then withFields 0 [(F.KA_EPOCH.EPOCH, s.clk.epoch.toNat), (F.KA_EPOCH.INCARNATION, incarnation s)]
  else if k = R.KA_LOG_COUNT then
    withFields 0 [(F.KA_LOG_COUNT.COUNT, s.log.recs.length), (F.KA_LOG_COUNT.NEXT_SEQ, s.log.nextSeq)]
  else rd s k

def viewVR (s : State) (k : Nat) : W32 :=
  if k = R.VR_STATUS then
    withFields (rd s k) [(F.VR_STATUS.LOST, lossCount s), (F.VR_STATUS.SWITCHING, switchingMask s)]
  else if k = R.VR_VOLTAGE then withFields (rd s k) [(F.VR_VOLTAGE.TARGET_MV, railTarget s)]
  else rd s k

def viewPM (s : State) (k : Nat) : W32 :=
  let n := (k - 0xE00100) / 4
  if k = R.PM_CLUSTER_n_FREQ n ∧ 0xE00100 ≤ k ∧ n < 16 then withFields (rd s k) [(F.PM_CLUSTER_n_FREQ.LIMIT, limitCode s n)]
  else if k = R.PM_FREQ_HELD then BitVec.ofNat 32 (maskWhere 16 (freqHeld s))
  else if k = R.PM_CEILINGS then withFields (rd s k) [(F.PM_CEILINGS.LOSS, ceilL s)]
  else if k = R.PM_STATE then
    withFields (rd s k) [(F.PM_STATE.STATE, runState s), (F.PM_STATE.IN_ROLL_CALL, b2n s.pwr.round.isSome),
      (F.PM_STATE.COORDINATOR, coordinator s)]
  else if k = R.PM_CLUSTER_STOPPED then BitVec.ofNat 32 (maskWhere 16 (fun n => clusterSt s n == .stopped))
  else rd s k

/-- The MSI-X table and PBA of a function window (PCIe base specification): message address, data, vector control; then the
pending bits. -/
def viewMsix (s : State) (f o : Nat) : W32 :=
  let x := getFn s f
  let v := Tab.get Vector.reset x.msix ((o - 0x2000) / 16)
  if o = 0x3000 then BitVec.ofNat 32 x.pba
  else if 0x3000 < o then 0
  else match (o - 0x2000) % 16 / 4 with
    | 0 => BitVec.ofNat 32 v.addr
    | 1 => BitVec.ofNat 32 (v.addr / 2 ^ 32)
    | 2 => v.data
    | _ => BitVec.ofNat 32 (b2n v.masked)

/-- Offsets of the MSI-X table and the PBA in a function window (Table 21.2). -/
def inMsix (o : Nat) : Bool := (decide (0x2000 ≤ o) && decide (o < 0x2100)) || (decide (0x3000 ≤ o) && decide (o < 0x3008))

/-- What a function window shows. -/
def viewWindow (s : State) (k : Nat) : W32 :=
  let o := regOff k
  if inMsix o then viewMsix s (regFn k) o
  else if o = 0x504 then fnStatus s (regFn k)
  else rd s k

/-- `HI_FN_TABLE_f_STATUS`: a copy of `HI_FN_STATUS`, 0 while VF f is disabled. -/
def viewHI (s : State) (k : Nat) : W32 :=
  let f := (k - 0x80000) / 0x100
  if 0x80000 ≤ k ∧ k = R.HI_FN_TABLE_f_STATUS f ∧ f < 128 then (if fnExists s f then fnStatus s f else 0) else rd s k

/-- The value a read of a 4-aligned key returns, latches apart. Write-only fields hold 0. An offset that no table lists reads 0
(R552). -/
def readView (s : State) (k : Nat) : W32 :=
  if k < 0x10000 ∨ 0x1000000 ≤ k then viewWindow s k
  else match k / 0x100000 with
    | 0x0 => viewHI s k
    | 0x2 => viewTT s k
    | 0x3 => viewMT s k
    | 0x4 => viewSC s k
    | 0x5 => viewCE s k
    | 0x6 => viewTX s k
    | 0x7 => if 0x700000 ≤ k ∧ k < 0x700100 then shStatus s ((k - 0x700000) / 4) else rd s k
    | 0x8 => if k = R.TB_STATUS then tbStatus s else rd s k
    | 0x9 => viewDC s k
    | 0xA => viewBL s k
    | 0xB => viewMB s k
    | 0xC => viewKA s k
    | 0xD => viewVR s k
    | 0xE => viewPM s k
    | _ => rd s k

/-! ### Reads and their latches (R589) -/

/-- A latched value of the port. -/
def latchGet (s : State) (mgmt : Bool) (k : Nat) : W32 := Tab.get 0 (if mgmt then s.mgmtLatch else s.hostLatch) k

/-- Take values into the port's latches. -/
def latchPut (s : State) (mgmt : Bool) (l : List (Nat × W32)) : State :=
  let put (t : Tab W32) : Tab W32 := l.foldl (fun t e => Tab.set 0 t e.1 e.2) t
  if mgmt then { s with mgmtLatch := put s.mgmtLatch } else { s with hostLatch := put s.hostLatch }

/-- One 4-byte read of a 4-aligned key by the host or by the management port. -/
def readReg (s : State) (mgmt : Bool) (k : Nat) : State × W32 :=
  if isCounter k then
    if k % 8 = 0 then
      (latchPut s mgmt [(k + 4, BitVec.ofNat 32 (ctrGet s k / 2 ^ 32))], BitVec.ofNat 32 (ctrGet s k))
    else (s, latchGet s mgmt k)
  else if k = R.KA_COARSE_LO then (latchPut s mgmt [(R.KA_COARSE_HI, readView s R.KA_COARSE_HI)], readView s k)
  else if k = R.DC_FRAME_COUNT_LO then (latchPut s mgmt [(R.DC_FRAME_COUNT_HI, readView s R.DC_FRAME_COUNT_HI)], readView s k)
  else if k = R.DC_FRAME_STATUS_i 0 then
    (latchPut s mgmt ((List.range 15).map (fun i => (R.DC_FRAME_STATUS_i (i + 1), readView s (R.DC_FRAME_STATUS_i (i + 1))))),
      readView s k)
  else if k = R.KA_COARSE_HI ∨ k = R.DC_FRAME_COUNT_HI ∨
      (R.DC_FRAME_STATUS_i 1 ≤ k ∧ k ≤ R.DC_FRAME_STATUS_i 15) then (s, latchGet s mgmt k)
  else if k = R.KA_LOG_DATA_i 0 ∧ s.care.alive then
    let s := logLatch s
    (s, rd s k)
  else (s, readView s k)

/-- Reads of n consecutive registers from a 4-aligned key, in order, and their bytes. -/
def readRegs (s : State) (mgmt : Bool) (k : Nat) : Nat → State × List Byte
  | 0 => (s, [])
  | n + 1 =>
    let r := readReg s mgmt k
    let t := readRegs r.1 mgmt (k + 4) n
    (t.1, bytesLE 4 r.2.toNat ++ t.2)

end Sys2Proof.Machine
end

