-- ==== Sys2Proof/Machine/RegWrite.lean ====
section
/-! DEFINITION. Register accesses: a write of a register by the host, an image record or the management port, with everything
the register's own rows say (R7 to R13, R551 to R553), the host's reads, and REG_DATA (R432). -/

namespace Sys2Proof.Machine

/-! ### Function windows -/

/-- A write of the MSI-X table (PCIe base specification): unmasking a vector sends its pending message (R95). The PBA is
read-only. -/
def msixWrite (f o : Nat) (v : W32) (s : State) : State :=
  if 0x3000 ≤ o then s
  else
    let vec := (o - 0x2000) / 16
    let put (g : Vector → Vector) : State := modFn s f (fun x => { x with msix := Tab.modify Vector.reset x.msix vec g })
    match (o - 0x2000) % 16 / 4 with
    | 0 => put (fun x => { x with addr := x.addr / 2 ^ 32 * 2 ^ 32 + v.toNat })
    | 1 => put (fun x => { x with addr := x.addr % 2 ^ 32 + v.toNat * 2 ^ 32 })
    | 2 => put (fun x => { x with data := v })
    | _ => if v.getLsbD 0 then put (fun x => { x with masked := true }) else msixUnmaskIn f vec s

/-- A write of `HI_FN_CTRL`: one that sets `RING_RESET` has no effect through its other bits (R97); else `STOP`, then `RING_EN` (log
entry 48). -/
def fnCtrlWrite (f : Nat) (v : W32) (s : State) : State :=
  if v.getLsbD 2 then ringResetIn f s else ringEnIn f (v.getLsbD 0) (stopIn f (v.getLsbD 1) s)

/-- A write in a function window. The ring registers' block is the ring, stopped while `ENABLED` reads 0 (3.4). -/
def windowWrite (who : Writer) (k : Nat) (v : W32) (s : State) : State :=
  let f := regFn k
  let o := regOff k
  if !fnExists s f then s
  else if inMsix o then msixWrite f o v s
  else match o with
    | 0x100 => doorbellIn f v s
    | 0x210 => hiReplyHeadIn f v s
    | 0x500 => fnCtrlWrite f v s
    | _ => storeReg s who k v (fnEnabled s f)

/-! ### The blocks -/

def writeCP (who : Writer) (k : Nat) (v : W32) (s : State) : State :=
  if k = R.CP_STAGE_CTRL then stageEnIn (v.getLsbD 0) s
  else if k = R.CP_OTP_PROG_CTRL then otpProgramIn v s
  else storeReg s who k v false

/-- The root of function f is busy while its `ENABLED` reads 1, the MT_INVAL registers while `BUSY` reads 1 (chapter 6). -/
def writeMT (who : Writer) (k : Nat) (v : W32) (s : State) : State :=
  if k = R.MT_INVAL_CTRL then (if v.getLsbD 0 then invalidateIn s else s)
  else if k < R.MT_INVAL_FN then storeReg s who k v (fnEnabled s ((k - 0x300000) / 16))
  else storeReg s who k v s.xl.inval.isSome

/-- Cluster n is busy while it runs a job (chapter 10). -/
def writeTX (who : Writer) (k : Nat) (v : W32) (s : State) : State :=
  storeReg s who k v (clusterRuns s ((k - 0x600000) / 0x10000))

def writeDC (who : Writer) (k : Nat) (v : W32) (s : State) : State :=
  if k = R.DC_AUX_CTRL then auxStartIn v s else storeReg s who k v (s.disp.cfg.source == 1)

/-- `BL_LINK_n_CTRL`: its fields, then what `EN` and `RETRAIN` start (R381, R390). -/
def writeBL (who : Writer) (k : Nat) (v : W32) (s : State) : State :=
  let p := (k - 0xA00000) / 0x100
  let s := storeReg s who k v false
  if k = R.BL_LINK_n_CTRL p ∧ p < 3 then
    let s := linkEnIn p (v.getLsbD 0) s
    if v.getLsbD 2 then retrainIn p s else s
  else s

/-- The port and the controller are busy while a controller transaction is in progress (chapter 16). -/
def writeMB (who : Writer) (k : Nat) (v : W32) (s : State) : State :=
  if k = R.MB_HOST_ATTN then setHostAttentionIn v s
  else if k = R.MB_CTL_CTRL then controllerStartIn v s
  else storeReg s who k v s.mgmt.ctl.isSome

def writeKA (who : Writer) (k : Nat) (v : W32) (s : State) : State :=
  if k = R.KA_PROT then storeReg (if v.getLsbD 3 then ocLatchIn s else s) who k v false
  else
    let s := storeReg s who k v false
    if k = R.KA_CFG then focvTarget s else s

/-- VR and PM: the new value is judged before the next access (chapter 18). What a phase's retest finds is open (free value)
where no command carries it. -/
def writeRail (who : Writer) (k : Nat) (v : W32) (s : State) : State :=
  if k = R.VR_PHASE_RETRY then
    let r := freshNat s
    phaseRetryIn v (r.2 % 256) r.1
  else
    let t := storeReg s who k v false
    let t := if k = R.VR_CFG ∧ !rb t R.VR_CFG F.VR_CFG.SHED_EN ∧ vrState t = 2 then setChosen t (goodMask t) else t
    railMoved s t

def writeFL (who : Writer) (k : Nat) (v : W32) (s : State) : State :=
  if k = R.FL_TRACE_CTRL then traceEnableIn who v s
  else storeReg s who k v (rb s R.FL_TRACE_CTRL F.FL_TRACE_CTRL.EN)

/-- One 4-byte register write at a 4-aligned key. An offset that no table lists has no field, and nothing changes (R552). -/
def regWrite (who : Writer) (k : Nat) (v : W32) (s : State) : State :=
  if k < 0x10000 ∨ 0x1000000 ≤ k then windowWrite who k v s
  else match k / 0x100000 with
    | 0x1 => writeCP who k v s
    | 0x3 => writeMT who k v s
    | 0x4 => if k = R.SC_CARVE then scCarveIn who v s else storeReg s who k v false
    | 0x6 => writeTX who k v s
    | 0x9 => writeDC who k v s
    | 0xA => writeBL who k v s
    | 0xB => writeMB who k v s
    | 0xC => writeKA who k v s
    | 0xD => writeRail who k v s
    | 0xE => writeRail who k v s
    | 0xF => writeFL who k v s
    | _ => storeReg s who k v false

/-! ### Host accesses (R36, R75, R551) -/

/-- Key of a BAR0 offset of function f. -/
def barKey (f off : Nat) : Nat := fnWin f + off

/-- The access lies in the function's BAR0: 16 MiB, or a VF's 64 KiB window. -/
def inBar (f off len : Nat) : Bool := decide (off + len ≤ if f = 0 then 0x1000000 else 0x10000)

/-- One half of a host write. -/
def hostWriteWord (f k : Nat) (v : W32) (s : State) : State := gate k (regWrite (.host f) k v) s

/-- A host write: served where it is 4-byte aligned, 4 or 8 bytes long and has every byte enable set, the low half first, else
discarded (R551). -/
def registerWriteIn (f off len : Nat) (allBytes : Bool) (data : Nat) (s : State) : State :=
  if !fnExists s f || !allBytes || off % 4 != 0 || !(len == 4 || len == 8) || !inBar f off len then s
  else
    let s := hostWriteWord f (barKey f off) (BitVec.ofNat 32 data) s
    if len = 8 then hostWriteWord f (barKey f off + 4) (BitVec.ofNat 32 (data / 2 ^ 32)) s else s

/-- REGISTER_WRITE. -/
def execRegisterWrite (f off len : Nat) (allBytes : Bool) (data : Nat) (s : State) : Out :=
  .next (tlp s (.registerWrite f off len allBytes data) (registerWriteIn f off len allBytes data))

/-- A host read of any length counts as a read of every register it touches (R551). -/
def registerReadIn (f off len : Nat) (s : State) : State :=
  if !fnExists s f || !inBar f off len then s
  else
    let r := readRegs s false (barKey f (off / 4 * 4)) ((off % 4 + len + 3) / 4)
    { r.1 with out := r.1.out ++ [.readData ((r.2.drop (off % 4)).take len)] }

/-- LATCHING_READ. -/
def execLatchingRead (f off len : Nat) (s : State) : Out :=
  .next (tlp s (.latchingRead f off len) (registerReadIn f off len))

/-! ### REG_DATA (R432) -/

/-- REG_ADDR rises by 4 after each access, and wraps below 0x1000000. -/
def regAddrNext (s : State) : State := modMgmt s (fun m => { m with regAddr := (m.regAddr + 4) % 0x1000000 })

/-- Offsets that a REG_DATA write does not reach. -/
def regDataBarred (k : Nat) : Bool :=
  (decide (0xB00000 ≤ k) && decide (k < 0xC00000)) || (decide (0x10F000 ≤ k) && decide (k < 0x110000))

/-- A write of the register at REG_ADDR. -/
def regDataWrite (s : State) (d : List Byte) : State :=
  let k := s.mgmt.regAddr
  if regDataBarred k then writeReject s else gate k (regWrite .mgmt k (BitVec.ofNat 32 (ofBytesLE d))) s

/-- REG_DATA: a write is refused at its count byte while `REG_WR_EN` is 0. -/
def execMgmtRegData (t : MgmtXact) (s : State) : Out :=
  .next (if !answers s then s
    else if t.read then
      let r := readReg s true s.mgmt.regAddr
      mgmtBlock r.1 t 0x21 (bytesLE 4 r.2.toNat) regAddrNext
    else mgmtWrite s t 0x21 4 true (!rb s R.MB_CFG F.MB_CFG.REG_WR_EN) (fun _ => false)
      (fun s d => regAddrNext (regDataWrite s d)))

end Sys2Proof.Machine
end

