-- ==== Sys2Proof/Machine/ImageApply.lean ====
section
/-! DEFINITION. The records of a configuration image, applied in image order (2.4.2, R49, R55). Every check has passed (R51): a
record's command acts where the image's next record is of its type. -/

namespace Sys2Proof.Machine

/-- The word i of the record at the cursor; word 0 is its header. -/
def recWord (s : State) (i : Nat) : Nat := imgWord s.boot.img (s.boot.imgCursor + 4 * i)

def recType (s : State) : Nat := nbits (recWord s 0) 7 0
def recLen (s : State) : Nat := nbits (recWord s 0) 15 8

/-- Take the record at the cursor if it has the type, with its effect, and count it once if a write of it was rejected (R65). -/
def takeRec (type : Nat) (eff : State → State) (s : State) : State :=
  if s.boot.imgPhase != .applying || recType s != type then s
  else
    let t := eff s
    modBoot t (fun b => { b with
      imgCursor := s.boot.imgCursor + 4 * (recLen s + 1), imgRejected := min b.imgRejected (s.boot.imgRejected + 1) })

/-- An image record writes a register. -/
def imgPut (k v : Nat) (s : State) : State := regWrite .image k (BitVec.ofNat 32 v) s

/-- WRITE. -/
def execImgWrite (s : State) : Out := .next (takeRec 0x01 (fun s => imgPut (recWord s 1) (recWord s 2) s) s)

/-- The value that WRITE_MASKED writes: the register's bits outside the mask as a read gives them (log entry 49). -/
def maskedValue (s : State) (k mask v : Nat) : Nat :=
  Nat.lor (Nat.land (readView s k).toNat (0xFFFFFFFF - mask)) (Nat.land v mask)

/-- WRITE_MASKED. -/
def execImgWriteMasked (s : State) : Out :=
  .next (takeRec 0x02 (fun s => imgPut (recWord s 1) (maskedValue s (recWord s 1) (recWord s 2) (recWord s 3)) s) s)

/-- WRITE_SEQ. -/
def execImgWriteSeq (s : State) : Out :=
  .next (takeRec 0x03 (fun s =>
    let k := recWord s 1
    let vs := (List.range (recLen s - 1)).map (fun i => (k + 4 * i, recWord s (2 + i)))
    vs.foldl (fun s e => imgPut e.1 e.2 s) s) s)

/-- NOTICEBOARD_ITEM. -/
def execImgNoticeboardItem (s : State) : Out :=
  .next (takeRec 0x10 (fun s =>
    let ws := (List.range (recLen s)).map (fun i => recWord s (1 + i))
    sendNotice (modBoot s (fun b => { b with nbItems := ws.foldl (fun t w =>
      Tab.insert t (nbits w 7 0) (some ⟨nbits w 15 8, nbits w 23 16, nbit w 24⟩)) b.nbItems }))) s)

/-- NOTICEBOARD_TEXT. -/
def execImgNoticeboardText (s : State) : Out :=
  .next (takeRec 0x11 (fun s =>
    let w := recWord s 1
    let bs := (s.boot.img.drop (s.boot.imgCursor + 8)).take (nbits w 23 16)
    sendNotice (modBoot s (fun b => { b with nbTexts := b.nbTexts ++ [(nbits w 7 0, nbits w 15 8, bs)] }))) s)

/-- The image is in force: its serial and version, source and outcome, and `CP_CONFIG_RESULT` (R54, R63, R65). -/
def imageInForce (s : State) : State :=
  let img := s.boot.img
  let outcome := if s.boot.otpLocked then 1 else 2
  let s := wr s R.CP_IMAGE_SERIAL (BitVec.ofNat 32 (imgWord img 16))
  let s := wr s R.CP_IMAGE_VERSION (BitVec.ofNat 32 (imgWord img 4))
  let rejected := min 0xFFFF s.boot.imgRejected
  if s.boot.imgHost then
    let s := sf (sf s R.CP_BOOT_STATUS F.CP_BOOT_STATUS.IMAGE_SOURCE 2) R.CP_BOOT_STATUS F.CP_BOOT_STATUS.IMAGE_OUTCOME outcome
    applyEnds s St.DONE rejected
  else settleImg (sf (configStatus s St.DONE) R.CP_CONFIG_RESULT F.CP_CONFIG_RESULT.REJECTED_COUNT rejected) 1 outcome

/-- IMAGE_END. -/
def execImgEnd (s : State) : Out := .next (takeRec 0xFF imageInForce s)

end Sys2Proof.Machine
end

