-- ==== Sys2Proof/Machine/Exit.lean ====
section
/-! DEFINITION. The exit from Sleep and Deep Sleep (R493, R522, R523, R525, Tables 19.7 to 19.9), and the host accesses that were held
meanwhile (R509). -/

namespace Sys2Proof.Machine

/-! ### Held host accesses -/

/-- The effect of a host memory-request TLP on a device that runs: what its own row does once it is served. -/
def hostEffect (i : Instr) (s : State) : State :=
  match i with
  | .registerWrite f off len allBytes data => registerWriteIn f off len allBytes data s
  | .latchingRead f off len => registerReadIn f off len s
  | .ringEn f v => ringEnIn f v s
  | .stop f v => stopIn f v s
  | .ringReset f => ringResetIn f s
  | .doorbell f t => doorbellIn f t s
  | .hiReplyHead f h => hiReplyHeadIn f h s
  | .msixUnmask f vec => msixUnmaskIn f vec s
  | .invalidate => gate R.MT_INVAL_CTRL invalidateIn s
  | .scCarve v => gate R.SC_CARVE (scCarveIn (.host 0) v) s
  | .retrain p => gate (R.BL_LINK_n_CTRL p) (retrainIn p) s
  | .blLinkEn p v => gate (R.BL_LINK_n_CTRL p) (linkEnIn p v) s
  | .controllerStart v => gate R.MB_CTL_CTRL (controllerStartIn v) s
  | .setHostAttention v => gate R.MB_HOST_ATTN (setHostAttentionIn v) s
  | .phaseRetry v pass => gate R.VR_PHASE_RETRY (phaseRetryIn v pass) s
  | .ocLatch => gate R.KA_PROT ocLatchIn s
  | .kaLogDataRead => kaLogDataReadIn s
  | .auxStart v => gate R.DC_AUX_CTRL (auxStartIn v) s
  | .otpProgram v => gate R.CP_OTP_PROG_CTRL (otpProgramIn v) s
  | .stageEn v => gate R.CP_STAGE_CTRL (stageEnIn v) s
  | .bar2Access off len write => raiseMet (bar2In off len write s)
  | .traceEnable v => gate R.FL_TRACE_CTRL (traceEnableIn (.host 0) v) s
  | _ => s

/-- The held accesses are served, oldest first. -/
def serveHeld (s : State) : State := s.heldTlps.foldl (fun s i => hostEffect i s) { s with heldTlps := [] }

/-! ### Islands that start (R21, R537) -/

/-- The waiting accesses whose islands run are delivered, in order (R19, R21). -/
def deliver (s : State) : State :=
  (s.waiting.filter (reachable s)).foldl (fun s i => hostEffect i s) { s with waiting := s.waiting.filter (fun i => !reachable s i) }

/-- ISLAND_START_ON_ENTRY: the control island starts the stopped destination of a waiting entry, which is then delivered. A cluster
starts where a job holds it; in Sleep and Deep Sleep a wake comes first. An entry for an island that is already starting waits for
the start to end. -/
def execIslandStartOnEntry (island : Nat) (s : State) : Out :=
  .next (
    if 8 ≤ island ∧ island ≤ 23 then
      (if clusterSt s (island - 8) == .stopped && clusterBusy s (island - 8) then setCluster s (island - 8) .starting else s)
    else if sleeping s || islandRun s island != .stopped then s
    else deliver (setIsland s island .running))

/-- ISLAND_RESTART: the restart has succeeded, the discard proceeds (R532), and what waited for the island is delivered. -/
def execIslandRestart (s : State) : Out :=
  .next (if !islandRestarting s then s
    else
      deliver { s with
        islands := s.islands.filter (fun e => e.2 != .starting)
        fns := s.fns.map (fun e => (e.1, { e.2 with discard := e.2.discard.map (fun d => { d with waitRestart := false }) })) })

/-! ### The exit -/

/-- Lost phases are retested and junctions sampled (R492, R493). -/
def retest (s : State) (stillLost : Nat) (tHot16 : Int) (sensor : Nat) : State :=
  setTHot (phaseRetryIn 0xFF (255 - stillLost % 256) s) tHot16 sensor

/-- What a Deep Sleep has lost: cache lines, and the content of scratch (R504). -/
def deepLost (s : State) : State := { s with cache := { s.cache with dir := [], scratch := [], undef := [] } }

/-- The ports at the exit's end: a port still parked goes DOWN (R523); after a forced Sleep each enabled port trains afresh
(R525). -/
def portReturns (forced : Bool) (s : State) (p : Nat) : State :=
  if (getPort s p).parked then portDown s p 1
  else if forced && portState s p == 1 && rb s (R.BL_LINK_n_CTRL p) F.BL_LINK_n_CTRL.EN then startTraining s p
  else s

/-- Clocks, rail and ports are back (R473, R482, Tables 19.7 and 19.8). -/
def powerBack (old s : State) (left : Nat) (forced : Bool) : State :=
  let s := regulate { alignFine s with islands := [] } 750
  let s := [0, 1, 2].foldl (portReturns forced) (if left = 3 then deepLost s else s)
  railMoved old s

/-- Run again: `PM_LAST_WAKE`, STATE_EXIT, the POWER attention source and trace (Tables 19.9, 19.10, R450), and WAKE to the other members where the
source was not a message or link activity (R521). -/
def backInRun (s : State) (left src : Nat) (latched : Bool) : State :=
  let us := min 0xFFFF ((s.clk.now - s.pwr.exitFrom) / 100)
  let s := wr s R.PM_LAST_WAKE (BitVec.ofNat 32 (src % 8 + b2n latched * 8 + us * 2 ^ 16))
  let s := modPwr s (fun w => { w with phase := .awake, wake := none })
  let s := sendLtr (if s.pcie.link = .l0 then s else modPcie { s with out := s.out ++ [.linkPm .l0] } (fun c => { c with link := .l0 }))
  let s := logX s 0x1102 1 0xFF ([BitVec.ofNat 8 left, BitVec.ofNat 8 src, BitVec.ofNat 8 (b2n latched), 0] ++ bytesLE 2 us)
  let s := attn (traceEv s 54 1 0xFF none false [BitVec.ofNat 8 (runState s), BitVec.ofNat 8 src]) 7
  if src = 1 then s else sendWakes s src

/-- The POWER_REQUESTs: committed ones complete, the others ask again (R125, R518). -/
def requestsResume (s : State) : State :=
  let done := s.pwr.reqs.filter (·.committed)
  let rest := s.pwr.reqs.filter (fun q => !q.committed)
  let s := modPwr s (fun w => { w with reqs := rest.map (fun q => { q with asked := true }) })
  let s := settleFn (done.foldl (fun s q => finishPkt s 0 q.pos St.DONE 0) s) 0
  rest.foldl (fun s q => askRound s q.target) s

/-- The exit has succeeded. -/
def exitSucceeds (old s : State) (left src : Nat) (latched forced : Bool) : State :=
  requestsResume (deliver (serveHeld (backInRun (powerBack old s left forced) left src latched)))

/-- EXIT_DONE: `stillLost` names the lost phases that the retest finds lost still, `tHot16` and `sensor` the hottest junction.
With L at 4 or more, or a junction at `TRIP_C` − 10 °C or more, the device faults again and returns to Sleep (R493). -/
def execExitDone (stillLost : Nat) (tHot16 : Int) (sensor : Nat) (s : State) : Out :=
  .next (match s.pwr.phase with
    | .exiting left src latched forced =>
      let t := retest s stillLost tHot16 sensor
      if 4 ≤ lossCount t then phaseFault t
      else if ((16 * (tripC t - 10) : Nat) : Int) ≤ tHot16 then railFault t 4 sensor
      else exitSucceeds s t left src latched forced
    | _ => s)

end Sys2Proof.Machine
end

