-- ==== Sys2Proof/Machine/Recover.lean ====
section
/-! DEFINITION. What goes on once the work of a function has stopped (R143, R208, R343, R532), and the commands after which it does:
the end of a discard, function-level resets and configuration writes. -/

namespace Sys2Proof.Machine

/-- The work of other functions goes on after a function's work has stopped: the pass that follows the end of its jobs, the next
transfers of the copy engines, the renderer's next list. A fault's stop takes up to 20 µs (R532 step 2); JOB_START, TRANSFER_END and the
DRAW rows let their own unit go on within that time (log entry 101). -/
def goOn (s : State) : State := raiseMet (kickDraw ([0, 1, 2, 3].foldl kickEng (duePass s)))

/-! ### Function-level reset (R100, R101) -/

/-- FUNCTION_LEVEL_RESET. -/
def execFunctionLevelReset (f : Nat) (s : State) : Out :=
  .next (goOn (if f = 0 then pfReset s else if fnExists s f then functionReset s f else s))

/-- PF_FUNCTION_LEVEL_RESET. -/
def execPfFunctionLevelReset (s : State) : Out := .next (goOn (pfReset s))

/-! ### Configuration writes -/

/-- CONFIGURATION_WRITE: accepted once configuration space is ready (R34). -/
def execConfigurationWrite (f field value : Nat) (s : State) : Out :=
  .next (if s.boot.cfgReady then goOn (configurationWrite f field value s) else s)

/-! ### End of a discard (R532) -/

/-- DISCARD_DONE: every report is written; the busy bit clears and a waiting ring reset takes effect (R532, R535). -/
def execDiscardDone (f : Nat) (s : State) : Out :=
  .next (goOn (if !discarding s f || !mayReport s f then s
    else
      let s := reportAll s f (((getFn s f).discard.map (·.drop)).getD false)
      match (getFn s f).discard with
      | none => s
      | some d =>
        if !(getFn s f).packets.isEmpty then s
        else
          let s := setDiscardBusy s f false
          let s := logX s 0x0F03 1 f (bytesLE 2 (min 0xFFFF d.taken) ++ bytesLE 2 (min 0xFFFF d.dropped))
          let s := traceEv s 62 1 f none false (bytesLE 2 (min 0xFFFF d.reports))
          let s := modFn s f (fun x => { x with discard := none })
          if (getFn s f).resetWaiting then ringResetNow f s else s))

end Sys2Proof.Machine
end

