-- ==== Sys2Proof/Machine/ShaderOps.lean ====
section
/-! DEFINITION. The rows of the shader instructions (Tables 12.8 to 12.13): core k, wave slot w. -/

namespace Sys2Proof.Machine

/-- IADD. -/
def execShIadd (k w : Nat) (s : State) : Out := .next (runInstr 0x01 (alu (int2 (fun a b => a + b))) k w s)

/-- ISUB. -/
def execShIsub (k w : Nat) (s : State) : Out := .next (runInstr 0x02 (alu (int2 (fun a b => a - b))) k w s)

/-- IMUL. -/
def execShImul (k w : Nat) (s : State) : Out := .next (runInstr 0x03 (alu (int2 (fun a b => a * b))) k w s)

/-- IMULHI. -/
def execShImulhi (k w : Nat) (s : State) : Out := .next (runInstr 0x04 (alu (int2 iMulHi)) k w s)

/-- UMULHI. -/
def execShUmulhi (k w : Nat) (s : State) : Out := .next (runInstr 0x05 (alu (int2 uMulHi)) k w s)

/-- IMAD. -/
def execShImad (k w : Nat) (s : State) : Out := .next (runInstr 0x06 (alu (fun v i l => v.a i l * v.b i l + v.c i l)) k w s)

/-- IMIN. -/
def execShImin (k w : Nat) (s : State) : Out := .next (runInstr 0x07 (alu (int2 iMin)) k w s)

/-- IMAX. -/
def execShImax (k w : Nat) (s : State) : Out := .next (runInstr 0x08 (alu (int2 iMax)) k w s)

/-- UMIN. -/
def execShUmin (k w : Nat) (s : State) : Out := .next (runInstr 0x09 (alu (int2 uMin)) k w s)

/-- UMAX. -/
def execShUmax (k w : Nat) (s : State) : Out := .next (runInstr 0x0A (alu (int2 uMax)) k w s)

/-- AND. -/
def execShAnd (k w : Nat) (s : State) : Out := .next (runInstr 0x0B (alu (int2 (fun a b => a &&& b))) k w s)

/-- OR. -/
def execShOr (k w : Nat) (s : State) : Out := .next (runInstr 0x0C (alu (int2 (fun a b => a ||| b))) k w s)

/-- XOR. -/
def execShXor (k w : Nat) (s : State) : Out := .next (runInstr 0x0D (alu (int2 (fun a b => a ^^^ b))) k w s)

/-- SHL. -/
def execShShl (k w : Nat) (s : State) : Out := .next (runInstr 0x0E (alu (int2 shl32)) k w s)

/-- SHR. -/
def execShShr (k w : Nat) (s : State) : Out := .next (runInstr 0x0F (alu (int2 shr32)) k w s)

/-- SAR. -/
def execShSar (k w : Nat) (s : State) : Out := .next (runInstr 0x10 (alu (int2 sar32)) k w s)

/-- POPC. -/
def execShPopc (k w : Nat) (s : State) : Out := .next (runInstr 0x11 (alu (fun v i l => popc (v.a i l))) k w s)

/-- CLZ. -/
def execShClz (k w : Nat) (s : State) : Out := .next (runInstr 0x12 (alu (fun v i l => clz (v.a i l))) k w s)

/-- FADD. -/
def execShFadd (k w : Nat) (s : State) : Out := .next (runInstr 0x20 (alu (int2 fadd32)) k w s)

/-- FSUB. -/
def execShFsub (k w : Nat) (s : State) : Out := .next (runInstr 0x21 (alu (int2 fsub32)) k w s)

/-- FMUL. -/
def execShFmul (k w : Nat) (s : State) : Out := .next (runInstr 0x22 (alu (int2 fmul32)) k w s)

/-- FFMA, rounded once. -/
def execShFfma (k w : Nat) (s : State) : Out := .next (runInstr 0x23 (alu (fun v i l => ffma32 (v.a i l) (v.b i l) (v.c i l))) k w s)

/-- FMIN. -/
def execShFmin (k w : Nat) (s : State) : Out := .next (runInstr 0x24 (alu (int2 fmin32)) k w s)

/-- FMAX. -/
def execShFmax (k w : Nat) (s : State) : Out := .next (runInstr 0x25 (alu (int2 fmax32)) k w s)

/-- FABS. -/
def execShFabs (k w : Nat) (s : State) : Out := .next (runInstr 0x26 (alu (fun v i l => fabs32 (v.a i l))) k w s)

/-- FNEG. -/
def execShFneg (k w : Nat) (s : State) : Out := .next (runInstr 0x27 (alu (fun v i l => fneg32 (v.a i l))) k w s)

/-- FDIV. -/
def execShFdiv (k w : Nat) (s : State) : Out := .next (runInstr 0x28 (alu (int2 fdiv32)) k w s)

/-- FSQRT. -/
def execShFsqrt (k w : Nat) (s : State) : Out := .next (runInstr 0x29 (alu (fun v i l => fsqrt32 (v.a i l))) k w s)

/-- FRCP (R305). -/
def execShFrcp (k w : Nat) (s : State) : Out := .next (runInstr 0x2A (alu (fun v i l => fApprox Num.recip Config.frcp (v.a i l))) k w s)

/-- FRSQ (R305). -/
def execShFrsq (k w : Nat) (s : State) : Out := .next (runInstr 0x2B (alu (fun v i l => fApprox Num.rsqrt Config.frsq (v.a i l))) k w s)

/-- FEXP2 (R305). -/
def execShFexp2 (k w : Nat) (s : State) : Out := .next (runInstr 0x2C (alu (fun v i l => fApprox Num.exp2 Config.fexp2 (v.a i l))) k w s)

/-- FLOG2 (R305). -/
def execShFlog2 (k w : Nat) (s : State) : Out := .next (runInstr 0x2D (alu (fun v i l => fApprox Num.log2 Config.flog2 (v.a i l))) k w s)

/-- FSIN (R305). -/
def execShFsin (k w : Nat) (s : State) : Out := .next (runInstr 0x2E (alu (fun v i l => fTrig32 0 Config.fsin (v.a i l))) k w s)

/-- FCOS (R305). -/
def execShFcos (k w : Nat) (s : State) : Out := .next (runInstr 0x2F (alu (fun v i l => fTrig32 1 Config.fcos (v.a i l))) k w s)

/-- ICMP. -/
def execShIcmp (k w : Nat) (s : State) : Out := .next (runInstr 0x40 (cmp icmp) k w s)

/-- UCMP. -/
def execShUcmp (k w : Nat) (s : State) : Out := .next (runInstr 0x41 (cmp ucmp) k w s)

/-- FCMP. -/
def execShFcmp (k w : Nat) (s : State) : Out := .next (runInstr 0x42 (cmp fcmp) k w s)

/-- PCOMB. -/
def execShPcomb (k w : Nat) (s : State) : Out := .next (runInstr 0x43 pcomb k w s)

/-- SEL. -/
def execShSel (k w : Nat) (s : State) : Out := .next (runInstr 0x44 sel k w s)

/-- CVT (R306). -/
def execShCvt (k w : Nat) (s : State) : Out := .next (runInstr 0x48 cvt k w s)

/-- MOV. -/
def execShMov (k w : Nat) (s : State) : Out := .next (runInstr 0x50 (alu (fun v i l => if iFmt i = 1 then v.b i l else v.a i l)) k w s)

/-- RDSP. -/
def execShRdsp (k w : Nat) (s : State) : Out := .next (runInstr 0x51 (fun x s => .go (x.w.put x.i (special x s)).next s) k w s)

/-- SHFL. -/
def execShShfl (k w : Nat) (s : State) : Out := .next (runInstr 0x52 (alu shfl) k w s)

/-- VOTE. -/
def execShVote (k w : Nat) (s : State) : Out := .next (runInstr 0x53 vote k w s)

/-- LD (R312). -/
def execShLd (k w : Nat) (s : State) : Out := .next (runInstr 0x60 ldOp k w s)

/-- ST (R308). -/
def execShSt (k w : Nat) (s : State) : Out := .next (runInstr 0x61 stOp k w s)

/-- ATOM (R308). -/
def execShAtom (k w : Nat) (s : State) : Out := .next (runInstr 0x62 atomOp k w s)

/-- NOP. -/
def execShNop (k w : Nat) (s : State) : Out := .next (runInstr 0x70 nopOp k w s)

/-- BRA (R310). -/
def execShBra (k w : Nat) (s : State) : Out := .next (runInstr 0x71 braOp k w s)

/-- IF (R309). -/
def execShIf (k w : Nat) (s : State) : Out := .next (runInstr 0x72 ifOp k w s)

/-- ELSE (R309). -/
def execShElse (k w : Nat) (s : State) : Out := .next (runInstr 0x73 elseOp k w s)

/-- ENDIF (R309). -/
def execShEndif (k w : Nat) (s : State) : Out := .next (runInstr 0x74 endifOp k w s)

/-- LOOP (R309). -/
def execShLoop (k w : Nat) (s : State) : Out := .next (runInstr 0x75 loopOp k w s)

/-- BRK (R309). -/
def execShBrk (k w : Nat) (s : State) : Out := .next (runInstr 0x76 brkOp k w s)

/-- CONT (R309). -/
def execShCont (k w : Nat) (s : State) : Out := .next (runInstr 0x77 contOp k w s)

/-- ENDLOOP (R309). -/
def execShEndloop (k w : Nat) (s : State) : Out := .next (runInstr 0x78 endloopOp k w s)

/-- CALL (R310, R311). -/
def execShCall (k w : Nat) (s : State) : Out := .next (runInstr 0x79 callOp k w s)

/-- RET (R310). -/
def execShRet (k w : Nat) (s : State) : Out := .next (runInstr 0x7A retOp k w s)

/-- BAR (R314). -/
def execShBar (k w : Nat) (s : State) : Out := .next (runInstr 0x7B barOp k w s)

/-- END. -/
def execShEnd (k w : Nat) (s : State) : Out := .next (runInstr 0x7C endOp k w s)

/-- TRAP (R318). -/
def execShTrap (k w : Nat) (s : State) : Out := .next (runInstr 0x7D trapOp k w s)

/-- TMSG (R315 to R317). -/
def execShTmsg (k w : Nat) (s : State) : Out := .next (runInstr 0x7E tmsgOp k w s)

/-- TWAIT (R317). -/
def execShTwait (k w : Nat) (s : State) : Out := .next (runInstr 0x7F twaitOp k w s)

end Sys2Proof.Machine
end

