-- ==== Sys2Proof/Machine/Dispatch.lean ====
section
/-! DEFINITION. The meaning of every command: one arm for each constructor. -/

namespace Sys2Proof.Machine

def exec (i : Instr) (s : State) : Host.Outcome State Fault Refusal :=
  match i with
  | .registerWrite f off len allBytes data => Sys2Proof.Machine.execRegisterWrite f off len allBytes data s
  | .latchingRead f off len => Sys2Proof.Machine.execLatchingRead f off len s
  | .islandStartOnEntry island => Sys2Proof.Machine.execIslandStartOnEntry island s
  | .fabricTimeout silent sender => Sys2Proof.Machine.execFabricTimeout silent sender s
  | .suppliesValid podId ecc capGiB perst => Sys2Proof.Machine.execSuppliesValid podId ecc capGiB perst s
  | .flashRead sfdp quad image => Sys2Proof.Machine.execFlashRead sfdp quad image s
  | .imageCheckDone otpError => Sys2Proof.Machine.execImageCheckDone otpError s
  | .noticeboardStart lanes rate trainOk => Sys2Proof.Machine.execNoticeboardStart lanes rate trainOk s
  | .perstAssert hotReset => Sys2Proof.Machine.execPerstAssert hotReset s
  | .configSpaceReady speed width => Sys2Proof.Machine.execConfigSpaceReady speed width s
  | .stageEn v => Sys2Proof.Machine.execStageEn v s
  | .otpProgram v => Sys2Proof.Machine.execOtpProgram v s
  | .otpProgramDone ok => Sys2Proof.Machine.execOtpProgramDone ok s
  | .bar2Access off len write => Sys2Proof.Machine.execBar2Access off len write s
  | .ringEn f v => Sys2Proof.Machine.execRingEn f v s
  | .stop f v => Sys2Proof.Machine.execStop f v s
  | .stoppedReached f => Sys2Proof.Machine.execStoppedReached f s
  | .ringReset f => Sys2Proof.Machine.execRingReset f s
  | .doorbell f t => Sys2Proof.Machine.execDoorbell f t s
  | .packetFetch f => Sys2Proof.Machine.execPacketFetch f s
  | .packetDispatch f pos => Sys2Proof.Machine.execPacketDispatch f pos s
  | .hiReplyHead f h => Sys2Proof.Machine.execHiReplyHead f h s
  | .completionReport f pos => Sys2Proof.Machine.execCompletionReport f pos s
  | .msixUnmask f vec => Sys2Proof.Machine.execMsixUnmask f vec s
  | .functionLevelReset f => Sys2Proof.Machine.execFunctionLevelReset f s
  | .hostReadError f read => Sys2Proof.Machine.execHostReadError f read s
  | .pktBarrier f pos => Sys2Proof.Machine.execPktBarrier f pos s
  | .pktSignalFence f pos => Sys2Proof.Machine.execPktSignalFence f pos s
  | .pktWaitFence f pos => Sys2Proof.Machine.execPktWaitFence f pos s
  | .pktWaitFenceTimeout f pos => Sys2Proof.Machine.execPktWaitFenceTimeout f pos s
  | .pktLoadProgram f pos => Sys2Proof.Machine.execPktLoadProgram f pos s
  | .pktUnloadProgram f pos => Sys2Proof.Machine.execPktUnloadProgram f pos s
  | .pktRunJob f pos => Sys2Proof.Machine.execPktRunJob f pos s
  | .pktRunBatch f pos => Sys2Proof.Machine.execPktRunBatch f pos s
  | .pktStepJoin f pos => Sys2Proof.Machine.execPktStepJoin f pos s
  | .pktStepLeave f pos => Sys2Proof.Machine.execPktStepLeave f pos s
  | .pktResolvePencil f pos => Sys2Proof.Machine.execPktResolvePencil f pos s
  | .pktCopy f pos => Sys2Proof.Machine.execPktCopy f pos s
  | .pktCopyCompress f pos => Sys2Proof.Machine.execPktCopyCompress f pos s
  | .pktCopyDecompress f pos => Sys2Proof.Machine.execPktCopyDecompress f pos s
  | .pktRegionUpdate f pos => Sys2Proof.Machine.execPktRegionUpdate f pos s
  | .pktFill f pos => Sys2Proof.Machine.execPktFill f pos s
  | .pktDrawList f pos => Sys2Proof.Machine.execPktDrawList f pos s
  | .pktLayerFlip f pos => Sys2Proof.Machine.execPktLayerFlip f pos s
  | .pktDisplayConfig f pos => Sys2Proof.Machine.execPktDisplayConfig f pos s
  | .pktLinkSend f pos => Sys2Proof.Machine.execPktLinkSend f pos s
  | .pktConfigApply f pos => Sys2Proof.Machine.execPktConfigApply f pos s
  | .pktPowerRequest f pos => Sys2Proof.Machine.execPktPowerRequest f pos s
  | .pktQuotaSet f pos => Sys2Proof.Machine.execPktQuotaSet f pos s
  | .jobStart f pos => Sys2Proof.Machine.execJobStart f pos s
  | .clusterStart n => Sys2Proof.Machine.execClusterStart n s
  | .clusterStop n => Sys2Proof.Machine.execClusterStop n s
  | .jobEnd f pos => Sys2Proof.Machine.execJobEnd f pos s
  | .budgetExpiry f pos => Sys2Proof.Machine.execBudgetExpiry f pos s
  | .atsInvalidateRequest f addr log2 tag => Sys2Proof.Machine.execAtsInvalidateRequest f addr log2 tag s
  | .atsInvalidateCompletion tag => Sys2Proof.Machine.execAtsInvalidateCompletion tag s
  | .atsTranslationCompletion f addr ok log2 target r w => Sys2Proof.Machine.execAtsTranslationCompletion f addr ok log2 target r w s
  | .prgResponse index code => Sys2Proof.Machine.execPrgResponse index code s
  | .priTimeout index => Sys2Proof.Machine.execPriTimeout index s
  | .scCarve v => Sys2Proof.Machine.execScCarve v s
  | .cacheEccError slice set way => Sys2Proof.Machine.execCacheEccError slice set way s
  | .memoryEccError addr error => Sys2Proof.Machine.execMemoryEccError addr error s
  | .transferEnd engine => Sys2Proof.Machine.execTransferEnd engine s
  | .compressTrialEnd engine => Sys2Proof.Machine.execCompressTrialEnd engine s
  | .opConv f pos stage => Sys2Proof.Machine.execOpConv f pos stage s
  | .opMatmul f pos stage => Sys2Proof.Machine.execOpMatmul f pos stage s
  | .opAttention f pos stage => Sys2Proof.Machine.execOpAttention f pos stage s
  | .opPool f pos stage => Sys2Proof.Machine.execOpPool f pos stage s
  | .opEltwise f pos stage => Sys2Proof.Machine.execOpEltwise f pos stage s
  | .opReduce f pos stage => Sys2Proof.Machine.execOpReduce f pos stage s
  | .opResize f pos stage => Sys2Proof.Machine.execOpResize f pos stage s
  | .opCropGather f pos stage => Sys2Proof.Machine.execOpCropGather f pos stage s
  | .opNms f pos stage => Sys2Proof.Machine.execOpNms f pos stage s
  | .opShader f pos stage => Sys2Proof.Machine.execOpShader f pos stage s
  | .stageEnd f pos stage => Sys2Proof.Machine.execStageEnd f pos stage s
  | .earlyStart f pos stage => Sys2Proof.Machine.execEarlyStart f pos stage s
  | .earlyWorkEnd f pos stage => Sys2Proof.Machine.execEarlyWorkEnd f pos stage s
  | .inkEnd f pos stage => Sys2Proof.Machine.execInkEnd f pos stage s
  | .shIadd k w => Sys2Proof.Machine.execShIadd k w s
  | .shIsub k w => Sys2Proof.Machine.execShIsub k w s
  | .shImul k w => Sys2Proof.Machine.execShImul k w s
  | .shImulhi k w => Sys2Proof.Machine.execShImulhi k w s
  | .shUmulhi k w => Sys2Proof.Machine.execShUmulhi k w s
  | .shImad k w => Sys2Proof.Machine.execShImad k w s
  | .shImin k w => Sys2Proof.Machine.execShImin k w s
  | .shImax k w => Sys2Proof.Machine.execShImax k w s
  | .shUmin k w => Sys2Proof.Machine.execShUmin k w s
  | .shUmax k w => Sys2Proof.Machine.execShUmax k w s
  | .shAnd k w => Sys2Proof.Machine.execShAnd k w s
  | .shOr k w => Sys2Proof.Machine.execShOr k w s
  | .shXor k w => Sys2Proof.Machine.execShXor k w s
  | .shShl k w => Sys2Proof.Machine.execShShl k w s
  | .shShr k w => Sys2Proof.Machine.execShShr k w s
  | .shSar k w => Sys2Proof.Machine.execShSar k w s
  | .shPopc k w => Sys2Proof.Machine.execShPopc k w s
  | .shClz k w => Sys2Proof.Machine.execShClz k w s
  | .shFadd k w => Sys2Proof.Machine.execShFadd k w s
  | .shFsub k w => Sys2Proof.Machine.execShFsub k w s
  | .shFmul k w => Sys2Proof.Machine.execShFmul k w s
  | .shFfma k w => Sys2Proof.Machine.execShFfma k w s
  | .shFmin k w => Sys2Proof.Machine.execShFmin k w s
  | .shFmax k w => Sys2Proof.Machine.execShFmax k w s
  | .shFabs k w => Sys2Proof.Machine.execShFabs k w s
  | .shFneg k w => Sys2Proof.Machine.execShFneg k w s
  | .shFdiv k w => Sys2Proof.Machine.execShFdiv k w s
  | .shFsqrt k w => Sys2Proof.Machine.execShFsqrt k w s
  | .shFrcp k w => Sys2Proof.Machine.execShFrcp k w s
  | .shFrsq k w => Sys2Proof.Machine.execShFrsq k w s
  | .shFexp2 k w => Sys2Proof.Machine.execShFexp2 k w s
  | .shFlog2 k w => Sys2Proof.Machine.execShFlog2 k w s
  | .shFsin k w => Sys2Proof.Machine.execShFsin k w s
  | .shFcos k w => Sys2Proof.Machine.execShFcos k w s
  | .shIcmp k w => Sys2Proof.Machine.execShIcmp k w s
  | .shUcmp k w => Sys2Proof.Machine.execShUcmp k w s
  | .shFcmp k w => Sys2Proof.Machine.execShFcmp k w s
  | .shPcomb k w => Sys2Proof.Machine.execShPcomb k w s
  | .shSel k w => Sys2Proof.Machine.execShSel k w s
  | .shCvt k w => Sys2Proof.Machine.execShCvt k w s
  | .shMov k w => Sys2Proof.Machine.execShMov k w s
  | .shRdsp k w => Sys2Proof.Machine.execShRdsp k w s
  | .shShfl k w => Sys2Proof.Machine.execShShfl k w s
  | .shVote k w => Sys2Proof.Machine.execShVote k w s
  | .shLd k w => Sys2Proof.Machine.execShLd k w s
  | .shSt k w => Sys2Proof.Machine.execShSt k w s
  | .shAtom k w => Sys2Proof.Machine.execShAtom k w s
  | .shNop k w => Sys2Proof.Machine.execShNop k w s
  | .shBra k w => Sys2Proof.Machine.execShBra k w s
  | .shIf k w => Sys2Proof.Machine.execShIf k w s
  | .shElse k w => Sys2Proof.Machine.execShElse k w s
  | .shEndif k w => Sys2Proof.Machine.execShEndif k w s
  | .shLoop k w => Sys2Proof.Machine.execShLoop k w s
  | .shBrk k w => Sys2Proof.Machine.execShBrk k w s
  | .shCont k w => Sys2Proof.Machine.execShCont k w s
  | .shEndloop k w => Sys2Proof.Machine.execShEndloop k w s
  | .shCall k w => Sys2Proof.Machine.execShCall k w s
  | .shRet k w => Sys2Proof.Machine.execShRet k w s
  | .shBar k w => Sys2Proof.Machine.execShBar k w s
  | .shEnd k w => Sys2Proof.Machine.execShEnd k w s
  | .shTrap k w => Sys2Proof.Machine.execShTrap k w s
  | .shTmsg k w => Sys2Proof.Machine.execShTmsg k w s
  | .tensorMessageDone n => Sys2Proof.Machine.execTensorMessageDone n s
  | .shTwait k w => Sys2Proof.Machine.execShTwait k w s
  | .frameEnd underruns => Sys2Proof.Machine.execFrameEnd underruns s
  | .hpdIrq linkOk => Sys2Proof.Machine.execHpdIrq linkOk s
  | .hpdPlug lanes rate => Sys2Proof.Machine.execHpdPlug lanes rate s
  | .dpTrainingDone ok => Sys2Proof.Machine.execDpTrainingDone ok s
  | .auxStart v => Sys2Proof.Machine.execAuxStart v s
  | .auxDone reply data => Sys2Proof.Machine.execAuxDone reply data s
  | .retrain p => Sys2Proof.Machine.execRetrain p s
  | .blLinkEn p v => Sys2Proof.Machine.execBlLinkEn p v s
  | .equalise p => Sys2Proof.Machine.execEqualise p s
  | .config p => Sys2Proof.Machine.execConfig p s
  | .configDone p tsb => Sys2Proof.Machine.execConfigDone p tsb s
  | .trainingTimeout p => Sys2Proof.Machine.execTrainingTimeout p s
  | .autoRetry p => Sys2Proof.Machine.execAutoRetry p s
  | .payloadFlit p flit => Sys2Proof.Machine.execPayloadFlit p flit s
  | .nak p flit => Sys2Proof.Machine.execNak p flit s
  | .replayTimeout p => Sys2Proof.Machine.execReplayTimeout p s
  | .replayWindow p => Sys2Proof.Machine.execReplayWindow p s
  | .linkSilenceTimeout p => Sys2Proof.Machine.execLinkSilenceTimeout p s
  | .msgRdReq p => Sys2Proof.Machine.execMsgRdReq p s
  | .msgWrReq p => Sys2Proof.Machine.execMsgWrReq p s
  | .msgAtReq p => Sys2Proof.Machine.execMsgAtReq p s
  | .msgRdRsp p => Sys2Proof.Machine.execMsgRdRsp p s
  | .msgWrAck p => Sys2Proof.Machine.execMsgWrAck p s
  | .msgAtRsp p => Sys2Proof.Machine.execMsgAtRsp p s
  | .msgFenceWr p => Sys2Proof.Machine.execMsgFenceWr p s
  | .msgFenceWatch p => Sys2Proof.Machine.execMsgFenceWatch p s
  | .msgFenceUnwatch p => Sys2Proof.Machine.execMsgFenceUnwatch p s
  | .fenceWatchRetry f pos => Sys2Proof.Machine.execFenceWatchRetry f pos s
  | .msgMsg p => Sys2Proof.Machine.execMsgMsg p s
  | .msgFenceAck p => Sys2Proof.Machine.execMsgFenceAck p s
  | .msgFenceNotify p => Sys2Proof.Machine.execMsgFenceNotify p s
  | .msgMsgAck p => Sys2Proof.Machine.execMsgMsgAck p s
  | .msgStreamAck p => Sys2Proof.Machine.execMsgStreamAck p s
  | .msgRouteState p => Sys2Proof.Machine.execMsgRouteState p s
  | .rcAsk p => Sys2Proof.Machine.execRcAsk p s
  | .rcPropose p => Sys2Proof.Machine.execRcPropose p s
  | .rcAccept p => Sys2Proof.Machine.execRcAccept p s
  | .rcDecline p => Sys2Proof.Machine.execRcDecline p s
  | .rcWithdraw p => Sys2Proof.Machine.execRcWithdraw p s
  | .rcVerdict p => Sys2Proof.Machine.execRcVerdict p s
  | .rcWake p => Sys2Proof.Machine.execRcWake p s
  | .wakeSource src => Sys2Proof.Machine.execWakeSource src s
  | .exitDone stillLost tHot16 sensor => Sys2Proof.Machine.execExitDone stillLost tHot16 sensor s
  | .linkActivity p => Sys2Proof.Machine.execLinkActivity p s
  | .mgmtQuickCommand t => Sys2Proof.Machine.execMgmtQuickCommand t s
  | .mgmtSendByte t => Sys2Proof.Machine.execMgmtSendByte t s
  | .mgmtReceiveByte t => Sys2Proof.Machine.execMgmtReceiveByte t s
  | .mgmtLastReported t attention => Sys2Proof.Machine.execMgmtLastReported t attention s
  | .mgmtAttentionEn t => Sys2Proof.Machine.execMgmtAttentionEn t s
  | .mgmtIdentity t => Sys2Proof.Machine.execMgmtIdentity t s
  | .mgmtState t => Sys2Proof.Machine.execMgmtState t s
  | .mgmtThermal t => Sys2Proof.Machine.execMgmtThermal t s
  | .mgmtRail t => Sys2Proof.Machine.execMgmtRail t s
  | .mgmtLinks t => Sys2Proof.Machine.execMgmtLinks t s
  | .mgmtTime t => Sys2Proof.Machine.execMgmtTime t s
  | .mgmtKeepalive t => Sys2Proof.Machine.execMgmtKeepalive t s
  | .mgmtLogCount t => Sys2Proof.Machine.execMgmtLogCount t s
  | .mgmtLogSelect t => Sys2Proof.Machine.execMgmtLogSelect t s
  | .mgmtLogRead t => Sys2Proof.Machine.execMgmtLogRead t s
  | .mgmtLogNote t => Sys2Proof.Machine.execMgmtLogNote t s
  | .mgmtRegAddr t => Sys2Proof.Machine.execMgmtRegAddr t s
  | .mgmtRegData t => Sys2Proof.Machine.execMgmtRegData t s
  | .controllerStart v => Sys2Proof.Machine.execControllerStart v s
  | .arbitrationLoss kind => Sys2Proof.Machine.execArbitrationLoss kind s
  | .controllerDone status rd pecBad => Sys2Proof.Machine.execControllerDone status rd pecBad s
  | .setHostAttention v => Sys2Proof.Machine.execSetHostAttention v s
  | .addressMatch read => Sys2Proof.Machine.execAddressMatch read s
  | .sourceChange src cellMv primMv => Sys2Proof.Machine.execSourceChange src cellMv primMv s
  | .coldStart src vkaMv => Sys2Proof.Machine.execColdStart src vkaMv s
  | .samplePeriod vocMv t16 ntcAbsent => Sys2Proof.Machine.execSamplePeriod vocMv t16 ntcAbsent s
  | .cellMeasure cellMv primMv => Sys2Proof.Machine.execCellMeasure cellMv primMv s
  | .cellProtect kind acts cellMv => Sys2Proof.Machine.execCellProtect kind acts cellMv s
  | .caseSample in0 in1 => Sys2Proof.Machine.execCaseSample in0 in1 s
  | .phaseOpen phase => Sys2Proof.Machine.execPhaseOpen phase s
  | .senseFail phase iN iExp => Sys2Proof.Machine.execSenseFail phase iN iExp s
  | .phaseRetry v pass => Sys2Proof.Machine.execPhaseRetry v pass s
  | .tmonWarn above => Sys2Proof.Machine.execTmonWarn above s
  | .droop island => Sys2Proof.Machine.execDroop island s
  | .droopFault island => Sys2Proof.Machine.execDroopFault island s
  | .controlStep tCl tFab tCtl clIdx => Sys2Proof.Machine.execControlStep tCl tFab tCtl clIdx s
  | .thermalTrip sensor t16 => Sys2Proof.Machine.execThermalTrip sensor t16 s
  | .telemetryUpdate mv isen tmon16 => Sys2Proof.Machine.execTelemetryUpdate mv isen tmon16 s
  | .discardDone f => Sys2Proof.Machine.execDiscardDone f s
  | .traceEnable v => Sys2Proof.Machine.execTraceEnable v s
  | .jtagSamplePreload pins => Sys2Proof.Machine.execJtagSamplePreload pins s
  | .jtagExtest leave => Sys2Proof.Machine.execJtagExtest leave s
  | .pktNop f pos => Sys2Proof.Machine.execPktNop f pos s
  | .configurationWrite f field value => Sys2Proof.Machine.execConfigurationWrite f field value s
  | .laneLock p lane tag inverted => Sys2Proof.Machine.execLaneLock p lane tag inverted s
  | .translationRequestTimeout f addr => Sys2Proof.Machine.execTranslationRequestTimeout f addr s
  | .droopRecovery island => Sys2Proof.Machine.execDroopRecovery island s
  | .islandRestart => Sys2Proof.Machine.execIslandRestart s
  | .wedged => Sys2Proof.Machine.execWedged s
  | .suppliesLost => Sys2Proof.Machine.execSuppliesLost s
  | .softStartDone => Sys2Proof.Machine.execSoftStartDone s
  | .imgWrite => Sys2Proof.Machine.execImgWrite s
  | .imgWriteMasked => Sys2Proof.Machine.execImgWriteMasked s
  | .imgWriteSeq => Sys2Proof.Machine.execImgWriteSeq s
  | .imgNoticeboardItem => Sys2Proof.Machine.execImgNoticeboardItem s
  | .imgNoticeboardText => Sys2Proof.Machine.execImgNoticeboardText s
  | .imgEnd => Sys2Proof.Machine.execImgEnd s
  | .memoryTrained => Sys2Proof.Machine.execMemoryTrained s
  | .noticeboardRefresh => Sys2Proof.Machine.execNoticeboardRefresh s
  | .pfFunctionLevelReset => Sys2Proof.Machine.execPfFunctionLevelReset s
  | .ageingStep => Sys2Proof.Machine.execAgeingStep s
  | .invalidate => Sys2Proof.Machine.execInvalidate s
  | .invalidationComplete => Sys2Proof.Machine.execInvalidationComplete s
  | .carveTransitionDone => Sys2Proof.Machine.execCarveTransitionDone s
  | .drawRect => Sys2Proof.Machine.execDrawRect s
  | .drawBox => Sys2Proof.Machine.execDrawBox s
  | .drawPoint => Sys2Proof.Machine.execDrawPoint s
  | .drawLine => Sys2Proof.Machine.execDrawLine s
  | .drawTriangle => Sys2Proof.Machine.execDrawTriangle s
  | .drawGlyph => Sys2Proof.Machine.execDrawGlyph s
  | .drawSetClip => Sys2Proof.Machine.execDrawSetClip s
  | .drawSetAtlas => Sys2Proof.Machine.execDrawSetAtlas s
  | .drawClear => Sys2Proof.Machine.execDrawClear s
  | .drawNop => Sys2Proof.Machine.execDrawNop s
  | .drawEnd => Sys2Proof.Machine.execDrawEnd s
  | .latch => Sys2Proof.Machine.execLatch s
  | .frameStart => Sys2Proof.Machine.execFrameStart s
  | .hpdUnplug => Sys2Proof.Machine.execHpdUnplug s
  | .routeStateTimer => Sys2Proof.Machine.execRouteStateTimer s
  | .rollCallTimeout => Sys2Proof.Machine.execRollCallTimeout s
  | .verdictTimeout => Sys2Proof.Machine.execVerdictTimeout s
  | .askTimeout => Sys2Proof.Machine.execAskTimeout s
  | .sleepEntryDone => Sys2Proof.Machine.execSleepEntryDone s
  | .sclTimeout => Sys2Proof.Machine.execSclTimeout s
  | .controllerRetry => Sys2Proof.Machine.execControllerRetry s
  | .handRaiseDue => Sys2Proof.Machine.execHandRaiseDue s
  | .handRaise => Sys2Proof.Machine.execHandRaise s
  | .handRaiseCollision => Sys2Proof.Machine.execHandRaiseCollision s
  | .handRaiseSeen => Sys2Proof.Machine.execHandRaiseSeen s
  | .ocClearTimer => Sys2Proof.Machine.execOcClearTimer s
  | .ocLatch => Sys2Proof.Machine.execOcLatch s
  | .wakePin => Sys2Proof.Machine.execWakePin s
  | .xtalFail => Sys2Proof.Machine.execXtalFail s
  | .xtalRestore => Sys2Proof.Machine.execXtalRestore s
  | .logbookAppend => Sys2Proof.Machine.execLogbookAppend s
  | .kaLogDataRead => Sys2Proof.Machine.execKaLogDataRead s
  | .phaseAdd => Sys2Proof.Machine.execPhaseAdd s
  | .phaseShed => Sys2Proof.Machine.execPhaseShed s
  | .railAck => Sys2Proof.Machine.execRailAck s
  | .jtagBypass => Sys2Proof.Machine.execJtagBypass s
  | .jtagClamp => Sys2Proof.Machine.execJtagClamp s
  | .jtagHighz => Sys2Proof.Machine.execJtagHighz s
  | .vkaCollapse => Sys2Proof.Machine.execVkaCollapse s
  | .cellFull => Sys2Proof.Machine.execCellFull s

end Sys2Proof.Machine
end

