-- ==== Sys2Proof/Machine/Tick.lean ====
section
/-! DEFINITION. The passing of time: one 10 ns tick of the 100 MHz fine tick and of the crystal's coarse tick (1.5, 17.5). -/

namespace Sys2Proof.Machine

/-- The coarse counter runs at 32,768 Hz: 128 / 390,625 of a coarse tick pass in 10 ns. -/
def coarseTick (c : Clock) : Clock :=
  if c.sub + 128 < 390625 then { c with sub := c.sub + 128 }
  else { c with sub := c.sub + 128 - 390625, coarse := c.coarse + 1 }

/-- The clocks after 10 ns. The fine tick counts while it runs (R473), the coarse tick while Caretaker has its supply (R470). -/
def clockTick (alive : Bool) (c : Clock) : Clock :=
  let c := { c with now := c.now + 1, fine := if c.fineRun then c.fine + 1 else c.fine }
  if alive then coarseTick c else c

/-- Functions whose reports wait on a full reply ring count the stall in fine ticks (Table 3.11). -/
def stallTick (s : State) (f : Nat) : State :=
  if rb s (R.HI_FN_STATUS f) F.HI_FN_STATUS.REPLY_FULL then bump s (C.FN f 0x1018) else s

/-- 10 ns pass. -/
def tick (s : State) : State :=
  let s' := if s.clk.fineRun then (List.range (s.vfs + 1)).foldl stallTick s else s
  { s' with clk := clockTick s.care.alive s.clk }

end Sys2Proof.Machine
end

