-- ==== Sys2Proof/WellFormed.lean ====
section
/-! DEFINITION. The ranges of the operands a command may carry: functions 0 to 127, link ports 0 to 2, cores and wave slots, clusters,
phases, stages, copy engines, MSI-X vectors, islands and 32-bit ring counts. A command outside them names an object the device
does not have; its meaning then changes nothing of that object. -/

namespace Sys2Proof

/-- A function index (3.2). -/
def fnOk (f : Nat) : Bool := decide (f < 128)
/-- A ring count (3.4). -/
def countOk (pos : Nat) : Bool := decide (pos < 2 ^ 32)
/-- A Berar Link port (15.1). -/
def portOk (p : Nat) : Bool := decide (p < 3)
/-- A shader core, 4 × cluster + core, and one of its 8 wave slots (12.1). -/
def coreOk (k w : Nat) : Bool := decide (k < 64) && decide (w < 8)
/-- A compute cluster (1.1). -/
def clusterOk (n : Nat) : Bool := decide (n < 16)
/-- A phase of the core rail (18.1). -/
def phaseOk (n : Nat) : Bool := decide (n < 8)
/-- A stage of a program (11.1). -/
def stageOk (n : Nat) : Bool := decide (n < 64)
/-- A copy engine (8.1). -/
def engineOk (n : Nat) : Bool := decide (n < 4)
/-- An MSI-X vector (3.1). -/
def vectorOk (n : Nat) : Bool := decide (n < 16)
/-- An island, by its ORIGIN code (Table 17.5). -/
def islandOk (n : Nat) : Bool := decide (n < 24)

/-- A command's operands are in range. -/
def Instr.wf : Instr → Bool
  | .registerWrite f _ _ _ _ => fnOk f
  | .latchingRead f _ _ => fnOk f
  | .islandStartOnEntry island => islandOk island
  | .fabricTimeout silent sender => islandOk silent && islandOk sender
  | .suppliesValid _ _ _ _ => true
  | .flashRead _ _ _ => true
  | .imageCheckDone _ => true
  | .noticeboardStart _ _ _ => true
  | .perstAssert _ => true
  | .configSpaceReady _ _ => true
  | .stageEn _ => true
  | .otpProgram _ => true
  | .otpProgramDone _ => true
  | .bar2Access _ _ _ => true
  | .ringEn f _ => fnOk f
  | .stop f _ => fnOk f
  | .stoppedReached f => fnOk f
  | .ringReset f => fnOk f
  | .doorbell f _ => fnOk f
  | .packetFetch f => fnOk f
  | .packetDispatch f pos => fnOk f && countOk pos
  | .hiReplyHead f _ => fnOk f
  | .completionReport f pos => fnOk f && countOk pos
  | .msixUnmask f vec => fnOk f && vectorOk vec
  | .functionLevelReset f => fnOk f
  | .hostReadError f read => fnOk f && countOk read.pos
  | .pktBarrier f pos => fnOk f && countOk pos
  | .pktSignalFence f pos => fnOk f && countOk pos
  | .pktWaitFence f pos => fnOk f && countOk pos
  | .pktWaitFenceTimeout f pos => fnOk f && countOk pos
  | .pktLoadProgram f pos => fnOk f && countOk pos
  | .pktUnloadProgram f pos => fnOk f && countOk pos
  | .pktRunJob f pos => fnOk f && countOk pos
  | .pktRunBatch f pos => fnOk f && countOk pos
  | .pktStepJoin f pos => fnOk f && countOk pos
  | .pktStepLeave f pos => fnOk f && countOk pos
  | .pktResolvePencil f pos => fnOk f && countOk pos
  | .pktCopy f pos => fnOk f && countOk pos
  | .pktCopyCompress f pos => fnOk f && countOk pos
  | .pktCopyDecompress f pos => fnOk f && countOk pos
  | .pktRegionUpdate f pos => fnOk f && countOk pos
  | .pktFill f pos => fnOk f && countOk pos
  | .pktDrawList f pos => fnOk f && countOk pos
  | .pktLayerFlip f pos => fnOk f && countOk pos
  | .pktDisplayConfig f pos => fnOk f && countOk pos
  | .pktLinkSend f pos => fnOk f && countOk pos
  | .pktConfigApply f pos => fnOk f && countOk pos
  | .pktPowerRequest f pos => fnOk f && countOk pos
  | .pktQuotaSet f pos => fnOk f && countOk pos
  | .jobStart f pos => fnOk f && countOk pos
  | .clusterStart n => clusterOk n
  | .clusterStop n => clusterOk n
  | .jobEnd f pos => fnOk f && countOk pos
  | .budgetExpiry f pos => fnOk f && countOk pos
  | .atsInvalidateRequest f _ _ _ => fnOk f
  | .atsInvalidateCompletion _ => true
  | .atsTranslationCompletion f _ _ _ _ _ _ => fnOk f
  | .prgResponse _ _ => true
  | .priTimeout _ => true
  | .scCarve _ => true
  | .cacheEccError _ _ _ => true
  | .memoryEccError _ _ => true
  | .transferEnd engine => engineOk engine
  | .compressTrialEnd engine => engineOk engine
  | .opConv f pos stage => fnOk f && countOk pos && stageOk stage
  | .opMatmul f pos stage => fnOk f && countOk pos && stageOk stage
  | .opAttention f pos stage => fnOk f && countOk pos && stageOk stage
  | .opPool f pos stage => fnOk f && countOk pos && stageOk stage
  | .opEltwise f pos stage => fnOk f && countOk pos && stageOk stage
  | .opReduce f pos stage => fnOk f && countOk pos && stageOk stage
  | .opResize f pos stage => fnOk f && countOk pos && stageOk stage
  | .opCropGather f pos stage => fnOk f && countOk pos && stageOk stage
  | .opNms f pos stage => fnOk f && countOk pos && stageOk stage
  | .opShader f pos stage => fnOk f && countOk pos && stageOk stage
  | .stageEnd f pos stage => fnOk f && countOk pos && stageOk stage
  | .earlyStart f pos stage => fnOk f && countOk pos && stageOk stage
  | .earlyWorkEnd f pos stage => fnOk f && countOk pos && stageOk stage
  | .inkEnd f pos stage => fnOk f && countOk pos && stageOk stage
  | .shIadd k w => coreOk k w
  | .shIsub k w => coreOk k w
  | .shImul k w => coreOk k w
  | .shImulhi k w => coreOk k w
  | .shUmulhi k w => coreOk k w
  | .shImad k w => coreOk k w
  | .shImin k w => coreOk k w
  | .shImax k w => coreOk k w
  | .shUmin k w => coreOk k w
  | .shUmax k w => coreOk k w
  | .shAnd k w => coreOk k w
  | .shOr k w => coreOk k w
  | .shXor k w => coreOk k w
  | .shShl k w => coreOk k w
  | .shShr k w => coreOk k w
  | .shSar k w => coreOk k w
  | .shPopc k w => coreOk k w
  | .shClz k w => coreOk k w
  | .shFadd k w => coreOk k w
  | .shFsub k w => coreOk k w
  | .shFmul k w => coreOk k w
  | .shFfma k w => coreOk k w
  | .shFmin k w => coreOk k w
  | .shFmax k w => coreOk k w
  | .shFabs k w => coreOk k w
  | .shFneg k w => coreOk k w
  | .shFdiv k w => coreOk k w
  | .shFsqrt k w => coreOk k w
  | .shFrcp k w => coreOk k w
  | .shFrsq k w => coreOk k w
  | .shFexp2 k w => coreOk k w
  | .shFlog2 k w => coreOk k w
  | .shFsin k w => coreOk k w
  | .shFcos k w => coreOk k w
  | .shIcmp k w => coreOk k w
  | .shUcmp k w => coreOk k w
  | .shFcmp k w => coreOk k w
  | .shPcomb k w => coreOk k w
  | .shSel k w => coreOk k w
  | .shCvt k w => coreOk k w
  | .shMov k w => coreOk k w
  | .shRdsp k w => coreOk k w
  | .shShfl k w => coreOk k w
  | .shVote k w => coreOk k w
  | .shLd k w => coreOk k w
  | .shSt k w => coreOk k w
  | .shAtom k w => coreOk k w
  | .shNop k w => coreOk k w
  | .shBra k w => coreOk k w
  | .shIf k w => coreOk k w
  | .shElse k w => coreOk k w
  | .shEndif k w => coreOk k w
  | .shLoop k w => coreOk k w
  | .shBrk k w => coreOk k w
  | .shCont k w => coreOk k w
  | .shEndloop k w => coreOk k w
  | .shCall k w => coreOk k w
  | .shRet k w => coreOk k w
  | .shBar k w => coreOk k w
  | .shEnd k w => coreOk k w
  | .shTrap k w => coreOk k w
  | .shTmsg k w => coreOk k w
  | .tensorMessageDone n => clusterOk n
  | .shTwait k w => coreOk k w
  | .frameEnd _ => true
  | .hpdIrq _ => true
  | .hpdPlug _ _ => true
  | .dpTrainingDone _ => true
  | .auxStart _ => true
  | .auxDone _ _ => true
  | .retrain p => portOk p
  | .blLinkEn p _ => portOk p
  | .equalise p => portOk p
  | .config p => portOk p
  | .configDone p _ => portOk p
  | .trainingTimeout p => portOk p
  | .autoRetry p => portOk p
  | .payloadFlit p _ => portOk p
  | .nak p _ => portOk p
  | .replayTimeout p => portOk p
  | .replayWindow p => portOk p
  | .linkSilenceTimeout p => portOk p
  | .msgRdReq p => portOk p
  | .msgWrReq p => portOk p
  | .msgAtReq p => portOk p
  | .msgRdRsp p => portOk p
  | .msgWrAck p => portOk p
  | .msgAtRsp p => portOk p
  | .msgFenceWr p => portOk p
  | .msgFenceWatch p => portOk p
  | .msgFenceUnwatch p => portOk p
  | .fenceWatchRetry f pos => fnOk f && countOk pos
  | .msgMsg p => portOk p
  | .msgFenceAck p => portOk p
  | .msgFenceNotify p => portOk p
  | .msgMsgAck p => portOk p
  | .msgStreamAck p => portOk p
  | .msgRouteState p => portOk p
  | .rcAsk p => portOk p
  | .rcPropose p => portOk p
  | .rcAccept p => portOk p
  | .rcDecline p => portOk p
  | .rcWithdraw p => portOk p
  | .rcVerdict p => portOk p
  | .rcWake p => portOk p
  | .wakeSource _ => true
  | .exitDone _ _ _ => true
  | .linkActivity p => portOk p
  | .mgmtQuickCommand _ => true
  | .mgmtSendByte _ => true
  | .mgmtReceiveByte _ => true
  | .mgmtLastReported _ _ => true
  | .mgmtAttentionEn _ => true
  | .mgmtIdentity _ => true
  | .mgmtState _ => true
  | .mgmtThermal _ => true
  | .mgmtRail _ => true
  | .mgmtLinks _ => true
  | .mgmtTime _ => true
  | .mgmtKeepalive _ => true
  | .mgmtLogCount _ => true
  | .mgmtLogSelect _ => true
  | .mgmtLogRead _ => true
  | .mgmtLogNote _ => true
  | .mgmtRegAddr _ => true
  | .mgmtRegData _ => true
  | .controllerStart _ => true
  | .arbitrationLoss _ => true
  | .controllerDone _ _ _ => true
  | .setHostAttention _ => true
  | .addressMatch _ => true
  | .sourceChange _ _ _ => true
  | .coldStart _ _ => true
  | .samplePeriod _ _ _ => true
  | .cellMeasure _ _ => true
  | .cellProtect _ _ _ => true
  | .caseSample _ _ => true
  | .phaseOpen phase => phaseOk phase
  | .senseFail phase _ _ => phaseOk phase
  | .phaseRetry _ _ => true
  | .tmonWarn _ => true
  | .droop island => islandOk island
  | .droopFault island => islandOk island
  | .controlStep _ _ _ _ => true
  | .thermalTrip _ _ => true
  | .telemetryUpdate _ _ _ => true
  | .discardDone f => fnOk f
  | .traceEnable _ => true
  | .jtagSamplePreload _ => true
  | .jtagExtest _ => true
  | .pktNop f pos => fnOk f && countOk pos
  | .configurationWrite f _ _ => fnOk f
  | .laneLock p _ _ _ => portOk p
  | .translationRequestTimeout f _ => fnOk f
  | .droopRecovery island => islandOk island
  | .islandRestart => true
  | .wedged => true
  | .suppliesLost => true
  | .softStartDone => true
  | .imgWrite => true
  | .imgWriteMasked => true
  | .imgWriteSeq => true
  | .imgNoticeboardItem => true
  | .imgNoticeboardText => true
  | .imgEnd => true
  | .memoryTrained => true
  | .noticeboardRefresh => true
  | .pfFunctionLevelReset => true
  | .ageingStep => true
  | .invalidate => true
  | .invalidationComplete => true
  | .carveTransitionDone => true
  | .drawRect => true
  | .drawBox => true
  | .drawPoint => true
  | .drawLine => true
  | .drawTriangle => true
  | .drawGlyph => true
  | .drawSetClip => true
  | .drawSetAtlas => true
  | .drawClear => true
  | .drawNop => true
  | .drawEnd => true
  | .latch => true
  | .frameStart => true
  | .hpdUnplug => true
  | .routeStateTimer => true
  | .rollCallTimeout => true
  | .verdictTimeout => true
  | .askTimeout => true
  | .sleepEntryDone => true
  | .sclTimeout => true
  | .controllerRetry => true
  | .handRaiseDue => true
  | .handRaise => true
  | .handRaiseCollision => true
  | .handRaiseSeen => true
  | .ocClearTimer => true
  | .ocLatch => true
  | .wakePin => true
  | .xtalFail => true
  | .xtalRestore => true
  | .logbookAppend => true
  | .kaLogDataRead => true
  | .phaseAdd => true
  | .phaseShed => true
  | .railAck => true
  | .jtagBypass => true
  | .jtagClamp => true
  | .jtagHighz => true
  | .vkaCollapse => true
  | .cellFull => true

end Sys2Proof
end

