-- ==== Sys2Proof/Safety.lean ====
section
/-! DEFINITION. What a statement may call a well-kept state: every sparse table in its canonical form, and the queue's commands
well formed. -/

namespace Sys2Proof.Machine

/-- Local memory stands in its canonical form: addresses rising strictly. A byte that is not listed holds undefined content (R590), so no
listed byte stands for what an unlisted one reads. -/
def Memory.wf (m : List Host.Cell) : Bool := Tab.sortedFrom 0 m

/-- The registers stand in their canonical form: keys rising strictly, none listed at its reset value. -/
def Regs.wf (t : Tab W32) : Bool := Tab.sortedFrom 0 t && t.all (fun e => !decide (e.2 = regReset e.1))

/-- The shared cache's counters that a demand access may move (Table 7.5): hits, fills, write-backs, misses that fill nothing, prefetched
lines used. -/
def cacheCtrs : List Nat := [0x400100, 0x400108, 0x400110, 0x400118, 0x400128]

/-- Every waiting command is well formed. -/
def queueOk (s : State) : Bool := s.pending.all Instr.wf

/-- Memory, registers and counters of a state stand in their canonical forms. -/
def State.tablesWf (s : State) : Bool := Memory.wf s.mem && Regs.wf s.regs && Tab.wf 0 s.ctr

end Sys2Proof.Machine
end

