-- ==== Sys2Proof/Certificates/Slice0/Obligations.lean ====
section
/-! DEFINITION. The statements about the model, for the provers. The namespace Say holds the words they are made of; each
`Obligations.<Name>` is one statement. -/

namespace Sys2Proof.Machine.Say

/-! ### Words of the statements -/

/-- The command answers a next state with a property. -/
def leads (i : Instr) (s : State) (P : State → Prop) : Prop := ∃ t, exec i s = .next t ∧ P t

/-- Counters other than those listed stand as before. -/
def ctrKept (s t : State) (ks : List Nat) : Prop := ∀ k, ¬ k ∈ ks → ctrGet t k = ctrGet s k

/-- A counter has counted n more, up to its largest value. -/
def ctrUp (s t : State) (k n : Nat) : Prop := ctrGet s k ≤ top64 → ctrGet t k = satAdd top64 (ctrGet s k) n

/-- Every register but those listed holds its word still. -/
def regsKept (s t : State) (ks : List Nat) : Prop := ∀ k, ¬ k ∈ ks → rd t k = rd s k

/-- Every byte of local memory but those of a set reads as before. -/
def memKept (s t : State) (away : Nat → Prop) : Prop := ∀ a, ¬ away a → lget t a = lget s a

/-- An address of the trace buffer (Table 20.4): the only local memory a command writes for the trace unit. -/
def inTrace (s : State) (a : Nat) : Prop :=
  let base := (rd s R.FL_TRACE_BASE_LO).toNat + rf s R.FL_TRACE_BASE_HI F.FL_TRACE_BASE_HI.ADDR * 2 ^ 32
  base ≤ a ∧ a < base + 32 * 2 ^ min 20 (max 10 (rf s R.FL_TRACE_SIZE F.FL_TRACE_SIZE.LOG2))

/-! ### Registers, start-up and islands (chapters 0 to 2) -/

/-- Host accesses reach the device at once: configuration space is ready, the device is in Run, no roll call is on, and every island
runs. -/
def hostOpen (s : State) : Prop := s.boot.cfgReady = true ∧ s.pwr.phase = .awake ∧ s.pwr.round = none ∧ s.islands = []

/-- No memory line holds an uncorrectable error, and no access has met one. -/
def noErrors (s : State) : Prop := s.cache.met = none ∧ ∀ l, lineErr s l = false

/-- What lookups and reads of local memory leave: translations held, the cache, and the count and records of malformed entries. -/
def lookedUp (s t : State) : Prop :=
  t = { s with xl := t.xl, cache := t.cache, ctr := t.ctr, regs := t.regs, log := t.log, freeCtr := t.freeCtr } ∧
  regsKept s t [R.MT_MALFORMED_COUNT] ∧ ctrKept s t (cacheCtrs ++ [0x400120, 0x400130, 0x400148])

/-- A write is ignored and counted in `HI_WRITE_REJECT`. -/
def onlyCounted (s t : State) : Prop :=
  t = { s with regs := t.regs } ∧ regsKept s t [R.HI_WRITE_REJECT] ∧
  (rd t R.HI_WRITE_REJECT).toNat = satAdd top32 (rd s R.HI_WRITE_REJECT).toNat 1

/-- A write before `DONE` is ignored, and counted twice: for the record at `DONE`, and in `HI_WRITE_REJECT` (R36). -/
def tooEarly (s t : State) : Prop := onlyCounted { s with boot := { s.boot with earlyWrites := s.boot.earlyWrites + 1 } } t

/-- The bits [hi:lo] of a word. -/
def bitsAt (w : W32) (r : FieldRow) : Nat := nbits w.toNat r.hi r.lo

/-- What a write leaves in a field, by its access code (Table 0.2, R7, R10, R12): `busy` is the block's state. -/
def written (busy : Bool) (r : FieldRow) (old v : W32) : Nat :=
  match r.acc with
  | .rwS => if busy then bitsAt old r else bitsAt v r
  | .rwB => bitsAt v r
  | .rwL => bitsAt v r
  | .w1c => Nat.land (bitsAt old r) (Nat.xor (2 ^ (r.hi + 1 - r.lo) - 1) (bitsAt v r))
  | _ => bitsAt old r

/-- Fields of a register lie in its word and do not overlap. -/
def fieldsApart (fs : List FieldRow) : Bool :=
  fs.all (fun r => decide (r.lo ≤ r.hi) && decide (r.hi < 32)) &&
  (List.range 32).all (fun b => decide ((fs.filter (fun r => decide (r.lo ≤ b) && decide (b ≤ r.hi))).length ≤ 1))

/-- Registers of blocks that do nothing but hold their fields (TT, CE, SH and TB). -/
def plainKey (k : Nat) : Prop := k / 0x100000 = 2 ∨ k / 0x100000 = 5 ∨ k / 0x100000 = 7 ∨ k / 0x100000 = 8

/-- No work, no object of a function, no link and no display state is left (R42). -/
def noWork (t : State) : Prop :=
  t.fns = [] ∧ t.progs = [] ∧ t.tt = State.reset.tt ∧ t.xl = State.reset.xl ∧ t.cache = State.reset.cache ∧ t.eng = [] ∧
  t.rend = State.reset.rend ∧ t.disp = Display.reset ∧ t.waves = [] ∧ t.groups = [] ∧ t.shOps = [] ∧ t.tmsgs = [] ∧
  t.link = State.reset.link ∧ t.pwr = Power.reset ∧ t.heldTlps = [] ∧ t.waiting = [] ∧ t.dispatched = 0 ∧ t.vfs = 0 ∧ t.ctr.all (fun e => isKa e.1 || isMb e.1) = true

/-- Registers that a start sets from straps, fuses and the core rail's state. -/
def strapKey (k : Nat) : Prop :=
  k = R.CP_BOOT_STATUS ∨ k = R.CP_OTP_STATUS ∨ (0x10F020 ≤ k ∧ k < 0x10F040) ∨ k = R.VR_STATUS

/-- Caretaker, its registers, the Logbook, the epoch and the coarse counter stand as before (R41). -/
def caretakerKept (s t : State) : Prop :=
  (∀ k, isKa k = true → rd t k = rd s k) ∧ t.care = s.care ∧ t.log = s.log ∧ t.clk.epoch = s.clk.epoch ∧ t.clk.coarse = s.clk.coarse

/-- The OTP slot, its fuse and programming under way stand as before. -/
def otpKept (s t : State) : Prop :=
  t.boot.otp = s.boot.otp ∧ t.boot.otpLocked = s.boot.otpLocked ∧ t.boot.otpUnknown = s.boot.otpUnknown ∧ t.boot.otpBusy = s.boot.otpBusy

/-- Local memory holds other content, which is undefined. -/
def memLost (s t : State) : Prop := t.mem = [] ∧ t.ramGen = s.ramGen + 1

/-- The device has restarted (R40 to R42): all work is gone without fences, every register but Caretaker's and the MB block's has its
reset value, start-up recurs, and Caretaker, the Logbook's records, the epoch, the coarse counter, the OTP and the straps stand. A
record may be on its way that a roll call given up with the work has made. -/
def restarted (s t : State) : Prop :=
  noWork t ∧ memLost s t ∧ caretakerKept s { t with log := s.log } ∧ otpKept s t ∧ (∃ l, t.log = { s.log with cross := s.log.cross ++ l }) ∧
  (s.pwr.round = none → t.log = s.log) ∧ bootDone t = false ∧ t.boot.img = [] ∧ t.boot.staging = [] ∧ t.boot.cfgReady = false ∧
  t.boot.trained = false ∧ t.boot.podId = s.boot.podId ∧ t.boot.ecc = s.boot.ecc ∧ t.boot.fitted = s.boot.fitted ∧
  t.boot.supplies = true ∧ (∀ k, isMb k = true → k ≠ R.MB_ATTENTION → rd t k = rd s k) ∧
  (∀ k, isKa k = false → isMb k = false → ¬ strapKey k → rd t k = regReset k)

/-- A flash image waits for its checks. -/
def imageLoaded (s : State) : Prop := s.boot.imgPhase = .loaded ∧ s.boot.imgHost = false ∧ s.boot.otpUnknown = false

/-- The header check passes (R51): MAGIC has been seen; the length is in order. -/
def lengthOk (img : List Byte) : Prop :=
  imgWord img 8 % 4 = 0 ∧ 64 ≤ imgWord img 8 ∧ imgWord img 8 ≤ 1048576 ∧ imgWord img 8 ≤ img.length

/-- A version the device implements (R48): minor in [15:0], major in [31:16]. -/
def knownVersion (img : List Byte) : Prop := imgWord img 4 = 0x10000 ∨ imgWord img 4 = 0x10001

/-- The first record made since is this event's. -/
def recorded (s t : State) (event : Nat) : Prop := (t.log.cross[s.log.cross.length]?).map (·.event) = some event

/-- A flash image is refused with a STATUS and an outcome, and no register but the two that say so changes (R53, R58). -/
def refusedImage (s t : State) (event status outcome : Nat) : Prop :=
  recorded s t event ∧
  rf t R.CP_CONFIG_RESULT F.CP_CONFIG_RESULT.STATUS = status ∧ rf t R.CP_BOOT_STATUS F.CP_BOOT_STATUS.IMAGE_OUTCOME = outcome ∧
  t.boot.imgPhase = .settled ∧ regsKept s t [R.CP_CONFIG_RESULT, R.CP_BOOT_STATUS] ∧ t.mem = s.mem ∧ t.fns = s.fns

/-- An image record is at the cursor: its type, and its words. -/
def recordAt (s : State) (type : Nat) : Prop := s.boot.imgPhase = .applying ∧ nbits (imgWord s.boot.img s.boot.imgCursor) 7 0 = type

/-- The noticeboard's page goes out where it is scanned out: 1280 × 720 at 60 Hz, 74.25 MHz, 8 bits a component (R44). -/
def pageSent (s t : State) : Prop :=
  (rb s R.CP_BOOT_STATUS F.CP_BOOT_STATUS.NB_ACTIVE = true → t.out = s.out ++ [.notice 1280 720 60 74250 8 (noticePage t)]) ∧
  (rb s R.CP_BOOT_STATUS F.CP_BOOT_STATUS.NB_ACTIVE = false → t.out = s.out)

/-- Words of the record at the cursor after DW0, counted from 0. -/
def recordWord (s : State) (n : Nat) : Nat := imgWord s.boot.img (s.boot.imgCursor + 4 + 4 * n)

/-- The cursor has passed the record: DW0 and its N words. -/
def recordTaken (s t : State) : Prop :=
  t.boot.imgCursor = s.boot.imgCursor + 4 + 4 * nbits (imgWord s.boot.img s.boot.imgCursor) 15 8

/-- A register whose write by an image changes its fields and nothing else: blocks TT, CE, SH, TB, and DC but for the AUX start. -/
def presetPlain (k : Nat) : Prop := k < 0x1000000 ∧ plainKey k ∧ k % 4 = 0

/-- The state with TAP instruction i loaded and no restart. -/
def withIr (s : State) (i : Nat) : State := { s with jtag := { s.jtag with ir := i } }

/-- The TAP's instructions but SAMPLE/PRELOAD, and what each loads into the instruction register. -/
def tapRows : List (Instr × Nat) := [(.jtagBypass, 0), (.jtagExtest true, 0), (.jtagExtest false, 2), (.jtagClamp, 3), (.jtagHighz, 4)]

/-- The accesses that waited for islands, and whose islands run now, are made in order; the others wait on (R19, R21). -/
def served (u t : State) : Prop :=
  t = (u.waiting.filter (reachable u)).foldl (fun s i => hostEffect i s) { u with waiting := u.waiting.filter (fun i => !reachable u i) }

/-- The bytes of a write whose byte enables are set, each with its place. -/
def enabledAt (bs : List (Option Byte)) (i : Nat) : Option Byte := (bs[i]?).getD none

/-- PF BAR2 serves an access: start-up is complete, and the device is not wedged. -/
def bar2Open (s : State) : Prop := hostOpen s ∧ bootDone s = true ∧ wedgedNow s = false ∧ noErrors s

/-- A range of PF BAR2 is local memory: the staging buffer is closed or ends before it, and it lies below the capacity. -/
def bar2Local (s : State) (off n : Nat) : Prop :=
  off < 0x4000000 ∧ (rb s R.CP_STAGE_CTRL F.CP_STAGE_CTRL.STAGE_EN = false ∨ 0x100000 ≤ off) ∧ apertureBase s + off + n ≤ capBytes s

/-- A range of PF BAR2 is the staging buffer. -/
def bar2Staged (s : State) (off n : Nat) : Prop := rb s R.CP_STAGE_CTRL F.CP_STAGE_CTRL.STAGE_EN = true ∧ off + n ≤ 0x100000

/-- Every byte of a range of PF BAR2 lies beyond the capacity. -/
def bar2Beyond (s : State) (off : Nat) : Prop :=
  off < 0x4000000 ∧ (rb s R.CP_STAGE_CTRL F.CP_STAGE_CTRL.STAGE_EN = false ∨ 0x100000 ≤ off) ∧ capBytes s ≤ apertureBase s + off

/-! ### The host interface (chapter 3) -/

/-- Counters of the trace unit, and those of the shared cache that its records pass. -/
def traceCtrs : List Nat := [0xF00438, 0xF00440] ++ cacheCtrs

/-- The state u, and what the trace unit may have written in recording one event of it. -/
def traced (u t : State) : Prop :=
  regsKept u t [R.FL_TRACE_WRITTEN] ∧ ctrKept u t traceCtrs ∧ memKept u t (inTrace u) ∧
  t = { u with regs := t.regs, ctr := t.ctr, mem := t.mem, cache := t.cache, trace := t.trace }

/-- A held one-bit field reads 1. -/
def isSet (s : State) (k : Nat) (fd : Fld) : Prop := rb s k fd = true

/-- It reads 0. -/
def isClear (s : State) (k : Nat) (fd : Fld) : Prop := rf s k fd = 0

/-- The objects of every other function stand. -/
def othersKept (s t : State) (f : Nat) : Prop := ∀ g, g ≠ f → getFn t g = getFn s g

/-- The packet at a position is in flight and its work has ended so. -/
def ended (t : State) (f pos status result : Nat) : Prop :=
  ∃ q, getPkt t f pos = some q ∧ q.phase = .complete ∧ q.status = status ∧ q.result = result

/-- The registers of a function that a write of RING_EN may change. -/
def enableKeys (f : Nat) : List Nat := [R.HI_FN_CTRL f, R.HI_FN_STATUS f, R.HI_FN_ENABLE_STATUS f]

/-- An enable refused: RING_EN back at 0, ENABLED at 0, ENABLE_ERR set, with a status (R78). -/
def enableRefused (s t : State) (f status : Nat) : Prop :=
  isClear t (R.HI_FN_CTRL f) F.HI_FN_CTRL.RING_EN ∧ isSet t (R.HI_FN_STATUS f) F.HI_FN_STATUS.ENABLE_ERR ∧
  fnEnabled t f = false ∧ rf t (R.HI_FN_ENABLE_STATUS f) F.HI_FN_ENABLE_STATUS.STATUS = status ∧ t.mem = s.mem ∧ t.fns = s.fns

/-- A ring reset has taken effect (R97): the counts are 0 and the ring is off; fence record, counters and objects stand. -/
def ringIsReset (s t : State) (f : Nat) : Prop :=
  rd t (R.HI_RING_HEAD f) = 0 ∧ rd t (R.HI_RING_TAIL f) = 0 ∧ rd t (R.HI_REPLY_TAIL f) = 0 ∧ rd t (R.HI_REPLY_HEAD f) = 0 ∧
  fnEnabled t f = false ∧ fnHalted t f = false ∧ isClear t (R.HI_FN_CTRL f) F.HI_FN_CTRL.STOP ∧
  isClear t (R.HI_FN_CTRL f) F.HI_FN_CTRL.RING_EN ∧
  regsKept s t [R.HI_RING_HEAD f, R.HI_RING_TAIL f, R.HI_REPLY_TAIL f, R.HI_REPLY_HEAD f, R.HI_FN_CTRL f, R.HI_FN_STATUS f]

/-- The 64-byte words of a packet group at the head. -/
def groupAtHead (s : State) (f ext : Nat) : List W32 :=
  ((List.range (ext + 1)).map (fun i => slotWords s f (ringHead s f + i))).flatten

/-- The packet group at the head: its extension count, every slot below the tail and readable (R82, R594). -/
def groupCovered (s : State) (f ext : Nat) : Prop :=
  fld ((slotWords s f (ringHead s f))[1]?.getD 0) 31 16 = ext ∧ 1 + ext ≤ sub32 (ringTail s f) (ringHead s f) ∧
  ∀ i, i ≤ ext → rangeIssue s 20 f (slotVa s f (ringHead s f + i)) 64 false false = none

/-- A packet as it enters flight. -/
def asFetched (s : State) (f ext : Nat) : Packet :=
  { pos := ringHead s f, words := groupAtHead s f ext, phase := .fetched, status := 0, result := 0, tDispatch := fineNow s, tStart := none
    noFence := false, held := false, replied := false, discarded := false, remoteWait := false, loadRefused := false, order := 0 }

/-- The status of the first check of Table 4.2 that a packet fails. -/
def parseFails (s : State) (f : Nat) (p : Packet) : Option Nat :=
  match commonChecks f p with
  | some st => some st
  | none => if fenceCheck (getFn s f) p && bodyClean p && formKnown p then none else some St.BAD_PARAM

/-- A completed packet whose report can be written now. -/
def reportable (s : State) (f pos : Nat) (p : Packet) : Prop :=
  noErrors s ∧ getPkt s f pos = some p ∧ p.phase = .complete ∧ reportWaits (getFn s f) p = false ∧ wedgedNow s = false ∧ mayReport s f = true ∧
  rb s (R.HI_FN_STATUS f) F.HI_FN_STATUS.REPLY_FULL = false

/-- A vector's message is sent or its pending bit set when the vector is raised (R95). -/
def raised (s t : State) (f vec : Nat) : Prop :=
  ((getFn s f).msixEn = false → t.out = s.out ∧ t.fns = s.fns) ∧
  ((getFn s f).msixEn = true → (getFn s f).fnMask = false → (Tab.get Vector.reset (getFn s f).msix vec).masked = false →
    t.out = s.out ++ [.msix f vec (Tab.get Vector.reset (getFn s f).msix vec).addr (Tab.get Vector.reset (getFn s f).msix vec).data]) ∧
  ((getFn s f).msixEn = true → ((getFn s f).fnMask = true ∨ (Tab.get Vector.reset (getFn s f).msix vec).masked = true) →
    t.out = s.out ∧ getFn t f = { getFn s f with pba := (getFn t f).pba } ∧ nbit (getFn t f).pba vec = true)

/-- Nothing waits for another function's work to end: no pass is due, no transfer is at an engine, no draw list is queued, and no memory
error is to be raised. -/
def unitsStill (s : State) : Prop :=
  s.tt.passDue = false ∧ s.cache.met = none ∧ s.rend.queue = [] ∧ ∀ e, e < 4 → getEng s e = Engine.reset

/-- A function after its reset (R100): no object but its quota and its error log, its window at reset values, its counters at 0. -/
def functionIsReset (s t : State) (f : Nat) : Prop :=
  getFn t f = { Fn.dflt f with quota := (getFn s f).quota, aer := (getFn s f).aer } ∧
  (∀ k, fnWin f ≤ k → k < fnWin f + 0x10000 → rd t k = regReset k ∧ ctrGet t k = 0) ∧
  (∀ p ∈ t.progs, p.fn ≠ f) ∧ (∀ j ∈ t.tt.jobs, j.fn ≠ f) ∧ (∀ e ∈ t.xl.atc, e.fn ≠ f) ∧ (∀ w ∈ t.waves, w.fn ≠ f)

/-! ### Command packets (chapter 4) -/

/-- A packet in flight carries an opcode, nothing holds it, and no LOAD_PROGRAM it waited for was refused (R108, R109, R112, R114, R117). -/
def ready (s : State) (f pos op : Nat) (p : Packet) : Prop :=
  getPkt s f pos = some p ∧ p.opcode = op ∧ dispatchable (getFn s f) p = true ∧ p.loadRefused = false ∧ noErrors s

/-- The packet as dispatched: marked, with the fine tick and its place in the order of dispatch. -/
def asTaken (s : State) (p : Packet) : Packet := { p with phase := .dispatched, tDispatch := fineNow s, order := s.dispatched }

/-- Its dispatch. -/
def begun (s : State) (f pos : Nat) : State := modPkt { s with dispatched := s.dispatched + 1 } f pos (asTaken s)

/-- What follows a dispatch: its trace record, and the packets of the function whose condition now holds. -/
def follows (u t : State) (f : Nat) (p : Packet) : Prop :=
  t = settleFn (traceEv u 2 1 f (some p.tag) false (bytesLE 1 p.opcode ++ bytesLE 4 p.pos)) f

/-- Positions of the packets in flight differ. -/
def posApart (s : State) (f : Nat) : Prop := ((getFn s f).packets.map (·.pos)).Nodup

/-- Nothing but the packet at one position changes. -/
def packetOnly (s u : State) (f pos : Nat) : Prop :=
  u = { s with fns := u.fns, dispatched := s.dispatched + 1 } ∧ othersKept s u f ∧ getFn u f = { getFn s f with packets := (getFn u f).packets } ∧
  ∀ q, q ≠ pos → getPkt u f q = getPkt s f q

/-- A packet is refused (R106): its status, no RESULT, one count, and nothing else but the refusal registers and the trace. -/
def refusedAs (s u : State) (f pos status : Nat) : Prop :=
  ended u f pos status 0 ∧ ctrUp s u (C.FN f 0x1008) 1 ∧ ctrKept s u (C.FN f 0x1008 :: traceCtrs) ∧
  regsKept s u [R.CP_LAST_REFUSAL_0, R.CP_LAST_REFUSAL_1, R.FL_TRACE_WRITTEN] ∧ memKept s u (inTrace s) ∧ othersKept s u f ∧
  (∀ q, q ≠ pos → getPkt u f q = getPkt s f q) ∧
  u = { s with fns := u.fns, ctr := u.ctr, regs := u.regs, mem := u.mem, cache := u.cache, trace := u.trace, dispatched := u.dispatched }

/-- A request of a packet waits for its peer's answer, and the packet is in flight (R115, R407, R408). The request is sent at once where
no other waits and its port has room (R402). -/
def askedPeer (s u : State) (f : Nat) (p : Packet) (pod type : Nat) : Prop :=
  (∃ r v, r.pod = pod ∧ r.type = type ∧ r.fn = f ∧ r.pos = p.pos ∧ r.owner = .packet ∧ r.sent = false ∧
    v = { begun s f p.pos with link := { s.link with reqs := s.link.reqs ++ [r] } } ∧ u = issueWaiting v ∧
    ((∀ x ∈ s.link.reqs, x.sent = true) → (∃ q w, streamRoute s pod (mClass r.msg) = some (q, w) ∧ portRoom s q = true) →
      ∃ x ∈ u.link.reqs, x.sent = true ∧ x.type = type ∧ x.pod = pod ∧ x.fn = f ∧ x.pos = p.pos)) ∧
  getPkt u f p.pos = some (asTaken s p) ∧ othersKept s u f

/-- A job packet is refused at entry (R134): its status, no RESULT, and one count in its class; it is no parse refusal. -/
def entryRefused (s u : State) (f : Nat) (p : Packet) (status : Nat) : Prop :=
  ended u f p.pos status 0 ∧ ctrUp s u (C.FN f (0x1030 + 0x18 * p.cls)) 1 ∧ ctrKept s u (C.FN f (0x1030 + 0x18 * p.cls) :: traceCtrs) ∧
  regsKept s u [R.FL_TRACE_WRITTEN] ∧ memKept s u (inTrace s) ∧ othersKept s u f ∧ (∀ q, q ≠ p.pos → getPkt u f q = getPkt s f q) ∧
  u = { s with fns := u.fns, ctr := u.ctr, regs := u.regs, mem := u.mem, cache := u.cache, trace := u.trace }

/-- Every earlier packet of the ring is complete. -/
def alone (s : State) (f pos : Nat) : Prop := ∀ q ∈ earlier (getFn s f) pos, q.phase = .complete

/-- The row of the table that dispatches an opcode. -/
def rowOf (f pos : Nat) : Nat → Option Instr
  | 0x00 => some (.pktNop f pos)
  | 0x02 => some (.pktSignalFence f pos)
  | 0x03 => some (.pktWaitFence f pos)
  | 0x10 => some (.pktLoadProgram f pos)
  | 0x12 => some (.pktRunJob f pos)
  | 0x13 => some (.pktRunBatch f pos)
  | 0x14 => some (.pktStepJoin f pos)
  | 0x16 => some (.pktResolvePencil f pos)
  | 0x20 => some (.pktCopy f pos)
  | 0x21 => some (.pktCopyCompress f pos)
  | 0x22 => some (.pktCopyDecompress f pos)
  | 0x23 => some (.pktRegionUpdate f pos)
  | 0x24 => some (.pktFill f pos)
  | 0x30 => some (.pktDrawList f pos)
  | 0x40 => some (.pktLayerFlip f pos)
  | 0x41 => some (.pktDisplayConfig f pos)
  | 0x50 => some (.pktLinkSend f pos)
  | 0x70 => some (.pktConfigApply f pos)
  | 0x71 => some (.pktPowerRequest f pos)
  | 0x72 => some (.pktQuotaSet f pos)
  | _ => none

/-- What a QUERY or COUNTER_SNAPSHOT needs before it writes n bytes at a virtual address: pages pinned, nothing to wait for, local
memory from an address on, no trace record. -/
def resultPlace (b : State) (f pos va n a : Nat) : Prop :=
  let v := touchPages b f va n
  let u := touchVA (startPkt v f pos) 20 f va n true true
  pinned v f va n true = true ∧ blockRanges v 20 f [⟨va, n, true⟩] = .none ∧ wedgedNow b = false ∧
  rb b R.FL_TRACE_CTRL F.FL_TRACE_CTRL.EN = false ∧ (∀ r ∈ b.link.reqs, ¬(r.fn = f ∧ r.pos = pos)) ∧
  ∀ i, i < n → tlbFind u 20 f (va + i) ≠ none ∧ xlate u 20 f (va + i) true true = .loc (a + i)

/-- A job is queued: the last of the table's jobs, with the packet's fields (5.2, Table 4.7). -/
def queuedJob (s v : State) (f : Nat) (p : Packet) (g : Prog) (n : Nat) : Prop :=
  ∃ j, v.tt.jobs = s.tt.jobs ++ [j] ∧ v.tt.nextOrder = s.tt.nextOrder + 1 ∧ j.fn = f ∧ j.prog = g.id ∧ j.order = s.tt.nextOrder ∧
    j.cls = p.cls ∧ j.submitted = p.cls ∧ j.elems.length = n ∧ (∀ e ∈ j.elems, e.pos = p.pos ∧ e.binds = bindingsOf p) ∧
    j.budget = jobBudget s f p ∧ j.deadline = p.bits 6 23 0 ∧ j.holds = false ∧ j.running = false ∧
    getPkt v f p.pos = some (asTaken s p)

/-- Fields of a QUOTA_SET in range (Table 4.15, R126). -/
def quotaFits (s : State) (p : Packet) : Prop :=
  p.bits 4 6 0 ≤ s.vfs ∧ p.bits 5 4 0 ≤ 16 ∧ (p.dw 6).toNat ≤ 16384 ∧ (p.dw 7).toNat ≤ 16384 ∧ (p.dw 8).toNat ≤ 16384 ∧
  p.bits 10 6 0 ≤ 64 ∧ p.bits 11 23 0 ≠ 0 ∧ shareSum s (p.bits 4 6 0) (p.bits 10 6 0) ≤ 64

/-- A LOAD_PROGRAM passes all its checks (Table 4.6, R127, Table 5.2): b is the state as dispatched. -/
def loadsWell (b : State) (f : Nat) (p : Packet) (g : Prog) : Prop :=
  let a := p.addr 5
  let len := (p.dw 7).toNat
  let s1 := touchPages b f a len
  let bs := (List.range len).map (fun i => vaByte s1 20 f (a + i))
  let w := wordsOf (len / 4) bs
  let s2 := forgetRemote (touchVA s1 20 f a len true false) 20 f [⟨a, len, false⟩]
  b.cache.transition = none ∧ getProg b f (p.bits 4 11 0) = none ∧ alone b f p.pos ∧ a % 256 = 0 ∧ len % 256 = 0 ∧ 256 ≤ len ∧ len ≤ 67108864 ∧
  a + len ≤ 2 ^ 48 ∧ pinned s1 f a len false = true ∧ blockRanges s1 20 f [⟨a, len, false⟩] = .none ∧
  g = progOf f (p.bits 4 11 0) a len w ∧ imageChecks w g len = true ∧ extentsPinned s2 f (residentExtents g) = true ∧ admits s2 f g = true

/-! ### Timetable, translation, the shared cache and the copy engines (chapters 5 to 8) -/

/-- A promotion is due (R144): waiting time since entry for class 3, since the promotion for class 2; a time of 0 never promotes. -/
def dueFrom3 (s : State) (tEntry : Nat) : Prop :=
  ff s R.TT_AGE_3 F.TT_AGE_3.WAIT ≠ 0 ∧ tEntry + 100 * ff s R.TT_AGE_3 F.TT_AGE_3.WAIT ≤ fineNow s
def dueFrom2 (s : State) (tPromo : Nat) : Prop :=
  ff s R.TT_AGE_2 F.TT_AGE_2.WAIT ≠ 0 ∧ tPromo + 100 * ff s R.TT_AGE_2 F.TT_AGE_2.WAIT ≤ fineNow s

/-- What ageing makes of a job. -/
def agedTo (s : State) (j k : Job) : Prop :=
  (j.holds = false → j.cls = 3 → dueFrom3 s j.tEntry → k = { j with cls := 2, tPromo := fineNow s }) ∧
  (j.holds = false → j.cls = 2 → dueFrom2 s j.tPromo → k = { j with cls := 1, tPromo := fineNow s }) ∧
  (j.holds = true ∨ (j.cls ≠ 2 ∧ j.cls ≠ 3) ∨ (j.cls = 3 ∧ ¬ dueFrom3 s j.tEntry) ∨ (j.cls = 2 ∧ ¬ dueFrom2 s j.tPromo) → k = j)

/-- Whole µs a job has run. -/
def ranFor (s : State) (j : Job) : Nat := (fineNow s - j.tStart) / 100

/-- No held translation matches an invalidation. -/
def noneLeft (t : State) (q : Nat × Bool × Nat × Nat) : Prop :=
  (∀ e ∈ t.xl.shared, ∀ x ∈ e.2, invalCovers q x.fn x.va (2 ^ x.log2) = false) ∧
  (∀ e ∈ t.xl.local_, ∀ x ∈ e.2, invalCovers q x.fn x.va (2 ^ x.log2) = false) ∧
  (∀ x ∈ t.xl.walk, invalCovers q x.fn x.va (2 ^ x.log2) = false)

/-- The 4 KiB page of a host address. -/
def hostPage (a : Nat) : Nat := a / 4096 * 4096

/-- The transfer of a packet has failed so. -/
def xferFailed (t : State) (e f pos status : Nat) : Prop := ∃ y, findXfer t e f pos = some y ∧ y.phase = .failed ∧ y.status = status

/-- The engine's transfers are all idle: nothing runs or is held. -/
def enginesIdle (s : State) : Prop := ∀ e, (getEng s e).running = none ∧ (getEng s e).held = []

/-! ### Numbers, operators, pencil (chapters 9 to 11) -/

/-- The row of the table that runs an operator family, and what it computes (Table 10.5). -/
def opRow (f pos st : Nat) : Nat → Option (Instr × (OpCtx → State → OpResult))
  | 0x01 => some (.opConv f pos st, OpCtx.conv)
  | 0x02 => some (.opMatmul f pos st, OpCtx.matmul)
  | 0x03 => some (.opAttention f pos st, OpCtx.attention)
  | 0x10 => some (.opPool f pos st, OpCtx.pool)
  | 0x11 => some (.opEltwise f pos st, OpCtx.eltwise)
  | 0x12 => some (.opReduce f pos st, OpCtx.reduce)
  | 0x13 => some (.opResize f pos st, OpCtx.resize)
  | 0x14 => some (.opCropGather f pos st, OpCtx.crop)
  | 0x15 => some (.opNms f pos st, OpCtx.nms)
  | _ => none

/-- A stage of a running job has an operator to run now, and the job's stages are up to date. -/
def opNext (s : State) (f pos st : Nat) (j : Job) (g : Prog) (op : Nat) : Prop :=
  noErrors s ∧ getJob s f pos = some j ∧ j.running = true ∧ j.cut = none ∧ getProg s f j.prog = some g ∧ settleStages s j g = s ∧ sameJob s j = j ∧
  stageRuns j g st = true ∧ nextOp j g st = some op

/-- Everything the elements of an operator read, and write where they write to their destinations. -/
def opRanges (j : Job) (g : Prog) (st op : Nat) : List Range := ((opCtxs j g st op).map (fun c => c.2.ranges)).flatten

/-- What an operator's reads leave before any result takes its place: translations, cache state and counts, and the trace. -/
def readsOnly (s v : State) (cl : List Nat) : Prop :=
  memKept s v (inTrace s) ∧
  regsKept s v (R.FL_TRACE_WRITTEN :: R.MT_MALFORMED_COUNT :: cl.map R.TX_CLUSTER_n_TILES ++ cl.map R.TX_CLUSTER_n_PENCIL_TILES) ∧
  v = { s with mem := v.mem, xl := v.xl, cache := v.cache, ctr := v.ctr, regs := v.regs, log := v.log, link := v.link, trace := v.trace
               freeCtr := v.freeCtr }

/-- The operator is done: the stage goes on to its next one, with the trace record of the end. -/
def operatorDone (v t : State) (j : Job) (st : Nat) : Prop := traced (advanceOp v j st) t

/-- The sum of EXACT_INT (R241), with what SAT becomes. -/
def intSum (i : Int) (ps : List Int) : Int × Bool :=
  ps.foldl (fun r p => (clampInt (-2147483648) 2147483647 (r.1 + p),
    r.2 || decide (r.1 + p < -2147483648) || decide (2147483647 < r.1 + p))) (i, false)

/-- Two boxes may both be kept (R267). -/
def boxesApart (box : Nat → List (Flagged Num)) (thr : Num) (per : Bool) (k x : Cand) : Prop :=
  (per = true ∧ k.cls ≠ x.cls) ∨ Num.lt (iou (box k.box) (box x.box)).1 thr = true ∨ Num.eqv (iou (box k.box) (box x.box)).1 thr = true

/-- Every element's results take their place in ascending order, each after the trace records of its tensor tiles (R271, R550). -/
def resultsTaken (s v : State) (j : Job) (g : Prog) (st op : Nat) (compute : OpCtx → State → OpResult) : State :=
  (opCtxs j g st op).foldl (fun u c =>
    takeResult (traceTiles u (opCtxs j g st op).length c.2 (compute c.2 s).flags) c.1 c.2 (compute c.2 s)) v

/-- One provisional stage of a running job, in every element undecided. -/
def onlyProv (s : State) (j : Job) (g : Prog) (st : Nat) : Prop :=
  j.running = true ∧ j.cut = none ∧ sameJob s j = j ∧ j ∈ s.tt.jobs ∧ (∀ k ∈ s.tt.jobs, k.order = j.order → k = j) ∧ st < g.stages.length ∧
  (∀ n, (stageDecl g n).prov = true ↔ n = st) ∧ (∀ e ∈ j.elems, (stageElem e st).ending = .undecided ∧ (stageElem e st).trap = none)

/-! ### Tile renderer (chapter 13), compositor and display (chapter 14) -/

/-- The row of a record type (Table 13.2). -/
def drawRow : Nat → Option Instr
  | 0x00 => some .drawNop
  | 0x01 => some .drawRect
  | 0x02 => some .drawBox
  | 0x03 => some .drawPoint
  | 0x04 => some .drawLine
  | 0x05 => some .drawTriangle
  | 0x06 => some .drawGlyph
  | 0x10 => some .drawSetClip
  | 0x11 => some .drawSetAtlas
  | 0x12 => some .drawClear
  | 0xFF => some .drawEnd
  | _ => none

/-- A list runs and has a record to read; u is the state once it is read, r the record. -/
def drawing (s u : State) (d : Draw) (p : Packet) (r : Rec) : Prop :=
  noErrors s ∧ s.rend.cur = some d ∧ getPkt s d.fn d.pos = some p ∧ p.phase ≠ .complete ∧ listOver d p = false ∧
  blockRanges s 21 d.fn [⟨dlList p + 32 * d.cursor, 32, false⟩] = .none ∧
  u = touchVA s 21 d.fn (dlList p + 32 * d.cursor) 32 true false ∧ r = readRec u d p d.cursor


/-- A list has ended with its report; the queue goes on from here. -/
def listEnded (w : State) (u : State) (d : Draw) (status tiles : Nat) : Prop :=
  w.rend.cur = none ∧ w.rend.queue = u.rend.queue ∧ ended w d.fn d.pos status (tiles % 2 ^ 32)

/-- A list goes on from v, its record taken, or ends there where that was its last record: the pass of R339 takes place first (R327). -/
def listGoes (v t : State) (d : Draw) (p : Packet) : Prop :=
  (listOver d p = false → t = v) ∧
  (listOver d p = true →
    (blockRanges v 21 d.fn (shadeRanges d p) = .none → ∃ w, t = kickDraw w ∧ listEnded w v d St.DONE (d.tiles + (passTiles d p).length)) ∧
    (blockRanges v 21 d.fn (shadeRanges d p) = .waits → t = askRanges v .draw 21 5 0 d.fn d.pos (shadeRanges d p)))

/-- The record has only changed the list's own state, and is counted; then the list goes on. -/
def recordTook (u t : State) (d' : Draw) (p : Packet) : Prop :=
  ∃ v, v = { u with rend := { u.rend with cur := some d' }, ctr := v.ctr } ∧ ctrUp u v 0x800110 1 ∧ ctrKept u v [0x800110] ∧
    listGoes v t d' p

/-- A failed list leaves its status, function, record and position (Table 13.7). -/
def lastError (w : State) (d : Draw) (status : Nat) : Prop :=
  (rd w R.TB_LAST_ERROR_0).toNat = status + d.fn * 2 ^ 16 + 2 ^ 31 ∧ (rd w R.TB_LAST_ERROR_1).toNat = d.cursor ∧
  (rd w R.TB_LAST_ERROR_2).toNat = d.pos

/-- A pixel of a box lies in a pixel tile. -/
def boxIn (p : Packet) (b : PxRect) (t : Nat) : Prop := ∃ x y : Nat, b.has x y = true ∧ t = y / 32 * dlTX p + x / 32

/-- The box a primitive is binned by (R336). -/
def binBox (d : Draw) (p : Packet) (r : Rec) : PxRect := (primBox r).meet (clipOf p d d.clip)

/-- A layer's configuration is valid with the buffer that it would show. -/
def layerGood (s : State) (n : Nat) : Bool :=
  match (getLayer s n).pend, (getLayer s n).bound with
  | some x, _ => layerValid s (latchView s) n x
  | none, some x => layerValid s (latchView s) n x
  | none, none => true

/-- What every latch does but to layers: the values written are latched, the rest of the device stands. -/
def latchTook (s t : State) (r : LatchRes) : Prop :=
  t.disp = { s.disp with latched := some r, layers := t.disp.layers } ∧ memKept s t (inTrace s) ∧
  (∀ k, Tab.find r.regs k = if k ∈ s.dirty ∧ inDC k = true then some (rd s k) else none) ∧
  (∀ k, k ∈ t.dirty ↔ k ∈ s.dirty ∧ inDC k = false) ∧ t.force = s.force

/-- No DISPLAY_CONFIG waits for this frame start, or trains the link. -/
def cfgIdle (s : State) : Prop := ∀ pos, s.disp.cfgCur ≠ some (pos, .ready) ∧ s.disp.cfgCur ≠ some (pos, .train)

/-- The main link stops and trains anew for what should drive it (R368). -/
def retrains (d : Display) : Display :=
  { d with train := wantsLink d, linkUp := false, frame := d.frame.map (fun f => { f with dpOut := false }) }

/-- A frame begins (R347, R348). -/
def frameBegun (s u : State) (r : LatchRes) : Prop :=
  u.disp = { s.disp with count := s.disp.count + 1, latched := none
                         frame := some ⟨s.disp.count + 1, fineNow s, s.clk.epoch.toNat, s.disp.cfg.dpEn && s.disp.linkUp,
                           !s.disp.hpd, r, boundBufs s⟩ } ∧
  rd u R.DC_FRAME_COUNT_LO = BitVec.ofNat 32 (s.disp.count + 1) ∧
  rd u R.DC_FRAME_COUNT_HI = BitVec.ofNat 32 ((s.disp.count + 1) / 2 ^ 32) ∧
  isClear u R.CP_BOOT_STATUS F.CP_BOOT_STATUS.NB_ACTIVE ∧
  rf u R.DC_STATUS F.DC_STATUS.DP_ACTIVE = b2n (s.disp.cfg.dpEn && s.disp.linkUp) ∧ ctrUp s u 0x900200 1 ∧
  regsKept s u [R.DC_FRAME_COUNT_LO, R.DC_FRAME_COUNT_HI, R.CP_BOOT_STATUS, R.DC_STATUS] ∧ ctrKept s u [0x900200] ∧
  (∀ k, inForce u k = (Tab.find r.regs k).getD (inForce s k)) ∧
  u = { s with disp := u.disp, regs := u.regs, ctr := u.ctr, force := u.force }

/-! ### Shader waves (chapter 12) -/

/-- The wave in slot w of core k stands at an instruction of opcode opc, with its context; no barrier holds it. -/
structure Ready (s : State) (k w opc : Nat) (x : WaveCtx) : Prop where
  sound : noErrors s
  ctx : waveCtx s k w = some x
  free : x.w.atBar = false
  op : iOpc x.i = opc
  here : x.w.pc < x.code.length

/-- An issued instruction is counted, with the lanes active at its issue (Table 12.20). -/
def counted (s t : State) (x : WaveCtx) : Prop :=
  ctrUp s t 0x701000 1 ∧ ctrUp s t 0x701008 ((List.range 32).filter (fun l => nbit x.w.active l)).length ∧
  (if x.c.early then ctrUp s t 0x701010 1 else ctrGet t 0x701010 = ctrGet s 0x701010) ∧
  ctrKept s t [0x701000, 0x701008, 0x701010]

/-- The waves with the wave of x become w'. -/
def wavesWith (s : State) (x : WaveCtx) (w' : Wave) : List Wave :=
  s.waves.map (fun y => if y.core = x.w.core ∧ y.slot = x.w.slot then w' else y)

/-- The instruction is issued, its wave becomes w', and nothing else of the device changes. -/
def issued (s t : State) (x : WaveCtx) (w' : Wave) : Prop :=
  t = { s with waves := wavesWith s x w', ctr := t.ctr } ∧ counted s t x

/-- A lane acts: it is active and the guard holds in it (R303). -/
def laneActs (x : WaveCtx) (l : Nat) : Prop := nbit x.w.active l = true ∧ nbit (x.w.cond x.i) l = true

/-- D holds h in each lane that acts, or once in the scalar D where the instruction is uniform; every other register of the
wave is kept, and the wave goes on to the next instruction (R302, R303). -/
def dest (x : WaveCtx) (w' : Wave) (h : Nat → W32) : Prop :=
  w' = { x.w with pc := x.w.pc + 1, vregs := w'.vregs, sregs := w'.sregs } ∧
  (iU x.i = true → w'.vregs = x.w.vregs ∧ ∀ r, w'.s r = if r = iD x.i then h 0 else x.w.s r) ∧
  (iU x.i = false → w'.sregs = x.w.sregs ∧
    ∀ r l, l < 32 → (r = iD x.i ∧ laneActs x l → w'.v r l = h l) ∧ (¬(r = iD x.i ∧ laneActs x l) → w'.v r l = x.w.v r l))

/-- An instruction whose whole effect is to write D, where P holds: h gives the value in each lane. -/
def places (mk : Nat → Nat → Instr) (opc : Nat) (P : WaveCtx → Prop) (h : State → WaveCtx → Nat → W32) : Prop :=
  ∀ s k w x, Ready s k w opc x → x.w.pc + 1 < x.code.length → P x →
    ∃ t w', exec (mk k w) s = .next t ∧ issued s t x w' ∧ dest x w' (h s x)

/-- An instruction whose whole effect is D := f(A, B, C). -/
def computes (mk : Nat → Nat → Instr) (opc : Nat) (f : W32 → W32 → W32 → W32) : Prop :=
  places mk opc (fun _ => True) (fun _ x l => f (x.w.a x.i l) (x.w.b x.i l) (x.w.c x.i l))

/-- A function that the spec bounds to 2 units in the last place and does not fix (R305): `y` is the exact value. The device's own
bits count within the bound, the rounded value else; zeros, infinities and NaNs are IEEE 754's. -/
def bounded (y : Machine.Num) (own : W32) : W32 :=
  match y with
  | .fin _ _ _ => if within2 y (num32 own) = true then own else ieee y
  | _ => ieee y

/-- The same for FSIN and FCOS, which keep the bound for |A| up to 2²⁰ alone. -/
def boundedTrig (quarter : Int) (h : W32 → W32) (a : W32) : W32 :=
  match num32 a with
  | .fin _ m e =>
    if magLt 1 20 m e = true then (if num32 (h a) = .nan then 0x7FC00000 else h a)
    else bounded (Machine.Num.trig quarter (num32 a)) (h a)
  | _ => 0x7FC00000

/-- The sum of the bits that hold, a mask. -/
def bitsOf (h : Nat → Bool) : Nat := ((List.range 32).map (fun l => if h l then 2 ^ l else 0)).sum

/-- The special values of 12.5.4 other than the group's coordinates. -/
def specialIs (s : State) (x : WaveCtx) (l : Nat) (v : W32) : Prop :=
  match iImm x.i with
  | 0 => v = BitVec.ofNat 32 (if iU x.i then 0 else l)
  | 1 => v = BitVec.ofNat 32 x.w.num
  | 5 => v = BitVec.ofNat 32 x.c.e.idx
  | 6 => v = BitVec.ofNat 32 (x.w.core % 4)
  | 8 => v = BitVec.ofNat 32 x.w.op
  | 9 => v = (x.c.w[15]?).getD 0
  | 10 => v = BitVec.ofNat 32 x.c.e.seed
  | 11 => v = BitVec.ofNat 32 x.w.active
  | 12 => v = s.clk.fine.extractLsb' 0 32
  | 13 => v = s.clk.fine.extractLsb' 32 32
  | _ => True

/-- A result r of a compare or PCOMB goes to p[PD]: in the lanes that act, or in every lane where uniform; p0 takes no write
(R301 to R303). `r l old` is the predicate's new value in lane l. -/
def predDest (x : WaveCtx) (w' : Wave) (r : Nat → Bool → Bool) : Prop :=
  w' = { x.w with pc := x.w.pc + 1, preds := w'.preds } ∧
  ∀ n l, l < 32 →
    (n = iPD x.i ∧ n ≠ 0 ∧ (iU x.i = true ∨ laneActs x l) → nbit (w'.p n) l = r l (nbit (x.w.p n) l)) ∧
    (¬(n = iPD x.i ∧ n ≠ 0 ∧ (iU x.i = true ∨ laneActs x l)) → nbit (w'.p n) l = nbit (x.w.p n) l)

/-- The conditions of Table 12.10 on integers, from a strict order. -/
def intCond (lt : W32 → W32 → Bool) (sub : Nat) (a b : W32) : Bool :=
  match sub with
  | 0 => a == b
  | 1 => a != b
  | 2 => lt a b
  | 3 => lt a b || a == b
  | 4 => lt b a
  | _ => lt b a || a == b

/-- The conditions on floats: with a NaN operand all but not equal and unordered are false. -/
def floatCond (sub : Nat) (a b : W32) : Bool :=
  let x := num32 a
  let y := num32 b
  if x = .nan ∨ y = .nan then sub == 1 || sub == 7
  else match sub with
    | 0 => x.eqv y
    | 1 => !x.eqv y
    | 2 => x.lt y
    | 3 => x.lt y || x.eqv y
    | 4 => y.lt x
    | 5 => y.lt x || x.eqv y
    | 6 => true
    | _ => false

/-- A compare with its combine mode. -/
def compares (mk : Nat → Nat → Instr) (opc top : Nat) (c : Nat → W32 → W32 → Bool) : Prop :=
  ∀ s k w x, Ready s k w opc x → x.w.pc + 1 < x.code.length → iSub x.i ≤ top → iSub2 x.i ≤ 2 →
    ∃ t w', exec (mk k w) s = .next t ∧ issued s t x w' ∧
      predDest x w' (fun l old =>
        let r := c (iSub x.i) (x.w.a x.i l) (x.w.b x.i l)
        match iSub2 x.i with
        | 0 => r
        | 1 => old && r
        | _ => old || r)

/-- An instruction that, where P holds, changes its wave to g and nothing else; the wave must not run off its section. -/
def moves (mk : Nat → Nat → Instr) (opc : Nat) (P : WaveCtx → Prop) (g : WaveCtx → Wave) : Prop :=
  ∀ s k w x, Ready s k w opc x → P x → (g x).pc < x.code.length →
    ∃ t, exec (mk k w) s = .next t ∧ issued s t x (g x)

/-- The active lanes in which the condition holds. -/
def taken (x : WaveCtx) : Nat := Nat.land x.w.active (x.w.cond x.i)

/-- The active lanes in which it does not. -/
def untaken (x : WaveCtx) : Nat := maskSub x.w.active (taken x)

/-- Entries above the innermost LOOP entry, and the stack from it down. -/
def aboveLoop (x : WaveCtx) : List MaskEntry := x.w.masks.takeWhile (fun e => !e.loop)
def belowLoop (x : WaveCtx) : List MaskEntry := x.w.masks.dropWhile (fun e => !e.loop)

/-- strip of R309 on an entry. -/
def strip (m : Nat) (e : MaskEntry) : MaskEntry := { e with outer := maskSub e.outer m, aux := maskSub e.aux m }

/-- BRK and CONT (R309): `h` is what CONT alone does to the innermost LOOP entry. -/
def leaves (h : Nat → MaskEntry → MaskEntry) (x : WaveCtx) : Wave :=
  let down := match belowLoop x with
    | [] => []
    | e :: es => h (taken x) e :: es
  if untaken x = 0 then { x.w with active := 0, masks := down, pc := iTarget x.i }
  else { x.w with active := untaken x, masks := (aboveLoop x).map (strip (taken x)) ++ down, pc := x.w.pc + 1 }

/-- Bytes at an offset of the group's local area. -/
def localBytes (s : State) (x : WaveCtx) (a n : Nat) : List Byte := (List.range n).map (fun k => Tab.get 0 (localOf s x.w) (a + k))

/-- Offset an access reaches in a lane, where it is not negative. -/
def offsetOf (x : WaveCtx) (l : Nat) : Nat := (x.w.addr x.i l).toNat

/-- A lane's access of a group's local area is in bounds and aligned (R312). -/
def localOk (x : WaveCtx) (l : Nat) : Prop :=
  0 ≤ x.w.addr x.i l ∧ x.w.addr x.i l + (accBytes x.i : Nat) ≤ ((wf x.c.w 14 8 0 * 1024 : Nat) : Int) ∧
  x.w.addr x.i l % ((accBytes x.i : Nat) : Int) = 0

/-- Waves of the same group as x's. -/
def groupWaves (s : State) (x : WaveCtx) : List Wave := s.waves.filter (fun y => y.sameGroup x.w)

/-- The waves after a barrier or an END of one wave: those of its group at a BAR that every wave of the group has reached go
on (R314). -/
def released (ws : List Wave) (w : Wave) : List Wave :=
  ws.map (fun y => if y.sameGroup w && y.atBar && (ws.filter (fun z => z.sameGroup w)).all (fun z => decide (y.bars ≤ z.bars))
    then { y with atBar := false } else y)

/-- The register words a load of a size makes of its bytes: sign- or zero-extended to one word, or one word for each four bytes. -/
def loaded (x : WaveCtx) (bs : List Byte) : List W32 :=
  match iSize x.i with
  | 0 => [if iSX x.i then (BitVec.ofNat 8 (ofBytesLE bs)).signExtend 32 else BitVec.ofNat 32 (ofBytesLE bs)]
  | 1 => [if iSX x.i then (BitVec.ofNat 16 (ofBytesLE bs)).signExtend 32 else BitVec.ofNat 32 (ofBytesLE bs)]
  | 2 => [BitVec.ofNat 32 (ofBytesLE bs)]
  | 3 => [BitVec.ofNat 32 (ofBytesLE (bs.take 4)), BitVec.ofNat 32 (ofBytesLE (bs.drop 4))]
  | _ => [BitVec.ofNat 32 (ofBytesLE (bs.take 4)), BitVec.ofNat 32 (ofBytesLE ((bs.drop 4).take 4)),
          BitVec.ofNat 32 (ofBytesLE ((bs.drop 8).take 4)), BitVec.ofNat 32 (ofBytesLE (bs.drop 12))]

/-- A load has filled D and the registers after it, in each lane that acts or once where uniform, and nothing else. -/
def loadDest (x : WaveCtx) (w' : Wave) (ws : Nat → List W32) : Prop :=
  w' = { x.w with pc := x.w.pc + 1, vregs := w'.vregs, sregs := w'.sregs } ∧
  (iU x.i = true → w'.vregs = x.w.vregs ∧
    ∀ r, w'.s r = if iD x.i ≤ r then ((ws 0)[r - iD x.i]?).getD (x.w.s r) else x.w.s r) ∧
  (iU x.i = false → w'.sregs = x.w.sregs ∧ ∀ r l, l < 32 →
    (iD x.i ≤ r ∧ laneActs x l → w'.v r l = ((ws l)[r - iD x.i]?).getD (x.w.v r l)) ∧
    (¬(iD x.i ≤ r ∧ laneActs x l) → w'.v r l = x.w.v r l))

/-- Lanes of an access: those that act, or one where uniform. -/
def accLanes (x : WaveCtx) : List Nat := if iU x.i then [0] else (List.range 32).filter (fun l => nbit (x.w.acts x.i) l)

/-- The state once the translations of an access have passed the TLBs and the shared cache: the access is made there. -/
def touched (s : State) (x : WaveCtx) (rs : List Range) : State :=
  rs.foldl (fun s r => touchVA s x.c.who x.w.fn r.va r.len true r.write) s

/-- The virtual addresses that an access reaches. -/
def accVa (x : WaveCtx) (v : Nat) : Prop :=
  ∃ l ∈ accLanes x, ∃ k, k < accBytes x.i ∧ (spacePlace x.c x.i (offsetOf x l)).add k = .va v

/-- A local address that a store of x reaches, translated as the store translates it. -/
def storesTo (s : State) (x : WaveCtx) (a : Nat) : Prop :=
  ∃ v, accVa x v ∧ xlate (touched s x (accRanges x (accLanes x) true)) x.c.who x.w.fn v true true = .loc a

/-- In a firm stage the instruction traps where P holds: nothing is written in any lane, the record names cause, operator,
program, instruction, lane, wave, core, cluster, detail and packet, and the function faults with SHADER_TRAP (R318). -/
def traps (mk : Nat → Nat → Instr) (opc cause : Nat) (P : WaveCtx → Nat → Prop) (detail : WaveCtx → Nat → Nat) : Prop :=
  ∀ s k w x lane, Ready s k w opc x → P x lane → x.c.early = false → cause < 16 →
    ∃ u : State, exec (mk k w) s = .next (functionFault u x.w.fn 0x0502 x.w.pos) ∧
      rd u (R.HI_FN_SHADER_TRAP_0 x.w.fn) = BitVec.ofNat 32 (cause + x.w.op * 2 ^ 8 + x.c.j.prog * 2 ^ 20) ∧
      rd u (R.HI_FN_SHADER_TRAP_1 x.w.fn) = BitVec.ofNat 32 (x.w.pc % 2 ^ 15 + lane * 2 ^ 16 + x.w.num * 2 ^ 21 +
        x.w.core % 4 * 2 ^ 24 + x.w.core / 4 * 2 ^ 26 + 2 ^ 31) ∧
      rd u (R.HI_FN_SHADER_TRAP_2 x.w.fn) = BitVec.ofNat 32 (detail x lane) ∧
      rd u (R.HI_FN_SHADER_TRAP_3 x.w.fn) = BitVec.ofNat 32 x.w.pos ∧
      u.waves = s.waves ∧ u.groups = s.groups ∧ u.tt = s.tt ∧ u.fns = s.fns ∧ u.hmem = s.hmem ∧ memKept s u (inTrace s)

/-- The lowest of some lanes. -/
def lowest (m lane : Nat) : Prop := lane < 32 ∧ nbit m lane = true ∧ ∀ h, h < lane → nbit m h = false

/-! ### Berar Link (chapter 15) -/

/-- A port has gone down, from a state that carried flits or by a failed training (R390, R418). -/
def portLost (s t : State) (p st : Nat) : Prop :=
  portState t p = st ∧ isSet t (R.BL_LINK_n_ERR p) F.BL_LINK_n_ERR.DOWN ∧ (getPort t p).replay = [] ∧ (getPort t p).queue = [] ∧
  (getPort t p).txSeq = 0 ∧ ctrUp s t (0xA00078 + 0x100 * p) 1

/-- A full training is under way (R378, R381). -/
def fullTraining (s t : State) (p : Nat) : Prop :=
  portState t p = (if portState s p = 3 then 4 else 2) ∧ (getPort t p).train = .detect ∧ (getPort t p).half = false ∧
  lanesLocked t p = 0 ∧ (getPort t p).replay = (getPort s p).replay ∧
  (getPort t p).cap = (if ff t (R.BL_LINK_n_CTRL p) F.BL_LINK_n_CTRL.MAX_WIDTH = 0 then 3 else ff t (R.BL_LINK_n_CTRL p) F.BL_LINK_n_CTRL.MAX_WIDTH) ∧
  (R.BL_LINK_n_CTRL p ∈ s.dirty → inForce t (R.BL_LINK_n_CTRL p) = rd s (R.BL_LINK_n_CTRL p)) ∧ ¬ R.BL_LINK_n_CTRL p ∈ t.dirty ∧
  ctrUp s t (0xA00070 + 0x100 * p) 1 ∧ ∃ sets l, t.out = s.out ++ OutEv.link p sets :: l

/-- Not one of the device-wide states, and no exit in progress: nothing holds the ports. -/
def awake (s : State) : Prop := s.pwr.phase = .awake

/-- The port takes flits. -/
def takesFlits (s : State) (p : Nat) : Prop :=
  p < 3 ∧ (portState s p = 3 ∨ portState s p = 4 ∨ portState s p = 5) ∧ (getPort s p).parked = false

/-- A replay (R388, R389): counted, every unacknowledged flit sent again, and Table 15.5's action at its figure. -/
def replayed (s t : State) (p : Nat) : Prop :=
  ctrUp s t (0xA00058 + 0x100 * p) 1 ∧
  (∃ l : List OutEv, t.out = s.out ++ l ∧ (rf s (R.BL_LINK_n_ERR p) F.BL_LINK_n_ERR.REPLAYS ≠ 127 → (getPort s p).replay.length ≤ l.length)) ∧
  (rf s (R.BL_LINK_n_ERR p) F.BL_LINK_n_ERR.REPLAYS < 254 → (rf s (R.BL_LINK_n_ERR p) F.BL_LINK_n_ERR.REPLAYS ≠ 127 ∨ (getPort s p).did128 = true) →
    rf t (R.BL_LINK_n_ERR p) F.BL_LINK_n_ERR.REPLAYS = rf s (R.BL_LINK_n_ERR p) F.BL_LINK_n_ERR.REPLAYS + 1) ∧
  (rf s (R.BL_LINK_n_ERR p) F.BL_LINK_n_ERR.REPLAYS = 7 → (getPort s p).did8 = false → isSet t (R.BL_LINK_n_ERR p) F.BL_LINK_n_ERR.WARN) ∧
  (rf s (R.BL_LINK_n_ERR p) F.BL_LINK_n_ERR.REPLAYS = 31 → (getPort s p).did32 = false →
    isSet t (R.BL_LINK_n_ERR p) F.BL_LINK_n_ERR.RETRAINED ∧ portState t p = 4 ∧ (getPort t p).half = true ∧
    (getPort t p).cap = max 1 (portWidth s p - 1)) ∧
  (rf s (R.BL_LINK_n_ERR p) F.BL_LINK_n_ERR.REPLAYS = 127 → (getPort s p).did128 = false → portLost s t p 1)

/-- The row of a message type and its effect (Table 15.8). -/
def peerRow (p : Nat) : Nat → Option (Instr × (State → List Byte → State))
  | 0x01 => some (.msgRdReq p, onRdReq)
  | 0x02 => some (.msgWrReq p, onWrReq)
  | 0x03 => some (.msgAtReq p, onAtReq)
  | 0x08 => some (.msgRdRsp p, onRdRsp)
  | 0x09 => some (.msgWrAck p, onWrAck)
  | 0x0A => some (.msgAtRsp p, onAtRsp)
  | 0x10 => some (.msgFenceWr p, onFenceWr)
  | 0x11 => some (.msgFenceWatch p, onFenceWatch)
  | 0x12 => some (.msgFenceUnwatch p, onFenceUnwatch)
  | 0x13 => some (.msgMsg p, onMsg)
  | 0x18 => some (.msgFenceAck p, onAck [0x10])
  | 0x19 => some (.msgFenceNotify p, onFenceNotify)
  | 0x1A => some (.msgMsgAck p, onAck [0x13])
  | 0x20 => some (.msgStreamAck p, onStreamAck)
  | 0x21 => some (.msgRouteState p, onRouteState)
  | _ => none

/-- A message has left the inbox, its slots freed. -/
def unboxed (s : State) (p : Nat) (m : List Byte) : State :=
  slotsFreed (setPort s p { getPort s p with inbox := (getPort s p).inbox.erase m }) p m

/-- A message is delivered: next in its stream, whose number goes on and which is acknowledged where it came by a relay. -/
def delivered (s : State) (p : Nat) (m : List Byte) : State :=
  if numbered (mType m) then
    streamAck { unboxed s p m with link := { (unboxed s p m).link with
      rxE2E := Tab.set 0 (unboxed s p m).link.rxE2E (4 * mSrc m + mClass m) ((mSeq m + 1) % 2 ^ 32) } } m
  else unboxed s p m

/-- The first message of a type in a port's inbox, well made, next in its stream. -/
def arrives (s : State) (p type : Nat) (m : List Byte) : Prop :=
  firstOf p type s = some m ∧ wellMade m = true ∧ (numbered type = true → mSeq m = Tab.get 0 s.link.rxE2E (4 * mSrc m + mClass m))

/-- A response finds its request. -/
def findsReq (u : State) (m : List Byte) (types : List Nat) (r : RemoteReq) : Prop :=
  u.link.reqs.find? (fun r => r.sent && r.tag == mTag m && r.pod == mSrc m && types.contains r.type) = some r

/-- What follows every message: unknown ones behind it are discarded in their turn (R398), credits go back, and a memory error that was
met is raised. -/
def answered (u : State) (p : Nat) : State := raiseMet (sendIdle (dropUnknowns u p) p)

/-- The command leaves x, with a property, to what follows every message. -/
def performs (i : Instr) (s : State) (p : Nat) (P : State → Prop) : Prop := ∃ x, exec i s = .next (answered x p) ∧ P x

/-- A response takes its request, and requests that waited for its place are sent (R402). -/
def requestTaken (u v : State) (r : RemoteReq) : Prop :=
  ∃ w, traced { u with link := { u.link with reqs := u.link.reqs.erase r } } w ∧ v = issueWaiting w

/-- Writes and atomics of a peer wait while WEDGED is set (R401, R537). -/
def mayWrite (s : State) (type : Nat) : Prop := type = 0x02 ∨ type = 0x03 → wedgedNow s = false

/-- Local memory as before, but for some bytes from an address. -/
def memHolds (s t : State) (a : Nat) (bs : List Byte) : Prop :=
  (∀ i, i < bs.length → lget t (a + i) = bs[i]?.getD 0) ∧ ∀ x, (x < a ∨ a + bs.length ≤ x) → lget t x = lget s x

/-! ### Two-wire management (chapter 16) -/

/-- The port answers: in Run or Idle, supplies valid (Table 16.2). -/
def listens (s : State) : Prop := s.boot.supplies = true ∧ s.pwr.phase = .awake

/-- A transaction is served: counted, traced, and the state last left is no longer reported (R426, R444, Table 16.10); in a roll call
it is wake source 2 (R442). -/
def accepted (e t : State) : Prop :=
  ∃ v, traced { bump e 0xB00100 with pwr := { e.pwr with leftFor := 0 } } v ∧ t = latchWake v 2

/-- A read is served with its bytes. -/
def replied (e t : State) (data : List Byte) : Prop :=
  ∃ v, traced { bump e 0xB00100 with pwr := { e.pwr with leftFor := 0 }, out := e.out ++ [.readData data] } v ∧ t = latchWake v 2

/-- A refusal, or a PEC mismatch, is counted and traced; nothing else changes, but for what a wake source does in a roll call. -/
def turnedAway (s t : State) (ctr : Nat) : Prop := ∃ v, traced (bump s ctr) v ∧ t = latchWake v 2

/-- The PEC byte of a read, where the controller takes it (R422, R427). -/
def readPec (s : State) (x : MgmtXact) (code : Nat) (data : List Byte) : List Byte :=
  if x.pec then [pecOf ([addrW s, BitVec.ofNat 8 code, addrR s] ++ data)] else []

/-- A block read's bytes: the count first. -/
def blockOfBytes (d : List Byte) : List Byte := BitVec.ofNat 8 d.length :: d

/-- Reads of the commands that change nothing but what they report, with their codes and bytes (Table 16.4). -/
def mgmtReads (s : State) (x : MgmtXact) : List (Instr × Nat × List Byte) :=
  [(.mgmtLastReported x false, 1, bytesLE 2 s.mgmt.lastReported),
   (.mgmtAttentionEn x, 2, bytesLE 2 (rf s R.MB_ATTENTION_EN F.MB_ATTENTION_EN.EN)),
   (.mgmtIdentity x, 3, blockOfBytes (bytesLE 2 0x1640 ++ bytesLE 1 s.boot.podId ++
      bytesLE 1 (b2n s.boot.ecc + 2 * rf s R.CP_BOOT_STATUS F.CP_BOOT_STATUS.IMAGE_OUTCOME) ++
      bytesLE 2 (incarnation s) ++ bytesLE 2 s.clk.epoch.toNat)),
   (.mgmtState x, 4, bytesLE 2 (runState s + b2n (bootDone s) * 8 + b2n (anyHalted s) * 16 + s.pwr.leftFor * 32)),
   (.mgmtThermal x, 5, blockOfBytes (bytesLE 2 (wrapInt 16 s.rail.tCluster) ++ bytesLE 2 (wrapInt 16 s.rail.tFabric) ++
      bytesLE 2 (wrapInt 16 s.rail.tControl) ++ bytesLE 2 (rf s R.VR_TMON F.VR_TMON.TEMP))),
   (.mgmtRail x, 6, blockOfBytes (bytesLE 2 (rf s R.VR_VOLTAGE F.VR_VOLTAGE.MEAS_MV) ++ bytesLE 2 (totalI s) ++
      bytesLE 1 (popCount8 (switchingMask s)) ++ bytesLE 1 (lossCount s) ++ bytesLE 2 (min 65535 (powerNow s / 1000)))),
   (.mgmtLinks x, 7, blockOfBytes ([0, 1, 2].map (fun p => BitVec.ofNat 8 (portState s p + portWidth s p * 8 + portPeer s p * 32)))),
   (.mgmtTime x, 8, blockOfBytes (bytesLE 6 s.clk.coarse.toNat ++ bytesLE 2 s.clk.epoch.toNat)),
   (.mgmtLogCount x, 0x10, bytesLE 2 s.log.recs.length),
   (.mgmtLogSelect x, 0x11, bytesLE 2 s.mgmt.logIndex),
   (.mgmtRegAddr x, 0x20, blockOfBytes (bytesLE 4 s.mgmt.regAddr))]

/-- Read-only commands and their codes. -/
def readOnlyRows (x : MgmtXact) : List Instr :=
  [.mgmtLastReported x true, .mgmtLastReported x false, .mgmtIdentity x, .mgmtState x, .mgmtThermal x, .mgmtRail x, .mgmtLinks x, .mgmtTime x,
   .mgmtKeepalive x, .mgmtLogCount x, .mgmtLogRead x]

/-- The commands that take a write: code, data bytes, whether a count byte comes first, what refuses early or at the last byte,
and what a served write does (Tables 16.3, 16.4). -/
def writeRow (x : MgmtXact) (i : Instr) (code n : Nat) (block : Bool) (early : State → Bool) (last : List Byte → Bool)
    (apply : State → List Byte → State) : Prop :=
  (i = .mgmtAttentionEn x ∧ code = 2 ∧ n = 2 ∧ block = false ∧ early = (fun _ => false) ∧ last = (fun _ => false) ∧
    apply = fun s d => sf s R.MB_ATTENTION_EN F.MB_ATTENTION_EN.EN (ofBytesLE d)) ∨
  (i = .mgmtLogSelect x ∧ code = 0x11 ∧ n = 2 ∧ block = false ∧ early = (fun _ => false) ∧ last = (fun _ => false) ∧
    apply = fun s d => { s with mgmt := { s.mgmt with logIndex := ofBytesLE d } }) ∨
  (i = .mgmtLogNote x ∧ code = 0x13 ∧ n = 8 ∧ block = true ∧
    early = (fun s => (s.mgmt.noteAt.map (fun t => decide (s.clk.now < t + 100000))).getD false) ∧ last = (fun _ => false) ∧
    apply = fun s d => { logX s 0x0B01 1 0xFF d with mgmt := { s.mgmt with noteAt := some s.clk.now } }) ∨
  (i = .mgmtRegAddr x ∧ code = 0x20 ∧ n = 4 ∧ block = true ∧ early = (fun _ => false) ∧
    last = (fun d => ofBytesLE d % 4 != 0 || decide (0x1000000 ≤ ofBytesLE d)) ∧
    apply = fun s d => { s with mgmt := { s.mgmt with regAddr := ofBytesLE d } }) ∨
  (i = .mgmtRegData x ∧ code = 0x21 ∧ n = 4 ∧ block = true ∧ early = (fun s => rf s R.MB_CFG F.MB_CFG.REG_WR_EN == 0) ∧
    last = (fun _ => false) ∧ apply = fun s d =>
      { regDataWrite s d with mgmt := { (regDataWrite s d).mgmt with regAddr := ((regDataWrite s d).mgmt.regAddr + 4) % 0x1000000 } })

/-- A controller transaction has ended (R440): BUSY clears, DONE and the outcome stand in the status, and the port is free. -/
def ctlEnded (s t : State) (status : Nat) (tries : Nat) (timeout pecBad : Bool) (n : Nat) : Prop :=
  t.mgmt.ctl = none ∧ rf t R.MB_CTL_STATUS F.MB_CTL_STATUS.BUSY = 0 ∧
  (rd t R.MB_CTL_STATUS).toNat = (status + b2n pecBad * 2 ^ 17 + b2n timeout * 2 ^ 18 + tries * 2 ^ 19 + n * 2 ^ 22 + 2 ^ 31) % 2 ^ 32 ∧
  (status = 0 → ctrUp s t 0xB00148 1) ∧ memKept s t (inTrace s)

/-- An attempt goes on the bus. -/
def attempted (s t : State) (tries : Nat) : Prop :=
  t.mgmt = { s.mgmt with ctl := some ⟨tries, 0, false⟩ } ∧ t.out = s.out ++ [.twoWire 1 (ctlBytes s)]

/-! ### Caretaker (chapter 17), rail and thermal (chapter 18), power states (chapter 19) -/

/-- A field of `KA_STATUS` reads so. -/
def kaIs (t : State) (fd : Fld) (v : Bool) : Prop := kaBit t fd = v

/-- The newest of Caretaker's own records that wait: its event and detail. -/
def newestOwn (t : State) (event : Nat) (detail : List Byte) : Prop :=
  (t.log.own.getLast?).map (fun r => (r.event, r.detail)) = some (event, detail)

/-- The newest record that waits to cross to Caretaker. -/
def newestCross (t : State) (event : Nat) (detail : List Byte) : Prop :=
  (t.log.cross.getLast?).map (fun r => (r.event, r.detail)) = some (event, detail)

/-- The attention source is set, where the device has its supplies. -/
def attended (t : State) (bit : Nat) : Prop := t.boot.supplies = true → nbit (rd t R.MB_ATTENTION).toNat bit = true

/-- Only KA registers, Caretaker's state, its records, the attention source and what an attention source may do have changed. -/
def careOnly (s t : State) : Prop :=
  memKept s t (inTrace s) ∧ (∀ f, (getFn t f).packets = (getFn s f).packets) ∧ t.progs = s.progs ∧ t.tt = s.tt ∧
  t.boot = s.boot ∧ (rb s R.FL_TRACE_CTRL F.FL_TRACE_CTRL.EN = false → t.cache = s.cache) ∧ t.clk = s.clk ∧ t.rail = s.rail ∧ t.disp = s.disp

/-- No roll call is on, the device is in Run: an attention source only sets its bit and raises its vector. -/
def calm (s : State) : Prop := s.care.alive = true ∧ s.pwr.phase = .awake ∧ s.pwr.round = none

/-- A phase has been found lost (R487, R488, R490): its bit, its counter, the event and the attention source. -/
def phaseFound (s t : State) (n : Nat) (fd : Fld) (ctr : Nat) : Prop :=
  nbit (rf t R.VR_PHASE_FAULT fd) n = true ∧ isSet t R.VR_PHASE_FAULT F.VR_PHASE_FAULT.EVT ∧ ctrUp s t ctr 1 ∧
  (∀ k, k < 8 → k ≠ n → nbit (rf t R.VR_PHASE_FAULT fd) k = nbit (rf s R.VR_PHASE_FAULT fd) k)

/-- The islands that an entry will stop have closed their inbound crossings (R21). -/
def islandsClosing (t : State) : Prop := ∀ i, 2 ≤ i → i ≤ 7 → islandRun t i ≠ .running

/-- A fault of the rail or a junction has forced Sleep (R491, R498): entry has begun, the controller stands in FAULT and every cluster
is stopped. -/
def sleepForced (t : State) : Prop :=
  t.pwr.phase = .entering 2 true ∧ vrState t = 3 ∧ (∀ n, n < 16 → clusterSt t n = .stopped) ∧ islandsClosing t

/-- A row of port p performs its roll-call message: `v` is the state as the message is taken, `t` what comes of it; with no such message
nothing happens. -/
def rcTakes (row : Nat → Instr) (type : Nat) (P : State → List Byte → State → Prop) : Prop :=
  (∀ s p, firstOf p type s = none → exec (row p) s = .next s) ∧
  ∀ s p m, arrives s p type m → ∃ v t, traced (delivered s p m) v ∧ exec (row p) s = .next (answered t p) ∧ P v m t

/-- The round of this device is over without a commit. -/
def roundOver (v t : State) : Prop :=
  t.pwr.round = none ∧ t.pwr.wake = none ∧ t.pwr.waitFor = [] ∧ t.pwr.phase = v.pwr.phase ∧ ctrUp v t 0xE00390 1

/-- A committed entry has begun. -/
def committed (v t : State) (target round : Nat) : Prop :=
  t.pwr.phase = .entering target false ∧ t.pwr.round = none ∧ t.pwr.lastCommit = round ∧ ctrUp v t 0xE00388 1 ∧ islandsClosing t

/-- The phases found lost at the retest of an exit. -/
def stillLost (s : State) (found : Nat) : Nat := ((List.range 8).filter (fun n => phaseLost s n && nbit found n)).length

/-! ### The whole machine -/

/-- What every step keeps: memory, registers and counters in their canonical forms, no counter above its largest value (Table 3.11), a pod ID
that is one (Table 2.1), and a capacity that the board may have (R27). -/
def kept (s : State) : Prop :=
  s.tablesWf = true ∧ (∀ k, ctrGet s k ≤ top64) ∧ s.boot.podId < 4 ∧ (s.boot.fitted = 16 ∨ s.boot.fitted = 32 ∨ s.boot.fitted = 64)

/-- The digest slot is programmed and locked, and no programming is under way. -/
def slotLocked (s : State) : Prop := s.boot.otpLocked = true ∧ s.boot.otpBusy = false

/-- A time of 10 ns: the clocks run, and the stalls of full reply rings count. -/
def ticked (s t : State) : Prop :=
  t = { s with clk := t.clk, ctr := t.ctr } ∧ t.clk.now = s.clk.now + 1 ∧ t.clk.epoch = s.clk.epoch ∧ t.clk.fineRun = s.clk.fineRun ∧
  t.clk.fine = (if s.clk.fineRun then s.clk.fine + 1 else s.clk.fine) ∧ (s.clk.fineRun = false → t.ctr = s.ctr) ∧
  (s.care.alive = false → t.clk.coarse = s.clk.coarse ∧ t.clk.sub = s.clk.sub) ∧
  (s.care.alive = true → s.clk.sub < 390625 → t.clk.sub < 390625 ∧
    (t.clk.coarse = s.clk.coarse ∧ t.clk.sub = s.clk.sub + 128 ∨ t.clk.coarse = s.clk.coarse + 1 ∧ t.clk.sub + 390625 = s.clk.sub + 128))

end Sys2Proof.Machine.Say

open Sys2Proof Sys2Proof.Machine Sys2Proof.Machine.Say

/-- Every register of the map: its fields lie in bits 31 to 0 and no two overlap (Table 21.6). -/
def Obligations.RegisterFieldsApart : Prop := ∀ k, fieldsApart (regFields k) = true

/-- R7, R10 to R12: a write leaves in each field what its access code says, and a bit in no field as it was. An RW-B field's
value is held until the block's boundary; the word in force is not touched. -/
def Obligations.RegisterWriteByAccessCode : Prop :=
  ∀ (s : State) (k : Nat) (v : W32) (busy : Bool),
    let t := (storeFields s k v busy).1
    (∀ r ∈ regFields k, bitsAt (rd t k) r = written busy r (rd s k) v) ∧
    (∀ b, b < 32 → (∀ r ∈ regFields k, ¬(r.lo ≤ b ∧ b ≤ r.hi)) → (rd t k).getLsbD b = (rd s k).getLsbD b) ∧
    (∀ j, j ≠ k → rd t j = rd s j) ∧ t.force = s.force ∧ t = { s with regs := t.regs, dirty := t.dirty } ∧
    ((storeFields s k v busy).2 = true ↔ busy = true ∧ ∃ r ∈ regFields k, r.acc = .rwS ∧ bitsAt v r ≠ bitsAt (rd s k) r)

/-- REGISTER_WRITE by the PF's host (R36, R551): a served access of a block that only holds fields writes it, low half first; an
access that is not served changes nothing; before DONE a write outside the HI block is ignored and counted. -/
def Obligations.RegisterWriteServed : Prop :=
  (∀ s k data, hostOpen s → bootDone s = true → k % 4 = 0 → plainKey k →
    exec (.registerWrite 0 k 4 true data) s = .next (storeFields s k (BitVec.ofNat 32 data) false).1 ∧
    (plainKey (k + 4) → k + 8 ≤ 0x1000000 → exec (.registerWrite 0 k 8 true data) s =
      .next (storeFields (storeFields s k (BitVec.ofNat 32 data) false).1 (k + 4) (BitVec.ofNat 32 (data / 2 ^ 32)) false).1)) ∧
  (∀ s f k len all data, hostOpen s → (all = false ∨ k % 4 ≠ 0 ∨ (len ≠ 4 ∧ len ≠ 8) ∨ s.vfs < f) →
    exec (.registerWrite f k len all data) s = .next s) ∧
  (∀ s k data, hostOpen s → bootDone s = false → k % 4 = 0 → 0x100000 ≤ k → k + 4 ≤ 0x1000000 →
    ∃ t, exec (.registerWrite 0 k 4 true data) s = .next t ∧ t.boot = { s.boot with earlyWrites := s.boot.earlyWrites + 1 } ∧
      (rd t R.HI_WRITE_REJECT).toNat = satAdd top32 (rd s R.HI_WRITE_REJECT).toNat 1 ∧
      t = { s with boot := t.boot, regs := t.regs } ∧ regsKept s t [R.HI_WRITE_REJECT])

/-- LATCHING_READ (R589, Table 3.11): a 4-byte read of a counter's low half returns it and latches the high half, which a read of
the high half returns; nothing else changes. -/
def Obligations.CounterReadLatches : Prop :=
  (∀ s k, hostOpen s → isCounter k = true → k % 8 = 0 → k + 8 ≤ 0x1000000 →
    exec (.latchingRead 0 k 4) s = .next { s with
      out := s.out ++ [.readData (bytesLE 4 (ctrGet s k % 2 ^ 32))]
      hostLatch := Tab.set 0 s.hostLatch (k + 4) (BitVec.ofNat 32 (ctrGet s k / 2 ^ 32)) }) ∧
  (∀ s k, hostOpen s → isCounter k = true → k % 8 = 4 → k + 4 ≤ 0x1000000 →
    exec (.latchingRead 0 k 4) s = .next { s with
      out := s.out ++ [.readData (bytesLE 4 (Tab.get 0 s.hostLatch k).toNat)] })

/-- R509: a host access outside Run is held, in order, until the device is back; it is wake source 0. -/
def Obligations.HostAccessHeldOutsideRun : Prop :=
  ∀ s f k len all data (i : Instr), s.boot.cfgReady = true → s.pwr.phase ≠ .awake →
    (i = .registerWrite f k len all data ∨ i = .latchingRead f k len ∨ i = .doorbell f (BitVec.ofNat 32 data) ∨
      i = .stageEn all ∨ i = .otpProgram (BitVec.ofNat 32 data) ∨ i = .ringEn f all ∨ i = .stop f all ∨ i = .ringReset f) →
    ∃ t, exec i s = .next t ∧ t.heldTlps = s.heldTlps ++ [i] ∧
      t = { s with heldTlps := t.heldTlps, pwr := t.pwr, ctr := t.ctr } ∧ ctrKept s t [0xE003A8] ∧
      (∀ target forced, s.pwr.phase = .asleep target forced → t.pwr.phase = .exiting target 0 false forced)

/-- SUPPLIES_VALID samples the straps and leaves every register of the device at its reset value; SUPPLIES_LOST ends all work, and OTP
programming under way leaves the slot unknown (R69); neither touches Caretaker, the Logbook, the epoch or else the OTP (R32, R41 to R43,
R565). Local memory then holds undefined content: log entry 1 (the model's choice of how). Supplies already there, or a Caretaker without
its own supply, and supplies already gone, change nothing. -/
def Obligations.SuppliesStartAfresh : Prop :=
  (∀ s podId ecc cap perst, s.boot.supplies = false → s.care.alive = true →
    ∃ t, exec (.suppliesValid podId ecc cap perst) s = .next t ∧ t.boot.supplies = true ∧ t.boot.podId = podId % 4 ∧
      t.boot.ecc = ecc ∧ t.boot.perst = perst ∧ t.boot.fitted = (if cap = 64 then 64 else if cap = 32 then 32 else 16) ∧
      rf t R.CP_BOOT_STATUS F.CP_BOOT_STATUS.POD_ID = podId % 4 ∧
      rf t R.CP_BOOT_STATUS F.CP_BOOT_STATUS.ECC_EN = b2n ecc ∧ bootDone t = false ∧ noWork t ∧ memLost s t ∧ caretakerKept s t ∧ otpKept s t ∧
      t.jtag = ⟨0, 0⟩ ∧ t.clk.fineRun = false ∧
      rf t R.VR_STATUS F.VR_STATUS.STATE = 1 ∧ (∀ k, isKa k = false → ¬ strapKey k → rd t k = regReset k)) ∧
  (∀ s podId ecc cap perst, (s.boot.supplies = true ∨ s.care.alive = false) → exec (.suppliesValid podId ecc cap perst) s = .next s) ∧
  (∀ s, s.boot.supplies = true →
    ∃ t, exec .suppliesLost s = .next t ∧ t.boot.supplies = false ∧ noWork t ∧ memLost s t ∧ caretakerKept s t ∧ t.clk.fineRun = false ∧
      (s.boot.otpBusy = false → otpKept s t) ∧ (s.boot.otpBusy = true → t.boot.otpUnknown = true ∧ t.boot.otpBusy = false) ∧
      (∀ k, isKa k = false → ¬ strapKey k → rd t k = regReset k)) ∧
  (∀ s, s.boot.supplies = false → exec .suppliesLost s = .next s)

/-- PERST_ASSERT, as PERST# or as a hot reset, restarts the device: all work is gone without fences, and Caretaker, the Logbook,
the epoch, the coarse counter and the OTP stand (R40 to R42). Without supplies there is nothing to restart. -/
def Obligations.RestartKeepsCaretaker : Prop :=
  (∀ s hot, s.boot.supplies = true →
    ∃ t, exec (.perstAssert hot) s = .next t ∧ restarted s t ∧ t.boot.perst = (s.boot.perst || !hot)) ∧
  (∀ s, s.boot.supplies = false → exec (.perstAssert true) s = .next s ∧
    exec (.perstAssert false) s = .next { s with boot := { s.boot with perst := true } })

/-- CONFIG_SPACE_READY, MEMORY_TRAINED and the flash read (R34, R35, R56, R57, R59, R70): DONE is set exactly when memory is trained and the
image is settled; a flash without an image gives outcome 0, or, where the digest slot is unknown, a failed read of it (log entry 93, the
model's choice). The link takes one of the widths and speeds of Table 3.1. -/
def Obligations.StartupReachesDone : Prop :=
  (∀ s speed lanes, s.boot.supplies = true → s.boot.cfgReady = false →
    ∃ t, exec (.configSpaceReady speed lanes) s = .next t ∧ t.boot = { s.boot with cfgReady := true, perst := false } ∧
      (1 ≤ speed → speed ≤ 5 → rf t R.HI_PCIE_LINK F.HI_PCIE_LINK.SPEED = speed) ∧
      rf t R.HI_PCIE_LINK F.HI_PCIE_LINK.WIDTH = (if 16 ≤ lanes then 16 else if 8 ≤ lanes then 8 else if 4 ≤ lanes then 4 else 1) ∧
      regsKept s t [R.HI_PCIE_LINK] ∧ t = { s with boot := t.boot, regs := t.regs }) ∧
  (∀ s, s.boot.supplies = true → s.boot.trained = false →
    ∃ t, exec .memoryTrained s = .next t ∧ t.boot = { s.boot with trained := true } ∧
      (bootDone t = true ↔ bootDone s = true ∨ s.boot.imgPhase = .settled) ∧ regsKept s t [R.CP_BOOT_STATUS] ∧
      t = { s with boot := t.boot, regs := t.regs, log := t.log }) ∧
  (∀ s sfdp quad image, s.boot.supplies = true → s.boot.imgPhase = .none →
    ∃ t, exec (.flashRead sfdp quad image) s = .next t ∧ t.clk.fineRun = true ∧
      rf t R.CP_BOOT_STATUS F.CP_BOOT_STATUS.FLASH_PRESENT = b2n sfdp ∧
      rf t R.CP_BOOT_STATUS F.CP_BOOT_STATUS.FLASH_QUAD = b2n (sfdp && quad) ∧
      (sfdp = true ∧ imgWord image 0 = 0x4854524B →
        t.boot.imgPhase = .loaded ∧ t.boot.img = image ∧ rf t R.CP_BOOT_STATUS F.CP_BOOT_STATUS.IMAGE_SOURCE = 1) ∧
      (¬(sfdp = true ∧ imgWord image 0 = 0x4854524B) → t.boot.imgPhase = .settled ∧
        (s.boot.otpUnknown = false → rf t R.CP_BOOT_STATUS F.CP_BOOT_STATUS.IMAGE_SOURCE = 0 ∧
          rf t R.CP_BOOT_STATUS F.CP_BOOT_STATUS.IMAGE_OUTCOME = 0) ∧
        (s.boot.otpUnknown = true → rf t R.CP_BOOT_STATUS F.CP_BOOT_STATUS.IMAGE_OUTCOME = 6 ∧
          rf t R.CP_OTP_STATUS F.CP_OTP_STATUS.READ_ERROR = 1))) ∧
  (∀ s, (s.boot.supplies = false ∨ s.boot.cfgReady = true) → ∀ speed lanes, exec (.configSpaceReady speed lanes) s = .next s) ∧
  (∀ s, (s.boot.supplies = false ∨ s.boot.trained = true) → exec .memoryTrained s = .next s) ∧
  (∀ s, (s.boot.supplies = false ∨ s.boot.imgPhase ≠ .none) → ∀ sfdp quad image, exec (.flashRead sfdp quad image) s = .next s)

/-- IMAGE_CHECK_DONE on a flash image (R51, R58): the first check that fails names the outcome and nothing is applied; an image
that passes is applied record by record. -/
def Obligations.FlashImageChecks : Prop :=
  ∀ s, imageLoaded s →
    (¬ lengthOk s.boot.img → ∃ t, exec (.imageCheckDone false) s = .next t ∧ refusedImage s t 0x0104 0x0102 5) ∧
    (lengthOk s.boot.img → ¬ knownVersion s.boot.img →
      ∃ t, exec (.imageCheckDone false) s = .next t ∧ refusedImage s t 0x0102 0x0C01 3) ∧
    (lengthOk s.boot.img → knownVersion s.boot.img → s.boot.otpLocked = true →
      Sha.digest (s.boot.img.take (imgWord s.boot.img 8)) ≠ s.boot.otp →
      ∃ t, exec (.imageCheckDone false) s = .next t ∧ refusedImage s t 0x0103 0x0C02 4) ∧
    (lengthOk s.boot.img → knownVersion s.boot.img →
      (s.boot.otpLocked = false ∨ Sha.digest (s.boot.img.take (imgWord s.boot.img 8)) = s.boot.otp) →
      (structureOk s.boot.img = false → ∃ t, exec (.imageCheckDone false) s = .next t ∧ refusedImage s t 0x0104 0x0103 5) ∧
      (structureOk s.boot.img = true → exec (.imageCheckDone false) s =
        .next { s with boot := { s.boot with imgPhase := .applying, imgCursor := 64, imgRejected := 0 } }))

/-- R59: a failed read of the OTP digest slot is a device-scope fault; no image is applied. -/
def Obligations.OtpReadErrorFaults : Prop :=
  ∀ s, s.boot.imgPhase = .loaded → s.boot.imgHost = false →
    ∃ t, exec (.imageCheckDone true) s = .next t ∧ t.boot.imgPhase = .settled ∧ recorded s t 0x0106 ∧
      rf t R.CP_OTP_STATUS F.CP_OTP_STATUS.READ_ERROR = 1 ∧ rf t R.CP_BOOT_STATUS F.CP_BOOT_STATUS.IMAGE_OUTCOME = 6 ∧
      rf t R.CP_CONFIG_RESULT F.CP_CONFIG_RESULT.STATUS = 0x0F02 ∧ rb t R.FL_DEVICE_FAULT F.FL_DEVICE_FAULT.VALID = true ∧
      (s.boot.trained = true → bootDone t = true)

/-- The records of an image in force (Table 2.5, R49, R50, R54): each acts and the cursor passes it. -/
def Obligations.ImageRecordsApply : Prop :=
  (∀ s, recordAt s 0x01 → presetPlain (recordWord s 0) →
    ∃ t, exec .imgWrite s = .next t ∧ recordTaken s t ∧
      t.regs = (storeFields s (recordWord s 0) (BitVec.ofNat 32 (recordWord s 1)) false).1.regs ∧
      t = { s with regs := t.regs, dirty := t.dirty, boot := t.boot }) ∧
  (∀ s, recordAt s 0x02 → presetPlain (recordWord s 0) → recordWord s 1 < 2 ^ 32 →
    ∃ t, exec .imgWriteMasked s = .next t ∧ recordTaken s t ∧
      t.regs = (storeFields s (recordWord s 0) ((readView s (recordWord s 0) &&& ~~~(BitVec.ofNat 32 (recordWord s 1))) |||
        (BitVec.ofNat 32 (recordWord s 2) &&& BitVec.ofNat 32 (recordWord s 1))) false).1.regs ∧
      t = { s with regs := t.regs, dirty := t.dirty, boot := t.boot }) ∧
  (∀ s, recordAt s 0x03 → nbits (imgWord s.boot.img s.boot.imgCursor) 15 8 = 3 → presetPlain (recordWord s 0) →
    presetPlain (recordWord s 0 + 4) →
    ∃ t u, exec .imgWriteSeq s = .next t ∧ recordTaken s t ∧
      u = (storeFields s (recordWord s 0) (BitVec.ofNat 32 (recordWord s 1)) false).1 ∧
      t.regs = (storeFields u (recordWord s 0 + 4) (BitVec.ofNat 32 (recordWord s 2)) false).1.regs ∧
      t = { s with regs := t.regs, dirty := t.dirty, boot := t.boot }) ∧
  (∀ s, recordAt s 0x10 → nbits (imgWord s.boot.img s.boot.imgCursor) 15 8 = 1 →
    ∃ t, exec .imgNoticeboardItem s = .next t ∧ recordTaken s t ∧ t = { s with boot := t.boot, out := t.out } ∧ pageSent s t ∧
      noticePlace t (nbits (recordWord s 0) 7 0) =
        ⟨nbits (recordWord s 0) 15 8, nbits (recordWord s 0) 23 16, nbit (recordWord s 0) 24⟩ ∧
      ∀ code, code ≠ nbits (recordWord s 0) 7 0 → noticePlace t code = noticePlace s code) ∧
  (∀ s, recordAt s 0x11 →
    ∃ t bs, exec .imgNoticeboardText s = .next t ∧ recordTaken s t ∧ t = { s with boot := t.boot, out := t.out } ∧ pageSent s t ∧
      t.boot.nbTexts = s.boot.nbTexts ++ [(nbits (recordWord s 0) 7 0, nbits (recordWord s 0) 15 8, bs)] ∧
      bs = (s.boot.img.drop (s.boot.imgCursor + 8)).take (nbits (recordWord s 0) 23 16)) ∧
  (∀ s, recordAt s 0xFF → s.boot.imgHost = false →
    ∃ t, exec .imgEnd s = .next t ∧ t.boot.imgPhase = .settled ∧ recordTaken s t ∧
      rf t R.CP_BOOT_STATUS F.CP_BOOT_STATUS.IMAGE_SOURCE = 1 ∧
      rf t R.CP_BOOT_STATUS F.CP_BOOT_STATUS.IMAGE_OUTCOME = (if s.boot.otpLocked then 1 else 2) ∧
      rf t R.CP_CONFIG_RESULT F.CP_CONFIG_RESULT.STATUS = 0 ∧
      rd t R.CP_IMAGE_SERIAL = BitVec.ofNat 32 (imgWord s.boot.img 16) ∧
      regsKept s t [R.CP_BOOT_STATUS, R.CP_CONFIG_RESULT, R.CP_IMAGE_SERIAL, R.CP_IMAGE_VERSION])

/-- R67 and R68: OTP programming. A blank slot takes the eight data registers under the unlock code, then the lock fuse blows, and the slot
is known again; a wrong code or a blown fuse programs nothing and sets PROG_FAIL. A programming that fails leaves the slot blank and sets
PROG_FAIL (log entry 91, the model's choice). -/
def Obligations.OtpProgramming : Prop :=
  (∀ s v, hostOpen s → bootDone s = true → v.getLsbD 0 = true → fld v 31 16 = 0x0A5C → s.boot.otpLocked = false →
    s.boot.otpBusy = false →
    ∃ t, exec (.otpProgram v) s = .next t ∧ rf t R.CP_OTP_STATUS F.CP_OTP_STATUS.PROG_BUSY = 1 ∧ t.boot.otpBusy = true ∧
      t.boot.otp = ((List.range 8).map (fun i => bytesLE 4 (rd s (R.CP_OTP_PROG_DATA_n i)).toNat)).flatten ∧
      t = { s with regs := t.regs, boot := { s.boot with otpBusy := true, otp := t.boot.otp } } ∧ regsKept s t [R.CP_OTP_STATUS]) ∧
  (∀ s v, hostOpen s → bootDone s = true → v.getLsbD 0 = true → s.boot.otpLocked = true ∨ fld v 31 16 ≠ 0x0A5C →
    ∃ t, exec (.otpProgram v) s = .next t ∧ rf t R.CP_OTP_STATUS F.CP_OTP_STATUS.PROG_FAIL = 1 ∧ t.boot = s.boot ∧
      t = { s with regs := t.regs, log := t.log } ∧ regsKept s t [R.CP_OTP_STATUS] ∧
      t.log.cross.length = s.log.cross.length + 1) ∧
  (∀ s v, hostOpen s → bootDone s = true → v.getLsbD 0 = false → exec (.otpProgram v) s = .next s) ∧
  (∀ s v, hostOpen s → bootDone s = false → ∃ t, exec (.otpProgram v) s = .next t ∧ tooEarly s t) ∧
  (∀ s, s.boot.otpBusy = true →
    ∃ t, exec (.otpProgramDone true) s = .next t ∧ t.boot = { s.boot with otpBusy := false, otpLocked := true, otpUnknown := false } ∧
      rf t R.CP_OTP_STATUS F.CP_OTP_STATUS.PROG_BUSY = 0 ∧ rf t R.CP_OTP_STATUS F.CP_OTP_STATUS.SLOT_PROGRAMMED = 1 ∧
      (∀ i, i < 8 → rd t (R.CP_OTP_DIGEST_n i) = BitVec.ofNat 32 (ofBytesLE ((s.boot.otp.drop (4 * i)).take 4))) ∧
      t = { s with regs := t.regs, boot := t.boot }) ∧
  (∀ s, s.boot.otpBusy = true →
    ∃ t, exec (.otpProgramDone false) s = .next t ∧ t.boot = { s.boot with otpBusy := false, otpLocked := false } ∧
      rf t R.CP_OTP_STATUS F.CP_OTP_STATUS.PROG_BUSY = 0 ∧ rf t R.CP_OTP_STATUS F.CP_OTP_STATUS.PROG_FAIL = 1 ∧
      t = { s with regs := t.regs, boot := t.boot } ∧ regsKept s t [R.CP_OTP_STATUS])

/-- The staging buffer and the PF's aperture (R36, R38, R61, R64, R76, R77): STAGE_EN clears the buffer; while it is 1 the first MiB of BAR2
is the buffer, else it is local memory from the aperture base; an access beyond the capacity reads all ones or writes nothing, and is
counted; before DONE reads are all ones and writes are discarded; while an image is applied the buffer takes no write. -/
def Obligations.ApertureAndStaging : Prop :=
  (∀ s v, hostOpen s → bootDone s = true → s.boot.applyPos = none → rb s R.CP_STAGE_CTRL F.CP_STAGE_CTRL.STAGE_EN ≠ v →
    ∃ t, exec (.stageEn v) s = .next t ∧ rb t R.CP_STAGE_CTRL F.CP_STAGE_CTRL.STAGE_EN = v ∧ t.boot = { s.boot with staging := [] } ∧
      regsKept s t [R.CP_STAGE_CTRL] ∧ t = { s with regs := t.regs, boot := t.boot, cache := t.cache, ctr := t.ctr } ∧ ctrKept s t [0x400110] ∧
      (v = false → t.cache = s.cache ∧ t.ctr = s.ctr)) ∧
  (∀ s v, hostOpen s → bootDone s = true → s.boot.applyPos = none → rb s R.CP_STAGE_CTRL F.CP_STAGE_CTRL.STAGE_EN = v →
    exec (.stageEn v) s = .next s) ∧
  (∀ s v, hostOpen s → bootDone s = true → s.boot.applyPos ≠ none → ∃ t, exec (.stageEn v) s = .next t ∧ onlyCounted s t) ∧
  (∀ s v, hostOpen s → bootDone s = false → ∃ t, exec (.stageEn v) s = .next t ∧ tooEarly s t) ∧
  (∀ s off len, hostOpen s → s.cache.met = none → (bootDone s = false ∨ wedgedNow s = true) →
    exec (.bar2Access off len none) s = .next { s with out := s.out ++ [.readData (List.replicate len 0xFF)] } ∧
    ∀ bs, exec (.bar2Access off len (some bs)) s = .next s) ∧
  (∀ s off n, bar2Open s → bar2Local s off n →
    (∃ t, exec (.bar2Access off n none) s = .next t ∧ t.out = s.out ++ [.readData (readL s (apertureBase s + off) n)] ∧
      t = { s with cache := t.cache, ctr := t.ctr, out := t.out } ∧ ctrKept s t cacheCtrs) ∧
    ∀ len bs, bs.length = n → ∃ t, exec (.bar2Access off len (some bs)) s = .next t ∧
      (∀ i, i < n → lget t (apertureBase s + off + i) = (enabledAt bs i).getD (lget s (apertureBase s + off + i))) ∧
      memKept s t (fun a => apertureBase s + off ≤ a ∧ a < apertureBase s + off + n) ∧
      t = { s with mem := t.mem, cache := t.cache, ctr := t.ctr } ∧ ctrKept s t cacheCtrs) ∧
  (∀ s off n, bar2Open s → bar2Staged s off n →
    exec (.bar2Access off n none) s = .next { s with out := s.out ++ [.readData ((List.range n).map (fun i => Tab.get 0 s.boot.staging (off + i)))] } ∧
    ∀ len bs, bs.length = n → 0 < n →
      (s.boot.applyPos = none → ∃ t, exec (.bar2Access off len (some bs)) s = .next t ∧
        t = { s with boot := { s.boot with staging := t.boot.staging } } ∧
        ∀ o, Tab.get 0 t.boot.staging o =
          if off ≤ o ∧ o < off + n then (enabledAt bs (o - off)).getD (Tab.get 0 s.boot.staging o) else Tab.get 0 s.boot.staging o) ∧
      (s.boot.applyPos ≠ none → ∃ t, exec (.bar2Access off len (some bs)) s = .next t ∧ onlyCounted s t)) ∧
  (∀ s off n, bar2Open s → bar2Beyond s off → 0 < n →
    (∃ t, exec (.bar2Access off n none) s = .next t ∧ onlyCounted s { t with out := s.out } ∧
      t.out = s.out ++ [.readData (List.replicate n 0xFF)]) ∧
    ∀ len bs, bs.length = n → ∃ t, exec (.bar2Access off len (some bs)) s = .next t ∧ onlyCounted s t)

/-- The noticeboard (R44 to R46): its start refreshes every item and, with a sink whose link trains, scans it out; a training that fails
leaves the link down and raises TRAIN_FAIL. -/
def Obligations.NoticeboardStarts : Prop :=
  (∀ s rate ok, s.boot.supplies = true → s.boot.imgPhase = .settled → s.disp.nbStarted = false →
    ∃ t, exec (.noticeboardStart 0 rate ok) s = .next t ∧ t.disp = { s.disp with nbStarted := true } ∧
      t = { s with disp := t.disp, boot := t.boot, out := t.out } ∧ t.boot = { s.boot with nbShown := t.boot.nbShown } ∧ pageSent s t ∧
      ∀ i, i < 8 → t.boot.nbShown[i]? = some (i + 1, noticeLines s (i + 1))) ∧
  (∀ s lanes rate, s.boot.supplies = true → s.boot.imgPhase = .settled → s.disp.nbStarted = false → s.disp.cfg.source = 0 →
    0 < lanes →
    (∃ t, exec (.noticeboardStart lanes rate true) s = .next t ∧ t.disp.nbStarted = true ∧ t.disp.hpd = true ∧
      t.disp.sink = (lanes, rate) ∧ t.disp.linkUp = true ∧ t.disp.linkAt = (lanes, rate) ∧
      rf t R.CP_BOOT_STATUS F.CP_BOOT_STATUS.NB_ACTIVE = 1) ∧
    (∃ t, exec (.noticeboardStart lanes rate false) s = .next t ∧ t.disp.nbStarted = true ∧ t.disp.hpd = true ∧
      t.disp.sink = (lanes, rate) ∧ t.disp.linkUp = false ∧ t.disp.linkAt = s.disp.linkAt ∧
      isSet t R.DC_EVENT_STATUS F.DC_EVENT_STATUS.TRAIN_FAIL)) ∧
  (∀ s, (s.boot.supplies = false ∨ s.boot.imgPhase ≠ .settled ∨ s.disp.nbStarted = true) →
    ∀ lanes rate ok, exec (.noticeboardStart lanes rate ok) s = .next s) ∧
  (∀ s, s.disp.nbStarted = true →
    ∃ t, exec .noticeboardRefresh s = .next t ∧ t = { s with boot := { s.boot with nbShown := t.boot.nbShown }, out := t.out } ∧
      pageSent s t ∧ ∀ i, i < 8 → t.boot.nbShown[i]? = some (i + 1, noticeLines s (i + 1))) ∧
  (∀ s, s.disp.nbStarted = false → exec .noticeboardRefresh s = .next s)

/-- Islands (R19, R21, R23, R537): an entry starts a stopped island, and what waited for it is delivered in order; a silent island is a
device-scope fault of cause 3, its crossings' entries are lost, and it restarts; its restart lets the discards go on; where it stays
silent WEDGED is set and recorded. A device that does not run its islands starts none by an entry: a wake comes first. -/
def Obligations.IslandsStartAndRestart : Prop :=
  (∀ s i, i < 8 → islandRun s i = .stopped → s.pwr.phase = .awake →
    ∃ t u, exec (.islandStartOnEntry i) s = .next t ∧ islandRun u i = .running ∧ (∀ j, j ≠ i → islandRun u j = islandRun s j) ∧
      u = { s with islands := u.islands } ∧ served u t) ∧
  (∀ s i, i < 8 → islandRun s i ≠ .stopped → exec (.islandStartOnEntry i) s = .next s) ∧
  (∀ s n, n < 16 →
    (clusterSt s n = .stopped → clusterBusy s n = true →
      ∃ t, exec (.islandStartOnEntry (n + 8)) s = .next t ∧ clusterSt t n = .starting ∧ t.islands = s.islands ∧ t.regs = s.regs) ∧
    ((clusterSt s n ≠ .stopped ∨ clusterBusy s n = false) → exec (.islandStartOnEntry (n + 8)) s = .next s)) ∧
  (∀ s silent sender, s.boot.supplies = true → clocked s silent = true →
    ∃ t u v, exec (.fabricTimeout silent sender) s = .next t ∧
      u = { s with waiting := s.waiting.filter (fun i => !(islandsOf i).contains silent)
                   log := if silent ≤ 1 then { s.log with cross := s.log.cross.drop 8 } else s.log } ∧
      v = deviceFault u 3 sender silent 0 ∧ t = { v with islands := t.islands } ∧ islandRun t silent = .starting) ∧
  (∀ s silent sender, (s.boot.supplies = false ∨ clocked s silent = false) → exec (.fabricTimeout silent sender) s = .next s) ∧
  (∀ s, islandRestarting s = true →
    ∃ t u, exec .islandRestart s = .next t ∧ islandRestarting u = false ∧ u = { s with islands := u.islands, fns := u.fns } ∧
      (∀ e ∈ u.fns, ∀ d, e.2.discard = some d → d.waitRestart = false) ∧ served u t) ∧
  (∀ s, islandRestarting s = false → exec .islandRestart s = .next s ∧ exec .wedged s = .next s) ∧
  (∀ s, islandRestarting s = true → wedgedNow s = false →
    ∃ t, exec .wedged s = .next t ∧ wedgedNow t = true ∧ regsKept s t [R.FL_DEVICE_FAULT] ∧
      t = { s with regs := t.regs, log := t.log } ∧ t.log.cross.length = s.log.cross.length + 1)

/-- R547: a write of FL_TRACE_CTRL while tracing is off; EN with a ring beyond the mapped capacity sets ERR instead. -/
def Obligations.TraceEnableChecksRing : Prop :=
  ∀ s v, hostOpen s → bootDone s = true → rb s R.FL_TRACE_CTRL F.FL_TRACE_CTRL.EN = false → v.getLsbD 0 = true →
    ∃ t, exec (.traceEnable v) s = .next t ∧ regsKept s t [R.FL_TRACE_CTRL] ∧ t.mem = s.mem ∧ t.fns = s.fns ∧
      (traceRingOk s = true → rb t R.FL_TRACE_CTRL F.FL_TRACE_CTRL.EN = true ∧
        rf t R.FL_TRACE_CTRL F.FL_TRACE_CTRL.TAG = fld v 31 16 ∧ rf t R.FL_TRACE_CTRL F.FL_TRACE_CTRL.FUNCTION = fld v 9 3) ∧
      (traceRingOk s = false → rb t R.FL_TRACE_CTRL F.FL_TRACE_CTRL.EN = false ∧ rb t R.FL_TRACE_CTRL F.FL_TRACE_CTRL.ERR = true)

/-- R571 and R572: the TAP's instructions. SAMPLE/PRELOAD loads the boundary register; EXTEST, CLAMP and HIGHZ load only while
PERST# is asserted, BYPASS in their place; where one of these three leaves the instruction register the device restarts, and else a load
touches nothing else. -/
def Obligations.JtagInstructions : Prop :=
  (∀ s row i j, (row, i) ∈ tapRows → j = (if 2 ≤ i ∧ s.boot.perst = false then 0 else i) →
    (s.jtag.ir < 2 ∨ j = s.jtag.ir ∨ s.boot.supplies = false → exec row s = .next (withIr s j)) ∧
    (2 ≤ s.jtag.ir → j ≠ s.jtag.ir → s.boot.supplies = true →
      ∃ t, exec row s = .next t ∧ restarted s t ∧ t.jtag = { s.jtag with ir := j } ∧ t.boot.perst = s.boot.perst)) ∧
  (∀ s pins,
    (s.jtag.ir < 2 ∨ s.boot.supplies = false → exec (.jtagSamplePreload pins) s = .next { s with jtag := ⟨1, pins % 2 ^ 87⟩ }) ∧
    (2 ≤ s.jtag.ir → s.boot.supplies = true →
      ∃ t, exec (.jtagSamplePreload pins) s = .next t ∧ restarted s t ∧ t.jtag = ⟨1, pins % 2 ^ 87⟩))

/-- RING_EN (R78, R99): every enable runs the checks of sizes, alignment and mappings; a ring in use is not disabled. -/
def Obligations.RingEnableChecks : Prop :=
  (∀ s f, hostOpen s → fnExists s f = true → fnEnabled s f = false → ringShapeOk s f = false →
    ∃ t, exec (.ringEn f true) s = .next t ∧ enableRefused s t f St.BAD_PARAM ∧ regsKept s t (enableKeys f) ∧ t = { s with regs := t.regs }) ∧
  (∀ s f, hostOpen s → fnExists s f = true → fnEnabled s f = false → ringShapeOk s f = true → ringMapsOk s f = false →
    ∃ t, exec (.ringEn f true) s = .next t ∧ enableRefused s t f St.UNPINNED_OPERAND) ∧
  (∀ s f, hostOpen s → fnExists s f = true → fnEnabled s f = false → ringShapeOk s f = true → ringMapsOk s f = true →
    ∃ t, exec (.ringEn f true) s = .next t ∧ fnEnabled t f = true ∧ isSet t (R.HI_FN_CTRL f) F.HI_FN_CTRL.RING_EN ∧
      rf t (R.HI_FN_ENABLE_STATUS f) F.HI_FN_ENABLE_STATUS.STATUS = St.DONE ∧ t.mem = s.mem ∧ t.fns = s.fns) ∧
  (∀ s f, hostOpen s → (fnEnabled s f = true ∨ fnExists s f = false) → exec (.ringEn f true) s = .next s) ∧
  (∀ s f, hostOpen s → fnExists s f = true → fnEnabled s f = true → isSet s (R.HI_FN_CTRL f) F.HI_FN_CTRL.RING_EN →
    ((fnIdle s f = true ∨ fnHalted s f = true) → ∃ t, exec (.ringEn f false) s = .next t ∧ fnEnabled t f = false ∧
      isClear t (R.HI_FN_CTRL f) F.HI_FN_CTRL.RING_EN ∧ regsKept s t (enableKeys f) ∧ t = { s with regs := t.regs }) ∧
    (fnIdle s f = false → fnHalted s f = false → exec (.ringEn f false) s = .next (bump32 s R.HI_WRITE_REJECT))) ∧
  (∀ s f, hostOpen s → (fnEnabled s f = false ∨ rb s (R.HI_FN_CTRL f) F.HI_FN_CTRL.RING_EN = false) →
    exec (.ringEn f false) s = .next s)

/-- STOP, STOPPED and RING_RESET (R84, R97, R535). -/
def Obligations.RingStopAndReset : Prop :=
  (∀ s f v, hostOpen s → fnExists s f = true →
    ∃ t, exec (.stop f v) s = .next t ∧ rb t (R.HI_FN_CTRL f) F.HI_FN_CTRL.STOP = v ∧
      (v = false → isClear t (R.HI_FN_STATUS f) F.HI_FN_STATUS.STOPPED) ∧ (v = true → rd t (R.HI_FN_STATUS f) = rd s (R.HI_FN_STATUS f)) ∧
      regsKept s t [R.HI_FN_CTRL f, R.HI_FN_STATUS f] ∧ t = { s with regs := t.regs }) ∧
  (∀ s f, rb s (R.HI_FN_CTRL f) F.HI_FN_CTRL.STOP = true → (∀ p ∈ (getFn s f).packets, p.phase = .complete) →
    ∃ t, exec (.stoppedReached f) s = .next t ∧ isSet t (R.HI_FN_STATUS f) F.HI_FN_STATUS.STOPPED ∧
      regsKept s t [R.HI_FN_STATUS f] ∧ t = { s with regs := t.regs }) ∧
  (∀ s f, (∃ p ∈ (getFn s f).packets, p.phase ≠ .complete) → exec (.stoppedReached f) s = .next s) ∧
  (∀ s f, hostOpen s → fnExists s f = true → (fnHalted s f = true ∨ fnIdle s f = true) → discarding s f = false →
    ∃ t, exec (.ringReset f) s = .next t ∧ ringIsReset s t f ∧ (getFn t f).fenceRec = (getFn s f).fenceRec ∧
      ctrKept s t [0xF00428] ∧ ctrUp s t 0xF00428 1 ∧ t.log.cross.length = s.log.cross.length + 1 ∧
      t = { s with regs := t.regs, ctr := t.ctr, log := t.log, fns := t.fns } ∧ othersKept s t f) ∧
  (∀ s f, hostOpen s → fnExists s f = true → (fnHalted s f = true ∨ fnIdle s f = true) → discarding s f = true →
    ∃ t, exec (.ringReset f) s = .next t ∧ getFn t f = { getFn s f with resetWaiting := true } ∧ othersKept s t f ∧
      t = { s with fns := t.fns }) ∧
  (∀ s f, hostOpen s → fnExists s f = true → fnHalted s f = false → fnIdle s f = false →
    exec (.ringReset f) s = .next (bump32 s R.HI_WRITE_REJECT))

/-- R80: a doorbell in the two windows of 2^n is the new tail; any other is ignored, sets DOORBELL_ERR, counts, writes a Logbook
record and raises the doorbell-error vector. -/
def Obligations.DoorbellJudged : Prop :=
  (∀ s f v, hostOpen s → fnExists s f = true → fnEnabled s f = true → fnHalted s f = false →
    sub32 v.toNat (ringHead s f) ≤ 2 ^ ringLog2 s f → sub32 v.toNat (ringTail s f) ≤ 2 ^ ringLog2 s f →
    ∃ t u, exec (.doorbell f v) s = .next t ∧ rd u (R.HI_RING_TAIL f) = v ∧ regsKept s u [R.HI_RING_TAIL f] ∧
      u = { s with regs := u.regs } ∧ traced u t) ∧
  (∀ s f v, hostOpen s → fnExists s f = true →
    (fnEnabled s f = false ∨ fnHalted s f = true ∨ 2 ^ ringLog2 s f < sub32 v.toNat (ringHead s f) ∨
      2 ^ ringLog2 s f < sub32 v.toNat (ringTail s f)) →
    ∃ t, exec (.doorbell f v) s = .next t ∧ isSet t (R.HI_FN_STATUS f) F.HI_FN_STATUS.DOORBELL_ERR ∧ ctrUp s t (C.FN f 0x1010) 1 ∧
      t.log.cross.length = s.log.cross.length + 1 ∧ rd t (R.HI_RING_TAIL f) = rd s (R.HI_RING_TAIL f) ∧
      rd t (R.HI_RING_HEAD f) = rd s (R.HI_RING_HEAD f) ∧ regsKept s t [R.HI_FN_STATUS f, R.FL_TRACE_WRITTEN] ∧
      ctrKept s t (C.FN f 0x1010 :: traceCtrs) ∧ othersKept s t f ∧ memKept s t (inTrace s) ∧
      t = { s with regs := t.regs, ctr := t.ctr, log := t.log, out := t.out, fns := t.fns, mem := t.mem, cache := t.cache
                   trace := t.trace } ∧
      (rb s (R.HI_MSIX_EVENT_MAP f) F.HI_MSIX_EVENT_MAP.DBERR_EN = true →
        raised s t f (rf s (R.HI_MSIX_EVENT_MAP f) F.HI_MSIX_EVENT_MAP.DBERR_VEC)))

/-- PACKET_FETCH (R82, R106, R594): a covered group at the head is copied, the head and the count of fetched packets pass it, and it
is parsed: it waits for its dispatch, or the first failed check of Table 4.2 refuses it. Nothing else of a function's packets
changes, and an uncovered group stays. -/
def Obligations.PacketFetchParses : Prop :=
  (∀ s f ext, noErrors s → mayFetch s f = true → groupCovered s f ext → (∀ p ∈ (getFn s f).packets, p.pos ≠ ringHead s f) →
    ∃ t q, exec (.packetFetch f) s = .next t ∧ ringHead t f = (ringHead s f + 1 + ext) % 2 ^ 32 ∧
      ctrUp s t (C.FN f 0x1000) (1 + ext) ∧ (getFn t f).packets = (getFn s f).packets ++ [q] ∧ othersKept s t f ∧
      (parseFails s f (asFetched s f ext) = none → q = asFetched s f ext ∧ ctrGet t (C.FN f 0x1008) = ctrGet s (C.FN f 0x1008)) ∧
      (∀ st, parseFails s f (asFetched s f ext) = some st → q.pos = ringHead s f ∧ q.words = groupAtHead s f ext ∧
        q.phase = .complete ∧ q.status = st ∧ q.result = 0 ∧ ctrUp s t (C.FN f 0x1008) 1 ∧
        rd t R.CP_LAST_REFUSAL_1 = BitVec.ofNat 32 (ringHead s f) ∧ rf t R.CP_LAST_REFUSAL_0 (15, 0) = st)) ∧
  (∀ s f, s.cache.met = none → mayFetch s f = false → exec (.packetFetch f) s = .next s) ∧
  (∀ s f, s.cache.met = none → mayFetch s f = true → rangeIssue s 20 f (slotVa s f (ringHead s f)) 64 false false = none →
    sub32 (ringTail s f) (ringHead s f) < 1 + fld ((slotWords s f (ringHead s f))[1]?.getD 0) 31 16 →
    exec (.packetFetch f) s = .next s) ∧
  (∀ s f va, noErrors s → mayFetch s f = true → rangeIssue s 20 f (slotVa s f (ringHead s f)) 64 false false = some (va, .bad) →
    ∃ u, exec (.packetFetch f) s = .next (functionFault u f St.UNPINNED_OPERAND (ringHead s f)) ∧ lookedUp s u) ∧
  (∀ s f va a, noErrors s → mayFetch s f = true → rangeIssue s 20 f (slotVa s f (ringHead s f)) 64 false false = some (va, .ats a) →
    (∀ r ∈ s.xl.reqs, ¬(r.fn = f ∧ r.engine = 6 ∧ r.pos = ringHead s f)) →
    ∃ t u, exec (.packetFetch f) s = .next t ∧ lookedUp s u ∧ t.fns = s.fns ∧
      t.out = s.out ++ [.atsRequest f (hostPage a) (4096 * (page4s a 64).length)] ∧ t.xl.reqs.length = s.xl.reqs.length + 1 ∧
      t = { u with xl := t.xl, out := t.out })

/-- Reports and messages (R85 to R95): a report writes its reply entry at the reply tail, then its fence, and the packet leaves
flight; a full reply ring holds it. The reply head moves only forward and never past the ring. An unmasked pending vector sends its message. -/
def Obligations.ReportsWritten : Prop :=
  (∀ s f pos p, reportable s f pos p → p.fReply = false → p.replied = false → p.fences = false →
    ∃ t u, exec (.completionReport f pos) s = .next t ∧ traced u t ∧ u = { s with fns := u.fns } ∧
      getFn u f = { getFn s f with packets := (getFn s f).packets.filter (fun q => q.pos != pos) } ∧ othersKept s u f) ∧
  (∀ s f pos p, reportable s f pos p → p.fReply = true → p.replied = false → replyRoom s f = false →
    ((getFn s f).discard.map (·.drop)).getD false = false →
    ∃ t, exec (.completionReport f pos) s = .next t ∧ isSet t (R.HI_FN_STATUS f) F.HI_FN_STATUS.REPLY_FULL ∧
      (∃ q, getPkt t f pos = some q ∧ q = { p with held := true }) ∧ rd t (R.HI_REPLY_TAIL f) = rd s (R.HI_REPLY_TAIL f) ∧
      (getFn t f).packets.length = (getFn s f).packets.length ∧ othersKept s t f) ∧
  (∀ s f pos p a, reportable s f pos p → p.fReply = true → p.replied = false → p.fences = false → replyRoom s f = true →
    rb s R.FL_TRACE_CTRL F.FL_TRACE_CTRL.EN = false →
    piecesOf (replyBase s f + 32 * ((rd s (R.HI_REPLY_TAIL f)).toNat % 2 ^ replyLog2 s f)) 32 =
      [(replyBase s f + 32 * ((rd s (R.HI_REPLY_TAIL f)).toNat % 2 ^ replyLog2 s f), 32)] →
    xlate s 20 f (replyBase s f + 32 * ((rd s (R.HI_REPLY_TAIL f)).toNat % 2 ^ replyLog2 s f)) false true = .loc a →
    ∃ t, exec (.completionReport f pos) s = .next t ∧ readL t a 32 = replyEntry s p ∧
      memKept s t (fun x => a ≤ x ∧ x < a + 32) ∧ rd t (R.HI_REPLY_TAIL f) = rd s (R.HI_REPLY_TAIL f) + 1 ∧
      (getFn t f).packets = (getFn s f).packets.filter (fun q => q.pos != pos)) ∧
  (∀ s f pos p a, reportable s f pos p → p.fReply = false → p.fences = true → s.link.watches = [] →
    (∀ q ∈ (getFn s f).packets, q.opcode ≠ 0x03) → rb s R.FL_TRACE_CTRL F.FL_TRACE_CTRL.EN = false →
    piecesOf (fenceBase s f + 8 * p.slot) 8 = [(fenceBase s f + 8 * p.slot, 8)] →
    xlate s 20 f (fenceBase s f + 8 * p.slot) false true = .loc a →
    ∃ t, exec (.completionReport f pos) s = .next t ∧ readL t a 8 = bytesLE 8 (fenceForm p.status p.fence) ∧
      memKept s t (fun x => a ≤ x ∧ x < a + 8) ∧ Tab.get 0 (getFn t f).shadow p.slot = fenceForm p.status p.fence ∧
      (getFn t f).packets = (getFn s f).packets.filter (fun q => q.pos != pos)) ∧
  (∀ s f h, hostOpen s → fnExists s f = true → sub32 (rd s (R.HI_REPLY_TAIL f)).toNat h.toNat ≤ 2 ^ replyLog2 s f →
    sub32 (rd s (R.HI_REPLY_TAIL f)).toNat h.toNat ≤ sub32 (rd s (R.HI_REPLY_TAIL f)).toNat (rd s (R.HI_REPLY_HEAD f)).toNat →
    noErrors s → (∀ p ∈ (getFn s f).packets, p.phase ≠ .complete) →
    ∃ t u, exec (.hiReplyHead f h) s = .next t ∧ rd u (R.HI_REPLY_HEAD f) = h ∧
      regsKept s u [R.HI_REPLY_HEAD f, R.HI_FN_STATUS f] ∧ u = { s with regs := u.regs } ∧ traced u t) ∧
  (∀ s f h, hostOpen s → s.cache.met = none → fnExists s f = true →
    (2 ^ replyLog2 s f < sub32 (rd s (R.HI_REPLY_TAIL f)).toNat h.toNat ∨
      sub32 (rd s (R.HI_REPLY_TAIL f)).toNat (rd s (R.HI_REPLY_HEAD f)).toNat < sub32 (rd s (R.HI_REPLY_TAIL f)).toNat h.toNat) →
    ∃ t, exec (.hiReplyHead f h) s = .next t ∧ onlyCounted s t) ∧
  (∀ s f vec, hostOpen s → fnExists s f = true → vec < 16 →
    ∃ t, exec (.msixUnmask f vec) s = .next t ∧ (Tab.get Vector.reset (getFn t f).msix vec).masked = false ∧ othersKept s t f ∧
      (∀ v, v ≠ vec → Tab.get Vector.reset (getFn t f).msix v = Tab.get Vector.reset (getFn s f).msix v) ∧
      ((getFn s f).msixEn = true → (getFn s f).fnMask = false → nbit (getFn s f).pba vec = true →
        (getFn t f).pba = (getFn s f).pba - 2 ^ vec ∧
        t.out = s.out ++ [.msix f vec (Tab.get Vector.reset (getFn s f).msix vec).addr (Tab.get Vector.reset (getFn s f).msix vec).data]) ∧
      (nbit (getFn s f).pba vec = false → t.out = s.out ∧ (getFn t f).pba = (getFn s f).pba))

/-- Function-level resets, configuration writes, host read errors and the end of a discard (R70 to R74, R100, R101, R532, R535, Table 6.4).
The work of other functions then goes on, where any waits. -/
def Obligations.FunctionsResetAndConfigure : Prop :=
  (∀ u, unitsStill u → goOn u = u) ∧
  (∀ s f, f ≠ 0 → fnExists s f = true →
    ∃ u, exec (.functionLevelReset f) s = .next (goOn u) ∧ functionIsReset s u f ∧ u.vfs = s.vfs ∧ ctrUp s u 0xF00430 1) ∧
  (∀ s, s.vfs ≤ 127 → ∃ u, exec (.functionLevelReset 0) s = .next (goOn u) ∧ exec .pfFunctionLevelReset s = .next (goOn u) ∧ u.vfs = 0 ∧
    u.pcie.maxPayload = s.pcie.maxPayload ∧ ∀ f, f ≤ s.vfs → functionIsReset s u f) ∧
  (∀ s n, s.boot.cfgReady = true → s.vfs = 0 → n ≠ 0 → exec (.configurationWrite 0 0 n) s = .next (goOn { s with vfs := min n 127 })) ∧
  (∀ s f v, s.boot.cfgReady = true → fnExists s f = true → (getFn s f).pba = 0 →
    ∃ u, exec (.configurationWrite f 1 v) s = .next (goOn u) ∧ getFn u f = { getFn s f with msixEn := v % 2 == 1 } ∧ othersKept s u f ∧
      u = { s with fns := u.fns }) ∧
  (∀ s f v, s.boot.cfgReady = true → fnExists s f = true → (getFn s f).pba = 0 →
    ∃ u, exec (.configurationWrite f 2 v) s = .next (goOn u) ∧ getFn u f = { getFn s f with fnMask := v % 2 == 1 } ∧ othersKept s u f ∧
      u = { s with fns := u.fns }) ∧
  (∀ s f v, s.boot.cfgReady = true → fnExists s f = true →
    ∃ u, exec (.configurationWrite f 3 v) s = .next (goOn u) ∧ getFn u f = { getFn s f with atsEn := v % 2 == 1 } ∧ othersKept s u f ∧
      (v % 2 = 0 → ∀ e ∈ u.xl.atc, e.fn ≠ f) ∧ u = { s with fns := u.fns, xl := { s.xl with atc := u.xl.atc } }) ∧
  (∀ s f v, s.boot.cfgReady = true → exec (.configurationWrite f 4 v) s = .next (goOn { s with priEn := v % 2 == 1 }) ∧
    exec (.configurationWrite f 5 v) s = .next (goOn { s with priAlloc := v }) ∧
    exec (.configurationWrite f 6 v) s = .next (goOn { s with pcie := { s.pcie with roEn := v % 2 == 1 } }) ∧
    exec (.configurationWrite f 11 v) s = .next (goOn { s with pcie := { s.pcie with ctoDisable := v % 2 == 1 } }) ∧
    exec (.configurationWrite f 13 v) s = .next (goOn { s with pcie := { s.pcie with aspmL1 := v % 2 == 1 } }) ∧
    (v ≤ 2 → exec (.configurationWrite f 7 v) s = .next (goOn { s with pcie := { s.pcie with maxPayload := v } })) ∧
    (2 < v → exec (.configurationWrite f 7 v) s = .next (goOn s)) ∧
    (v ≤ 5 → exec (.configurationWrite f 8 v) s = .next (goOn { s with pcie := { s.pcie with maxRead := v } })) ∧
    (s.pwr.phase = .awake → v % 2 = 1 →
      exec (.configurationWrite f 16 v) s = .next (goOn { s with pcie := { s.pcie with ltrEn := true }, out := s.out ++ [.ltr 10 10] })) ∧
    (v % 2 = 0 → exec (.configurationWrite f 16 v) s = .next (goOn { s with pcie := { s.pcie with ltrEn := false } }))) ∧
  (∀ s f v, s.boot.cfgReady = true → fnExists s f = true → v ≤ 18 →
    ∃ u, exec (.configurationWrite f 17 v) s = .next (goOn u) ∧ getFn u f = { getFn s f with stu := 12 + v } ∧ othersKept s u f ∧
      u = { s with fns := u.fns }) ∧
  (∀ s f field v, s.boot.cfgReady = false → exec (.configurationWrite f field v) s = .next s) ∧
  (∀ s f pos (kind : ReadError), fnEnabled s f = true → ((getPkt s f pos).isSome = true ∨ pos = ringHead s f ∨ flipReads s f pos = true) →
    (kind ≠ .timeout ∨ s.pcie.ctoDisable = false) →
    ∃ u h, exec (.hostReadError f ⟨pos, kind⟩) s = .next (functionFault u f St.TRANSLATION_TIMEOUT pos) ∧
      u = { s with fns := u.fns, freeCtr := u.freeCtr } ∧ othersKept s u f ∧
      getFn u f = { getFn s f with aer := (getFn s f).aer.log (aerBit kind) h }) ∧
  (∀ s f pos (kind : ReadError), (fnEnabled s f = false ∨ (kind = .timeout ∧ s.pcie.ctoDisable = true)) → exec (.hostReadError f ⟨pos, kind⟩) s = .next s) ∧
  (∀ s f d, f ≤ 127 → (getFn s f).discard = some d → mayReport s f = true → (getFn s f).packets = [] →
    rb s (R.HI_FN_STATUS f) F.HI_FN_STATUS.REPLY_FULL = false →
    ∃ u, exec (.discardDone f) s = .next (goOn u) ∧ (getFn u f).discard = none ∧ othersKept s u f ∧
      fld (rd u (R.FL_DISCARD_BUSY_i (f / 32))) (f % 32) (f % 32) = 0 ∧
      ((getFn s f).resetWaiting = false → u.log.cross.length = s.log.cross.length + 1) ∧
      ((getFn s f).resetWaiting = true → rd u (R.HI_RING_HEAD f) = 0 ∧ rd u (R.HI_RING_TAIL f) = 0 ∧ fnEnabled u f = false ∧
        fnHalted u f = false ∧ (getFn u f).resetWaiting = false))

/-- PACKET_DISPATCH (R108, R109, R112): a packet that nothing holds is dispatched as the row of its opcode says; a held one stays; one whose
LOAD_PROGRAM was refused is refused. QUERY and COUNTER_SNAPSHOT, which have no row, write their bytes and complete (Tables 4.13, 4.14). -/
def Obligations.DispatchByOpcode : Prop :=
  (∀ s f pos p i t, getPkt s f pos = some p → rowOf f pos p.opcode = some i → exec i s = .next t →
    exec (.packetDispatch f pos) s = .next (settleFn t f)) ∧
  (∀ s f pos p, getPkt s f pos = some p →
    (p.opcode = 0x01 → exec (.packetDispatch f pos) s = exec (.pktBarrier f pos) s) ∧
    (p.opcode = 0x11 → exec (.packetDispatch f pos) s = exec (.pktUnloadProgram f pos) s) ∧
    (p.opcode = 0x15 → exec (.packetDispatch f pos) s = exec (.pktStepLeave f pos) s)) ∧
  (∀ s f pos p, s.cache.met = none → getPkt s f pos = some p → dispatchable (getFn s f) p = false →
    exec (.packetDispatch f pos) s = .next (settleFn s f) ∧ (∀ i, rowOf f pos p.opcode = some i → exec i s = .next s)) ∧
  (∀ s f pos p i, noErrors s → getPkt s f pos = some p → dispatchable (getFn s f) p = true → p.loadRefused = true →
    rowOf f pos p.opcode = some i → ∃ t u, exec i s = .next t ∧ follows u t f p ∧ refusedAs s u f pos St.BAD_PARAM) ∧
  (∀ s f pos p a, ready s f pos 0x60 p → 1 ≤ p.bits 4 7 0 → p.bits 4 7 0 ≤ 5 → p.addr 5 % 32 = 0 → resultPlace (begun s f pos) f pos (p.addr 5) 32 a →
    ∃ t, exec (.packetDispatch f pos) s = .next t ∧ ended t f pos St.DONE 32 ∧ memKept s t (fun x => a ≤ x ∧ x < a + 32) ∧
      readL t a 32 = queryBytes s f (p.bits 4 7 0) (p.bits 7 11 0)) ∧
  (∀ s f pos p a, ready s f pos 0x61 p → p.addr 4 % 16 = 0 → (f = 0 ∨ p.bits 6 6 0 = f) → resultPlace (begun s f pos) f pos (p.addr 4) 144 a →
    ∃ t, exec (.packetDispatch f pos) s = .next t ∧ ended t f pos St.DONE 144 ∧ memKept s t (fun x => a ≤ x ∧ x < a + 144) ∧
      readL t a 144 = snapshotBytes s (p.bits 6 6 0))

/-- NOP, BARRIER, UNLOAD_PROGRAM and STEP_LEAVE (R114, R119, R151): NOP completes at once; the others when the packets they wait for are
complete, and a BARRIER with an earlier packet not yet dispatched stays. -/
def Obligations.WaitingPackets : Prop :=
  (∀ s f pos p, ready s f pos 0x00 p →
    ∃ t u, exec (.pktNop f pos) s = .next t ∧ follows u t f p ∧ ended u f pos St.DONE 0 ∧ packetOnly s u f pos) ∧
  (∀ s f pos p, ready s f pos 0x01 p → alone s f pos → ∃ t, exec (.pktBarrier f pos) s = .next t ∧ ended t f pos St.DONE 0) ∧
  (∀ s f pos p, ready s f pos 0x01 p → posApart s f → p.bits 4 0 0 = 0 → (∃ q ∈ earlier (getFn s f) pos, q.phase = .fetched) →
    ∃ t, exec (.pktBarrier f pos) s = .next t ∧ getPkt t f pos = some (asTaken s p)) ∧
  (∀ s f pos p g, ready s f pos 0x11 p → alone s f pos → usableProg s f p (p.bits 4 11 0) = some g →
    ∃ t, exec (.pktUnloadProgram f pos) s = .next t ∧ ended t f pos St.DONE 0 ∧ getProg t f (p.bits 4 11 0) = none ∧
      ∀ id, id ≠ p.bits 4 11 0 → (∀ q ∈ (getFn s f).packets, q.opcode ≠ 0x11 ∨ q.pos = pos) → (∀ q ∈ (getFn s f).packets, q.opcode ≠ 0x15) →
        getProg t f id = getProg s f id) ∧
  (∀ s f pos p, ready s f pos 0x11 p → usableProg s f p (p.bits 4 11 0) = none →
    ∃ t, exec (.pktUnloadProgram f pos) s = .next t ∧ ended t f pos St.BAD_PARAM 0) ∧
  (∀ s f pos p g, ready s f pos 0x15 p → alone s f pos → usableProg s f p (p.bits 4 11 0) = some g →
    (Tab.get Seq.reset g.seqs (p.bits 5 9 0)).joined = true → (Tab.get Seq.reset g.seqs (p.bits 5 9 0)).leaving = none →
    (Tab.get Seq.reset g.seqs (p.bits 5 9 0)).steps = [] →
    ∃ t, exec (.pktStepLeave f pos) s = .next t ∧ ended t f pos St.DONE ((Tab.get Seq.reset g.seqs (p.bits 5 9 0)).run % 2 ^ 32) ∧
      ∀ g', getProg t f (p.bits 4 11 0) = some g' → Tab.get Seq.reset g'.seqs (p.bits 5 9 0) = Seq.reset) ∧
  (∀ s f pos p g, ready s f pos 0x15 p → usableProg s f p (p.bits 4 11 0) = some g →
    (Tab.get Seq.reset g.seqs (p.bits 5 9 0)).joined = false →
    ∃ t, exec (.pktStepLeave f pos) s = .next t ∧ ended t f pos St.BAD_PARAM 0)

/-- SIGNAL_FENCE, WAIT_FENCE, its timeout and LINK_SEND (Table 4.5, R115 to R118, R124): a local signal completes, a remote one asks its
peer; a wait completes at once where the slot already meets it, else it stays in flight; a timeout is a function-scope fault. -/
def Obligations.FencePackets : Prop :=
  (∀ s f pos p, ready s f pos 0x02 p →
    (p.fFence = false → ∃ t u, exec (.pktSignalFence f pos) s = .next t ∧ follows u t f p ∧ refusedAs s u f pos St.BAD_PARAM) ∧
    (p.fFence = true → p.bits 4 0 0 = 0 →
      ∃ t u, exec (.pktSignalFence f pos) s = .next t ∧ follows u t f p ∧ ended u f pos St.DONE 0 ∧ packetOnly s u f pos) ∧
    (p.fFence = true → p.bits 4 0 0 ≠ 0 → p.bits 4 2 1 = s.boot.podId →
      ∃ t u, exec (.pktSignalFence f pos) s = .next t ∧ follows u t f p ∧ refusedAs s u f pos St.BAD_PARAM) ∧
    (p.fFence = true → p.bits 4 0 0 ≠ 0 → p.bits 4 2 1 ≠ s.boot.podId → hasRoute s (p.bits 4 2 1) = false →
      ∃ t u, exec (.pktSignalFence f pos) s = .next t ∧ follows u t f p ∧ refusedAs s u f pos St.ROUTE_NONE) ∧
    (p.fFence = true → p.bits 4 0 0 ≠ 0 → p.bits 4 2 1 ≠ s.boot.podId → hasRoute s (p.bits 4 2 1) = true →
      ∃ t u, exec (.pktSignalFence f pos) s = .next t ∧ follows u t f p ∧ askedPeer s u f p (p.bits 4 2 1) 0x10)) ∧
  (∀ s f pos p, ready s f pos 0x03 p → p.bits 5 15 0 ≠ 0 → p.bits 4 0 0 = 0 →
    (fenceMeets (Tab.get 0 (getFn s f).shadow (p.bits 4 18 10)) p.value (p.bits 4 19 19 == 1) = true →
      (nbit (Tab.get 0 (getFn s f).shadow (p.bits 4 18 10)) 63 = false ∨ p.bits 4 19 19 = 0) →
      ∃ t u, exec (.pktWaitFence f pos) s = .next t ∧ follows u t f p ∧ ended u f pos St.DONE 0 ∧ packetOnly s u f pos) ∧
    (nbit (Tab.get 0 (getFn s f).shadow (p.bits 4 18 10)) 63 = true → p.bits 4 19 19 = 1 →
      ∃ t, exec (.pktWaitFence f pos) s = .next t ∧ follows (functionFault' (begun s f pos) f
        (nbits (Tab.get 0 (getFn s f).shadow (p.bits 4 18 10)) 47 32) St.DISCARDED_BY_FAULT pos) t f p) ∧
    (fenceMeets (Tab.get 0 (getFn s f).shadow (p.bits 4 18 10)) p.value (p.bits 4 19 19 == 1) = false →
      ∃ t u, exec (.pktWaitFence f pos) s = .next t ∧ follows u t f p ∧ u = begun s f pos)) ∧
  (∀ s f pos p, ready s f pos 0x03 p → p.bits 5 15 0 = 0 →
    ∃ t u, exec (.pktWaitFence f pos) s = .next t ∧ follows u t f p ∧ refusedAs s u f pos St.BAD_PARAM) ∧
  (∀ s f pos p, ready s f pos 0x03 p → p.bits 5 15 0 ≠ 0 → p.bits 4 0 0 = 1 → p.bits 4 2 1 ≠ s.boot.podId → hasRoute s (p.bits 4 2 1) = true →
    ∃ t u, exec (.pktWaitFence f pos) s = .next t ∧ follows u t f p ∧ askedPeer s u f p (p.bits 4 2 1) 0x11) ∧
  (∀ s f pos p, getPkt s f pos = some p → p.opcode = 0x03 → p.phase = .dispatched →
    exec (.pktWaitFenceTimeout f pos) s = .next (functionFault s f St.BUDGET_EXCEEDED pos)) ∧
  (∀ s f pos, (∀ p, getPkt s f pos = some p → p.opcode ≠ 0x03 ∨ p.phase ≠ .dispatched) → exec (.pktWaitFenceTimeout f pos) s = .next s) ∧
  (∀ s f pos p, ready s f pos 0x50 p → p.bits 4 1 0 ≠ s.boot.podId →
    (hasRoute s (p.bits 4 1 0) = true → ∃ t u, exec (.pktLinkSend f pos) s = .next t ∧ follows u t f p ∧ askedPeer s u f p (p.bits 4 1 0) 0x13) ∧
    (hasRoute s (p.bits 4 1 0) = false →
      ∃ t u, exec (.pktLinkSend f pos) s = .next t ∧ follows u t f p ∧ refusedAs s u f pos St.ROUTE_NONE))

/-- LOAD_PROGRAM, RUN_JOB, RUN_BATCH, STEP_JOIN, RESOLVE_PENCIL and QUOTA_SET (4.5.2, R120, R121, R126 to R130, R134). -/
def Obligations.JobPackets : Prop :=
  (∀ s f pos p g, ready s f pos 0x10 p → loadsWell (begun s f pos) f p g →
    ∃ t u g', exec (.pktLoadProgram f pos) s = .next t ∧ follows u t f p ∧ ended u f pos St.DONE ((g.c + g.pencil * 2 ^ 16) % 2 ^ 32) ∧
      u.progs = s.progs ++ [g'] ∧ g' = { g with blocks := g'.blocks, pblocks := g'.pblocks } ∧
      (∀ b ∈ g'.blocks, ∀ h ∈ s.progs, ¬ b ∈ h.blocks) ∧ (∀ b ∈ g'.pblocks, ∀ h ∈ s.progs, ¬ b ∈ h.pblocks)) ∧
  (∀ s f pos p, ready s f pos 0x10 p → s.cache.transition = none → (getProg s f (p.bits 4 11 0)).isSome = true →
    ∃ t u v, exec (.pktLoadProgram f pos) s = .next t ∧ follows u t f p ∧ refusedAs (dropFetched s 20 f) v f pos St.BAD_PARAM ∧
      u = failWaiting v f pos (p.bits 4 11 0) ∧ othersKept s u f ∧
      ∀ y q, getPkt v f y = some q → ∃ b, getPkt u f y = some { q with loadRefused := b || q.loadRefused }) ∧
  (∀ s f pos p g, ready s f pos 0x12 p → jobChecks (begun s f pos) f (asTaken s p) = none → getProg s f (p.bits 4 11 0) = some g →
    entryTest (touchBinds (begun s f pos) f 1 (bindingsOf p)) f p.cls g.c (p.bits 6 23 0) 0 = none →
    ∃ t u v, exec (.pktRunJob f pos) s = .next t ∧ follows u t f p ∧ u = selectionPass v ∧ queuedJob s v f p g 1) ∧
  (∀ s f pos p g, ready s f pos 0x13 p → jobChecks (begun s f pos) f (asTaken s p) = none → getProg s f (p.bits 4 11 0) = some g →
    entryTest (touchBinds (begun s f pos) f (p.bits 8 22 16) (bindingsOf p)) f p.cls g.c (p.bits 6 23 0) 0 = none →
    ∃ t u v, exec (.pktRunBatch f pos) s = .next t ∧ follows u t f p ∧ u = selectionPass v ∧ queuedJob s v f p g (p.bits 8 22 16)) ∧
  (∀ s f pos p st op i, (op, i) ∈ [(0x12, Instr.pktRunJob f pos), (0x13, .pktRunBatch f pos), (0x14, .pktStepJoin f pos)] →
    ready s f pos op p → jobChecks (begun s f pos) f (asTaken s p) = some st →
    ∃ t u v, exec i s = .next t ∧ follows u t f p ∧ lookedUp (begun s f pos) v ∧
      (st = St.REFUSED_RESOURCES → entryRefused v u f p st) ∧ (st ≠ St.REFUSED_RESOURCES → refusedAs v u f pos st)) ∧
  (∀ s f pos p g n st op i, (op, n, i) ∈ [(0x12, 1, Instr.pktRunJob f pos), (0x13, p.bits 8 22 16, .pktRunBatch f pos)] →
    ready s f pos op p → jobChecks (begun s f pos) f (asTaken s p) = none → getProg s f (p.bits 4 11 0) = some g →
    entryTest (touchBinds (begun s f pos) f n (bindingsOf p)) f p.cls g.c (p.bits 6 23 0) 0 = some st →
    ∃ t u v, exec i s = .next t ∧ follows u t f p ∧ lookedUp (begun s f pos) v ∧ entryRefused v u f p st) ∧
  (∀ s f pos p g, ready s f pos 0x14 p → jobChecks (begun s f pos) f (asTaken s p) = none → getProg s f (p.bits 4 11 0) = some g →
    entryTest (touchBinds (begun s f pos) f 1 (bindingsOf p)) f p.cls g.c (p.bits 6 23 0)
      ((Tab.get Seq.reset g.seqs (p.bits 9 9 0)).steps.length * g.tLast) = none →
    ∃ t u v, exec (.pktStepJoin f pos) s = .next t ∧ follows u t f p ∧ u = selectionPass (stepBoundary v f g.id) ∧
      (∃ w, v.tt.steps = s.tt.steps ++ [w] ∧ w.fn = f ∧ w.prog = g.id ∧ w.slot = p.bits 9 9 0 ∧ w.pos = pos ∧ w.cls = p.cls) ∧
      ∀ g', getProg v f (p.bits 4 11 0) = some g' → (Tab.get Seq.reset g'.seqs (p.bits 9 9 0)).joined = true ∧
        (Tab.get Seq.reset g'.seqs (p.bits 9 9 0)).steps = (Tab.get Seq.reset g.seqs (p.bits 9 9 0)).steps ++ [pos]) ∧
  (∀ s f pos p, ready s f pos 0x16 p →
    (p.fBarrier = true → ∃ t u, exec (.pktResolvePencil f pos) s = .next t ∧ follows u t f p ∧ refusedAs s u f pos St.BAD_PARAM) ∧
    (p.fBarrier = false → getJob s f (p.dw 4).toNat = none → (∀ w ∈ s.tt.steps, ¬(w.fn = f ∧ w.pos = (p.dw 4).toNat)) →
      ∃ t u, exec (.pktResolvePencil f pos) s = .next t ∧ follows u t f p ∧ ended u f pos St.DONE 2 ∧ packetOnly s u f pos) ∧
    (∀ j g, p.fBarrier = false → getJob s f (p.dw 4).toNat = some j → j.cut = none → getProg s f j.prog = some g →
      (hostResolved g (p.bits 5 5 0) = false →
        ∃ t u, exec (.pktResolvePencil f pos) s = .next t ∧ follows u t f p ∧ refusedAs s u f pos St.BAD_PARAM) ∧
      (hostResolved g (p.bits 5 5 0) = true → (∀ e ∈ j.elems, e.pos = (p.dw 4).toNat → (Tab.get none e.preds (p.bits 5 5 0)).isSome = true) →
        ∃ t u, exec (.pktResolvePencil f pos) s = .next t ∧ follows u t f p ∧ ended u f pos St.DONE 1 ∧ packetOnly s u f pos) ∧
      (hostResolved g (p.bits 5 5 0) = true → (∃ e ∈ j.elems, e.pos = (p.dw 4).toNat ∧ Tab.get none e.preds (p.bits 5 5 0) = none) →
        ∃ t u, exec (.pktResolvePencil f pos) s = .next t ∧ follows u t f p ∧ ended u f pos St.DONE 0)) ∧
    (∀ w g, p.fBarrier = false → getJob s f (p.dw 4).toNat = none →
      s.tt.steps.find? (fun w => w.fn == f && w.pos == (p.dw 4).toNat) = some w → getProg s f w.prog = some g →
      hostResolved g (p.bits 5 5 0) = true → Tab.get none w.elem.preds (p.bits 5 5 0) = none →
      ∃ t u, exec (.pktResolvePencil f pos) s = .next t ∧ follows u t f p ∧ ended u f pos St.DONE 0 ∧
        (∀ x ∈ u.tt.steps, x.fn = f → x.pos = (p.dw 4).toNat → Tab.get none x.elem.preds (p.bits 5 5 0) = some (p.dw 6 != 0)))) ∧
  (∀ s f pos p, ready s f pos 0x72 p → (quotaFits s p →
      ∃ t u v, exec (.pktQuotaSet f pos) s = .next t ∧ follows u t f p ∧ u = selectionPass v ∧ ended v f pos St.DONE 0 ∧
        (getFn v (p.bits 4 6 0)).quota = { clusters := p.bits 5 4 0, slate := (p.dw 6).toNat, scratch := (p.dw 7).toNat, pencil := (p.dw 8).toNat
                                           classLimit := p.dw 9, share := p.bits 10 6 0, budgetCap := p.bits 11 23 0 } ∧
        ∀ g, g ≠ p.bits 4 6 0 → (getFn v g).quota = (getFn s g).quota) ∧
    (¬ quotaFits s p → ∃ t u, exec (.pktQuotaSet f pos) s = .next t ∧ follows u t f p ∧ refusedAs s u f pos St.BAD_PARAM))

/-- The packets of the copy engines, the renderer, the display and the control processor at dispatch (4.5.3 to 4.5.6): a bad one is
refused; a good one enters its engine's queue, or its unit. -/
def Obligations.EnginePackets : Prop :=
  (∀ s f pos p i op, ready s f pos op p → (op = 0x20 ∧ i = .pktCopy f pos ∨ op = 0x21 ∧ i = .pktCopyCompress f pos ∨
      op = 0x22 ∧ i = .pktCopyDecompress f pos ∨ op = 0x24 ∧ i = .pktFill f pos) →
    (copyBad s f p = true → ∃ t u, exec i s = .next t ∧ follows u t f p ∧ refusedAs s u f pos St.BAD_PARAM) ∧
    (∀ e, copyBad s f p = false → pickEngine s p = some e → ∃ t u, exec i s = .next t ∧ follows u t f p ∧
      u = kickEng (setEng (begun s f pos) e { getEng s e with queue := (getEng s e).queue ++ [(f, pos)] }) e) ∧
    (copyBad s f p = false → pickEngine s p = none → ∃ t, exec i s = .next t ∧ getFn t f = { getFn s f with packets := (getFn t f).packets } ∧
      (∃ q, getPkt t f pos = some q ∧ q.phase = .fetched ∧ q.words = p.words) ∧ t = { s with fns := t.fns, dispatched := t.dispatched })) ∧
  (∀ s f pos p g, ready s f pos 0x23 p → copyBad s f p = false → getProg s f (p.bits 4 19 8) = some g →
    (getRgn g (p.bits 4 27 20)).pend = none →
    ∃ t u, exec (.pktRegionUpdate f pos) s = .next t ∧ follows u t f p ∧
      u = promote (setRgn (begun s f pos) f (p.bits 4 19 8) (p.bits 4 27 20) { getRgn g (p.bits 4 27 20) with pend := some pos }) f
        (p.bits 4 19 8) (p.bits 4 27 20)) ∧
  (∀ s f pos p g old q, ready s f pos 0x23 p → copyBad s f p = false → getProg s f (p.bits 4 19 8) = some g → old ≠ pos →
    (getRgn g (p.bits 4 27 20)).pend = some old → (getRgn g (p.bits 4 27 20)).running ≠ none → getPkt s f old = some q → q.phase ≠ .complete →
    ∃ t u v, exec (.pktRegionUpdate f pos) s = .next t ∧ follows u t f p ∧ u = promote v f (p.bits 4 19 8) (p.bits 4 27 20) ∧
      ended v f old St.SUPERSEDED ((getRgn g (p.bits 4 27 20)).version % 2 ^ 32) ∧ getPkt v f pos = some (asTaken s p) ∧
      getProg v f (p.bits 4 19 8) = some { g with
        rgn := Tab.set RegionState.reset g.rgn (p.bits 4 27 20) { getRgn g (p.bits 4 27 20) with pend := some pos } } ∧
      ∀ r, (getRgn g (p.bits 4 27 20)).running = some r → atEngine s f r = true → u = v) ∧
  (∀ s f pos p, ready s f pos 0x30 p → s.rend.queue.length < 16 →
    (dlShapeOk p = false → ∃ t u, exec (.pktDrawList f pos) s = .next t ∧ follows u t f p ∧ refusedAs s u f pos St.BAD_PARAM) ∧
    (dlShapeOk p = true → pinned s f (dlList p) (dlLen p) false = true → pinned s f (dlTarget p) (dlExtent p) true = true →
      pinned s f (dlBin p) (dlBinLen p) true = true →
      ∃ t u v, exec (.pktDrawList f pos) s = .next t ∧ follows u t f p ∧ u = kickDraw v ∧ v.rend.queue = s.rend.queue ++ [(f, pos)] ∧
        v.rend.cur = s.rend.cur ∧ v.mem = s.mem ∧ v.fns = (begun s f pos).fns) ∧
    (dlShapeOk p = true → (pinned s f (dlList p) (dlLen p) false = false ∨ pinned s f (dlTarget p) (dlExtent p) true = false ∨
      pinned s f (dlBin p) (dlBinLen p) true = false) →
      ∃ t u v, exec (.pktDrawList f pos) s = .next t ∧ follows u t f p ∧ lookedUp (begun s f pos) v ∧ refusedAs v u f pos St.UNPINNED_OPERAND)) ∧
  (∀ s f pos p, ready s f pos 0x30 p → 16 ≤ s.rend.queue.length → ∃ t, exec (.pktDrawList f pos) s = .next t ∧
    (∃ q, getPkt t f pos = some q ∧ q.phase = .fetched ∧ q.words = p.words) ∧ t = { s with fns := t.fns, dispatched := t.dispatched }) ∧
  (∀ s f pos p, ready s f pos 0x40 p → p.addr 5 % 256 ≠ 0 →
    ∃ t u, exec (.pktLayerFlip f pos) s = .next t ∧ follows u t f p ∧ refusedAs s u f pos St.BAD_PARAM) ∧
  (∀ s f pos p, ready s f pos 0x40 p → p.addr 5 % 256 = 0 → p.addr 7 = 0 → p.dw 10 = 0 → (p.dw 9).toNat % 64 = 0 →
    (flipExtents (rd s) (p.bits 4 2 0) (flipOf f p)).all (fun e => pinned s f e.1 e.2 false) = true →
    lfld (inForce s) (R.DC_LAYER_n_CTRL (p.bits 4 2 0)) F.DC_LAYER_n_CTRL.OWNER = f → twoPlanes (layFmt (rd s) (p.bits 4 2 0)) = false →
    r0b (rd s) (p.bits 4 2 0) ≤ (p.dw 9).toNat →
    ∃ t u, exec (.pktLayerFlip f pos) s = .next t ∧ follows u t f p ∧ (getLayer u (p.bits 4 2 0)).pend = some (flipOf f p) ∧
      (getLayer u (p.bits 4 2 0)).bound = (getLayer s (p.bits 4 2 0)).bound ∧ (∀ n, n ≠ p.bits 4 2 0 → getLayer u n = getLayer s n) ∧ u.mem = s.mem) ∧
  (∀ s pos p, ready s 0 pos 0x41 p → (cfgOf p).source = 3 →
    ∃ t u, exec (.pktDisplayConfig 0 pos) s = .next t ∧ follows u t 0 p ∧ refusedAs s u 0 pos St.BAD_PARAM) ∧
  (∀ s pos p, ready s 0 pos 0x41 p → ((cfgOf p).source = 0 ∨ (cfgOf p).source = 2) →
    ∃ t u, exec (.pktDisplayConfig 0 pos) s = .next t ∧ follows u t 0 p ∧
      u = kickCfg { begun s 0 pos with disp := { s.disp with cfgQ := s.disp.cfgQ ++ [pos] } }) ∧
  (∀ s pos p, ready s 0 pos 0x41 p → (cfgOf p).source = 1 →
    ((cfgRangeOk (cfgOf p) = false ∨ cfgFits (cfgOf p) = false) →
      ∃ t u, exec (.pktDisplayConfig 0 pos) s = .next t ∧ follows u t 0 p ∧ refusedAs s u 0 pos St.BAD_PARAM) ∧
    (cfgRangeOk (cfgOf p) = true → cfgFits (cfgOf p) = true →
      ((cfgOf p).wbEn = false ∨ pinned s 0 (cfgOf p).wbBase (wbBuffers s * slotBytes (cfgOf p)) true = true →
        ∃ t u v, exec (.pktDisplayConfig 0 pos) s = .next t ∧ follows u t 0 p ∧ lookedUp (begun s 0 pos) v ∧
          u = kickCfg { v with disp := { s.disp with cfgQ := s.disp.cfgQ ++ [pos] } }) ∧
      ((cfgOf p).wbEn = true → pinned s 0 (cfgOf p).wbBase (wbBuffers s * slotBytes (cfgOf p)) true = false →
        ∃ t u v, exec (.pktDisplayConfig 0 pos) s = .next t ∧ follows u t 0 p ∧ lookedUp (begun s 0 pos) v ∧
          refusedAs v u 0 pos St.UNPINNED_OPERAND))) ∧
  (∀ s pos p, ready s 0 pos 0x70 p → rb s R.CP_STAGE_CTRL F.CP_STAGE_CTRL.STAGE_EN = true →
    ∃ t u, exec (.pktConfigApply 0 pos) s = .next t ∧ follows u t 0 p ∧
      u.boot = { s.boot with applyPos := some pos, imgHost := true, imgPhase := .loaded
                             img := (List.range (min 1048576 (max 64 (p.dw 4).toNat))).map (Tab.get 0 s.boot.staging) } ∧ u.regs = s.regs) ∧
  (∀ s pos p, ready s 0 pos 0x70 p → rb s R.CP_STAGE_CTRL F.CP_STAGE_CTRL.STAGE_EN = false →
    ∃ t u, exec (.pktConfigApply 0 pos) s = .next t ∧ follows u t 0 p ∧ ended u 0 pos St.BAD_PARAM 0 ∧
      rf u R.CP_CONFIG_RESULT F.CP_CONFIG_RESULT.STATUS = St.BAD_PARAM ∧ u.log.cross.length = s.log.cross.length + 1 ∧
      u.boot = { s.boot with applyPos := none, imgPhase := .settled }) ∧
  (∀ s pos p, ready s 0 pos 0x71 p →
    (p.bits 4 2 0 < 2 → ∃ t u, exec (.pktPowerRequest 0 pos) s = .next t ∧ follows u t 0 p ∧ ended u 0 pos St.DONE 0 ∧ packetOnly s u 0 pos) ∧
    (3 < p.bits 4 2 0 → ∃ t u, exec (.pktPowerRequest 0 pos) s = .next t ∧ follows u t 0 p ∧ refusedAs s u 0 pos St.BAD_PARAM) ∧
    (p.bits 4 2 0 = 2 ∨ p.bits 4 2 0 = 3 → ∃ t u, exec (.pktPowerRequest 0 pos) s = .next t ∧ follows u t 0 p ∧
      u = askRound { begun s 0 pos with pwr := { s.pwr with reqs := s.pwr.reqs ++ [⟨pos, p.bits 4 2 0, true, false⟩] } } (p.bits 4 2 0)))

/-- JOB_START, JOB_END and BUDGET_EXPIRY (R132, R142, R143, R145 to R147, R292, R293, R405): a selected job whose clusters are powered and whose
extents are pinned runs; a job whose stages have ended, or that was ended before, finishes its packet with its accounts, once its peers
have acknowledged its writes; an overrun faults, unless a pencilled predicate is what is missing. -/
def Obligations.JobsStartAndEnd : Prop :=
  (∀ s v f pos j g, v = duePass s → getJob v f pos = some j → j.selected = true → j.running = false →
    (∀ n ∈ j.clusters, clusterSt v n = .idle) →
    getProg v j.fn j.prog = some g → extentsPinned v j.fn (startExtents g j) = true →
    ∃ t u, exec (.jobStart f pos) s = .next t ∧ t = settleStages u j g ∧
      getJob u f pos = some { j with running := true, tStart := fineNow v } ∧
      (j.step = false → j.submitted ≤ 3 →
        (j.passed = false → ctrUp v u (C.FN f (0x1020 + 0x18 * j.submitted)) 1) ∧
        (j.passed = true → ctrUp v u (C.FN f (0x1028 + 0x18 * j.submitted)) 1))) ∧
  (∀ s v f pos j, v = duePass s → getJob v f pos = some j →
    (j.selected = false ∨ j.running = true ∨ ∃ n ∈ j.clusters, clusterSt v n ≠ .idle) → exec (.jobStart f pos) s = .next v) ∧
  (∀ s, s.tt.passDue = false → duePass s = s) ∧
  (∀ s f pos j g e es, getJob s f pos = some j → sameJob s j = j → j.running = true → (stagesEnded s j = true ∨ j.cut.isSome = true) →
    remotePending s j = false → getProg s f j.prog = some g → j.elems = e :: es → (∃ p, getPkt s f e.pos = some p ∧ p.phase ≠ .complete) →
    ∃ t v, exec (.jobEnd f pos) s = .next t ∧
      t = powerNote v (selectionPass (promoteRegions (stepBoundary (settleFn (dropJob v j) f) f j.prog))) ∧
      (j.step = false → ended v f e.pos (j.cut.getD (elemStatus j.elems)) (stageResult j.elems % 2 ^ 32)) ∧
      (j.step = true → es = [] → ended v f e.pos (j.cut.getD (elemStatus [e])) (((Tab.get Seq.reset g.seqs e.idx).run + 1) % 2 ^ 32)) ∧
      (∀ g', getProg v f j.prog = some g' → g'.est = nextEst g.est (ranFor s j) j.n ∧ (j.step = true → g'.tLast = ranFor s j)) ∧
      (shareOf s f ≠ 0 → deficit v j.startCls f =
        clampInt (-8388608) 8388607 (deficit s j.startCls f + (j.charge : Int) - (jobC s j * ranFor s j : Nat)))) ∧
  (∀ s f pos j, getJob s f pos = some j → (j.running = false ∨ (stagesEnded s j = false ∧ j.cut = none) ∨ remotePending s j = true) →
    exec (.jobEnd f pos) s = .next s) ∧
  (∀ s f pos j, getJob s f pos = some j → j.running = true → j.cut = none → stuckOnPredicate s j = false →
    exec (.budgetExpiry f pos) s = .next (functionFault s f St.BUDGET_EXCEEDED pos)) ∧
  (∀ s f pos j, getJob s f pos = some j → j.running = true → j.cut = none → stuckOnPredicate s j = true →
    ∃ u, (∀ k, getJob u f pos = some k → k.cut = some St.PENCIL_UNRESOLVED ∧ ∀ x ∈ k.stages, x.2.phase = .ended ∧ x.2.granules = []) ∧
      (∀ w ∈ u.waves, ¬(w.fn = f ∧ ∃ e ∈ j.elems, e.pos = w.pos)) ∧
      (remotePending u j = false → exec (.budgetExpiry f pos) s = .next (endJob u j (some St.PENCIL_UNRESOLVED))) ∧
      (remotePending u j = true → exec (.budgetExpiry f pos) s = .next u)) ∧
  (∀ s f pos j, getJob s f pos = some j → (j.running = false ∨ j.cut.isSome = true) → exec (.budgetExpiry f pos) s = .next s)

/-- Ageing and clusters (R138, R143, R144, R506, R507). -/
def Obligations.WaitingJobsAgeAndClustersStart : Prop :=
  (∀ s, ∃ t v, exec .ageingStep s = .next t ∧ t = selectionPass v ∧ List.Forall₂ (agedTo s) s.tt.jobs v.tt.jobs ∧
    v.fns = s.fns ∧ v.progs = s.progs ∧ v.clusters = s.clusters) ∧
  (∀ s n, n < 16 → clusterSt s n = .starting → railReady s n = true →
    ∃ t u, exec (.clusterStart n) s = .next t ∧ clusterSt u n = .idle ∧ (∀ m, m ≠ n → clusterSt u m = clusterSt s m) ∧
      u = { s with clusters := u.clusters } ∧ traced u t) ∧
  (∀ s n, n < 16 → clusterSt s n = .starting → railReady s n = false → exec (.clusterStart n) s = .next s) ∧
  (∀ s n, n < 16 → clusterSt s n = .stopped → (freeClusters s).length ≤ standby s →
    ((freeClusters s).filter (fun m => clusterSt s m == .idle)).length < standby s →
    ∃ t u, exec (.clusterStart n) s = .next t ∧ clusterSt u n = .idle ∧ (∀ m, m ≠ n → clusterSt u m = clusterSt s m) ∧
      u = { s with clusters := u.clusters } ∧ traced u t) ∧
  (∀ s n, clusterSt s n = .stopped → standby s < (freeClusters s).length → exec (.clusterStart n) s = .next s) ∧
  (∀ s n, n < 16 → clusterSt s n = .idle → clusterBusy s n = false → standby s < (freeClusters s).length →
    ∃ t u, exec (.clusterStop n) s = .next t ∧ clusterSt u n = .stopped ∧ (∀ m, m ≠ n → clusterSt u m = clusterSt s m) ∧
      u = { s with clusters := u.clusters } ∧ traced u t) ∧
  (∀ s n, clusterBusy s n = true ∨ (freeClusters s).length ≤ standby s → exec (.clusterStop n) s = .next s)

/-- Invalidations, ATS and page requests (R162, R163, R168, R171 to R173, R178, R183, Table 6.6). -/
def Obligations.TranslationsComeAndGo : Prop :=
  (∀ s, hostOpen s → bootDone s = true → s.xl.inval = none →
    ∃ t u, exec .invalidate s = .next t ∧ traced u t ∧ u.xl.inval = some (invalRange s) ∧ noneLeft u (invalRange s) ∧
      u.xl.atc = s.xl.atc ∧ u = { s with xl := u.xl }) ∧
  (∀ s, hostOpen s → bootDone s = true → s.xl.inval ≠ none → exec .invalidate s = .next (bump32 s R.HI_WRITE_REJECT)) ∧
  (∀ s q, s.xl.inval = some q →
    (invalHeld s q = false → invalBusy s q = false →
      ∃ t u, exec .invalidationComplete s = .next t ∧ u = { s with xl := { s.xl with inval := none } } ∧ traced u t) ∧
    (invalHeld s q = true ∨ invalBusy s q = true → exec .invalidationComplete s = .next s)) ∧
  (∀ s f a n tag, s.xl.invals.length < 32 → atsUsers s f (a / 2 ^ n * 2 ^ n) (2 ^ n) = [] →
    exec (.atsInvalidateRequest f a n tag) s = .next { s with xl := { s.xl with
      atc := s.xl.atc.filter (fun t => !t.within f (a / 2 ^ n * 2 ^ n) (2 ^ n))
      invals := s.xl.invals ++ [⟨f, a / 2 ^ n * 2 ^ n, n, tag, false, []⟩] } }) ∧
  (∀ s f a n tag l, s.xl.invals.length < 32 → atsUsers s f (a / 2 ^ n * 2 ^ n) (2 ^ n) = l → l ≠ [] →
    ∃ t u, exec (.atsInvalidateRequest f a n tag) s = .next t ∧ traced u t ∧
      u = { s with xl := { s.xl with invals := s.xl.invals ++ [⟨f, a / 2 ^ n * 2 ^ n, n, tag, true, l⟩] } }) ∧
  (∀ s f a n tag, 32 ≤ s.xl.invals.length → exec (.atsInvalidateRequest f a n tag) s = .next s) ∧
  (∀ s who f va w, xlate s who f va false w = .hold → (16 ≤ who ∨ s.tt.jobs = []) → ∃ q ∈ s.xl.invals, q.held = true ∧ q.fn = f) ∧
  (∀ s tag q, noErrors s → s.xl.invals.find? (fun q => q.tag == tag) = some q → (q.held = false ∨ atsInUse s q = false) →
    ∃ t u v, exec (.atsInvalidateCompletion tag) s = .next t ∧ t = resumeHolds v ∧ traced u v ∧ u.xl.invals = s.xl.invals.erase q ∧
      (∀ x ∈ u.xl.atc, x.within q.fn q.addr (2 ^ q.log2) = false) ∧ u.out = s.out ++ [.atsInvalDone q.fn q.tag] ∧
      u = { s with xl := u.xl, out := u.out }) ∧
  (∀ s tag q, s.xl.invals.find? (fun q => q.tag == tag) = some q → q.held = true → atsInUse s q = true →
    exec (.atsInvalidateCompletion tag) s = .next s) ∧
  (∀ s f a n target r w, noErrors s → (∃ q ∈ s.xl.reqs, q.awaits f a = true) →
    ∃ t v, exec (.atsTranslationCompletion f a true n target r w) s = .next t ∧ t = wakeXfers v ∧ v = { s with xl := v.xl } ∧
      (∀ q ∈ v.xl.reqs, q.awaits f a = false) ∧
      v.xl.atc.getLast? = some ⟨f, a / 2 ^ max 12 n * 2 ^ max 12 n, max 12 n, target / 2 ^ max 12 n * 2 ^ max 12 n, r, w⟩ ∧
      (enginesIdle s → t = v)) ∧
  (∀ s f a n target r w ok, (∀ q ∈ s.xl.reqs, q.awaits f a = false) →
    exec (.atsTranslationCompletion f a ok n target r w) s = .next s) ∧
  (∀ s f a n target r w q, s.xl.reqs = [q] → q.awaits f a = true →
    (s.pcie.ctoDisable = false → exec (.translationRequestTimeout f a) s = exec (.atsTranslationCompletion f a false n target r w) s) ∧
    (q.engine = 6 → exec (.atsTranslationCompletion f a false n target r w) s =
      .next (functionFault { s with xl := { s.xl with reqs := [] } } f St.TRANSLATION_TIMEOUT q.pos)) ∧
    (q.engine = 4 ∨ q.engine = 5 → exec (.atsTranslationCompletion f a false n target r w) s =
      .next (accessFault { s with xl := { s.xl with reqs := [] } } f q.va q.write St.TRANSLATION_TIMEOUT q.pos)) ∧
    (∀ x p, q.engine < 4 → findXfer s q.engine f q.pos = some x → x.phase ≠ .failed → getPkt s f q.pos = some p →
      ∃ t, exec (.atsTranslationCompletion f a false n target r w) s = .next t ∧ xferFailed t q.engine f q.pos St.TRANSLATION_TIMEOUT)) ∧
  (∀ s f a, s.pcie.ctoDisable = true → exec (.translationRequestTimeout f a) s = .next s) ∧
  (∀ s i code, findGroup s i = none → exec (.prgResponse i code) s = .next (bump32 s R.MT_PRI_FAILURES)) ∧
  (∀ s i code g x p, findGroup s i = some g → g.dead = false → code ≠ 0 → findXfer s g.engine g.fn g.pos = some x →
    getPkt s g.fn g.pos = some p →
    ∃ t, exec (.prgResponse i code) s = .next t ∧ xferFailed t g.engine g.fn g.pos St.PAGE_FAULT_UNRESOLVED ∧
      (rd t R.MT_PRI_FAILURES).toNat = satAdd top32 (rd s R.MT_PRI_FAILURES).toNat 1) ∧
  (∀ s i g x, findGroup s i = some g → g.dead = false → g.more = [] → findXfer s g.engine g.fn g.pos = some x →
    ∃ t y, exec (.prgResponse i 0) s = .next t ∧ findXfer t g.engine g.fn g.pos = some y ∧ y.phase = .waitAts ∧ y.asked = x.asked ++ g.pages) ∧
  (∀ s i g, findGroup s i = some g → g.dead = true →
    exec (.priTimeout i) s = .next { s with xl := { s.xl with groups := s.xl.groups.erase g } }) ∧
  (∀ s i g x p, findGroup s i = some g → g.dead = false → findXfer s g.engine g.fn g.pos = some x → getPkt s g.fn g.pos = some p →
    ∃ t, exec (.priTimeout i) s = .next t ∧ xferFailed t g.engine g.fn g.pos St.PAGE_FAULT_UNRESOLVED)

/-- The carve-out, ECC errors, and the ends of transfers and of trial passes (R180, R188, R193, R201, R202, R217, Tables 8.4, 20.2). -/
def Obligations.CacheAndTransferEvents : Prop :=
  (∀ s v, hostOpen s → bootDone s = true → carveBusy s = false →
    ∃ t, exec (.scCarve v) s = .next t ∧ t.cache = { s.cache with transition := some (min 8 (fld v 3 0), min (min 8 (fld v 3 0)) (fld v 11 8)) } ∧
      t.regs = (storeFields s R.SC_CARVE v false).1.regs ∧ t = { s with regs := t.regs, cache := t.cache, dirty := t.dirty }) ∧
  (∀ s v, hostOpen s → bootDone s = true → carveBusy s = true →
    ∃ t, exec (.scCarve v) s = .next t ∧ t.cache = s.cache ∧ rd t R.SC_CARVE = rd s R.SC_CARVE) ∧
  (∀ s w p, s.cache.transition = some (w, p) →
    ∃ t, exec .carveTransitionDone s = .next t ∧ t.cache.wS = w ∧ t.cache.wP = p ∧ t.cache.transition = none ∧ (∀ o, scrGet t o = 0) ∧
      (∀ slice set way, way < 16 → set < 1024 → s.cache.wS ≤ way → way < w → dirGet t slice set way = none) ∧
      t = { s with cache := t.cache, ctr := t.ctr } ∧ ctrKept s t [0x400110]) ∧
  (∀ s slice set way, exec (.cacheEccError slice set ⟨way, true⟩) s = .next (bump s 0x400138)) ∧
  (∀ s slice set way, s.cache.wS ≤ way →
    (dirGet s slice set way = none → exec (.cacheEccError slice set ⟨way, false⟩) s = .next s) ∧
    (∀ x, dirGet s slice set way = some x → x.dirty = false → ∃ t, exec (.cacheEccError slice set ⟨way, false⟩) s = .next t ∧
      ctrUp s t 0x400140 1 ∧ t = { s with ctr := t.ctr, cache := t.cache }) ∧
    (∀ x, dirGet s slice set way = some x → x.dirty = true → ∃ t u, exec (.cacheEccError slice set ⟨way, false⟩) s = .next t ∧
      t = deviceFault u 1 7 (slice % 16 + set % 1024 * 2 ^ 4 + way % 16 * 2 ^ 14) 0 ∧
      memKept s u (fun a => x.line * 128 ≤ a ∧ a < x.line * 128 + 128) ∧ u = { s with mem := u.mem, freeCtr := u.freeCtr })) ∧
  (∀ s slice set way b, way < s.cache.wS → b = way % 16 * 2 ^ 21 + set % 1024 * 2 ^ 11 + slice % 16 * 2 ^ 7 →
    ∃ t u, exec (.cacheEccError slice set ⟨way, false⟩) s = .next t ∧
      t = deviceFault u 1 7 (slice % 16 + set % 1024 * 2 ^ 4 + way % 16 * 2 ^ 14) 0 ∧ u = { s with freeCtr := u.freeCtr, cache := u.cache } ∧
      ∀ o, (o < b ∨ b + 128 ≤ o) → scrGet u o = scrGet s o) ∧
  (∀ s a, (s.boot.ecc = false ∨ capBytes s ≤ a) → ∀ error, exec (.memoryEccError a error) s = .next s) ∧
  (∀ s a, s.boot.ecc = true → a < capBytes s →
    (∃ u, exec (.memoryEccError a .demand) s = .next (deviceFault u 2 7 (nbits a 9 7) (nbits a 37 7)) ∧ u = { s with cache := u.cache } ∧
      lineErr u (a / 128) = true) ∧
    (∃ t, exec (.memoryEccError a .prefetch) s = .next t ∧ ctrUp s t 0x400148 1 ∧ t = { s with ctr := t.ctr, cache := t.cache } ∧
      lineErr t (a / 128) = true) ∧
    exec (.memoryEccError a .corrected) s = .next (bump s 0xF00448)) ∧
  (∀ s e x p, noErrors s → (getEng s e).running = some x → (x.phase = .failed ∨ x.phase = .done) → xferSettled s e x = true →
    getPkt s x.fn x.pos = some p → p.opcode ≠ 0x23 → p.phase ≠ .complete →
    ∃ t v, exec (.transferEnd e) s = .next t ∧ t = promoteRegions (kickEng (settleFn v x.fn) e) ∧
      ended v x.fn x.pos x.status (x.result % 2 ^ 32) ∧ (getEng v e).running = none ∧ (getEng v e).queue = (getEng s e).queue ∧
      v.xl = s.xl ∧ v.progs = s.progs) ∧
  (∀ s e x p, noErrors s → (getEng s e).running = some x → x.phase = .trialDone → getPkt s x.fn x.pos = some p →
    (srcLen p ≤ x.data.length →
      exec (.compressTrialEnd e) s = .next (modXfer s e x (fun y => { y with phase := .failed, status := St.CODEC_NO_GAIN, result := x.data.length }))) ∧
    (x.data.length < srcLen p → (p.dw 10).toNat < x.data.length →
      exec (.compressTrialEnd e) s = .next (modXfer s e x (fun y => { y with phase := .failed, status := St.CODEC_OUTPUT_FULL, result := x.data.length }))) ∧
    (x.data.length < srcLen p → x.data.length ≤ (p.dw 10).toNat →
      exec (.compressTrialEnd e) s = .next (kickEng (modXfer s e x (fun y => { y with phase := .moving, emit := true, src := [], cursor := 0 })) e)))

/-- Tables 9.1 to 9.3, R241, R244, R245, R267: a format's value converts back to its bits; EXACT_INT clamps each addition;
the draws never reach 0; NMS keeps boxes that are apart and drops one only for a kept box that is not. -/
def Obligations.NumbersKeepTheirRules : Prop :=
  (∀ code b, code ≤ 10 → b < 2 ^ codeBits code → decodeNum code b ≠ .nan → encodeNum .rne code (decodeNum code b) = (b, 0)) ∧
  (∀ chunk u i ps, -2147483648 ≤ i → i ≤ 2147483647 →
    accumulate Mode.exactInt chunk u (Num.ofInt i) (ps.map Num.ofInt) =
      (Num.ofInt (intSum i ps).1, if (intSum i ps).2 then Fl.SAT else 0)) ∧
  (∀ seed tm tn op b l, 0 < laneSeed seed tm tn op b l ∧ laneSeed seed tm tn op b l < 65536) ∧
  (∀ x n, 0 < x → x < 65536 → 0 < lfsrAfter x n ∧ lfsrAfter x n < 65536) ∧
  (∀ box thr per top cs, ∃ ks, nmsKeep box thr per top [] cs = ks ∧ List.Sublist ks cs ∧ ks.length ≤ top ∧
    ks.Pairwise (boxesApart box thr per) ∧ ∀ x ∈ cs, x ∈ ks ∨ ks.length = top ∨ ∃ k ∈ ks, ¬ boxesApart box thr per k x)

/-- The operators' rows (R256, R259, R262, R271, R286, Tables 10.2, 10.5): once everything it accesses can be accessed, the next
operator of a stage runs; every element's results are computed before any is written; then each goes to its destinations, or in pencil. -/
def Obligations.OperatorsRun : Prop :=
  (∀ s f pos st j g op fam i compute, opRow f pos st fam = some (i, compute) → opNext s f pos st j g op → opFamily (opWords g op) = fam →
    (blockRanges s ((opClusters j st).headD 0) f (opRanges j g st op) = .none →
      ∃ t v, exec i s = .next t ∧ readsOnly s v (opClusters j st) ∧ operatorDone (resultsTaken s v j g st op compute) t j st ∧
        (∀ k c, opCtxs j g st op = [(k, c)] → c.early = true → rb s R.FL_TRACE_CTRL F.FL_TRACE_CTRL.EN = false → t.mem = s.mem ∧
          ∃ u, getJob t f pos = some u ∧ (stageRun u st).nextOp = (stageRun j st).nextOp + 1 ∧
            ∀ e : Elem, j.elems[k]? = some e → ∃ e' : Elem, u.elems[k]? = some e' ∧
              (stageElem e' st).pva = ((stageElem e st).pencil op (compute c s).writes).pva ∧
              (stageElem e' st).pscr = ((stageElem e st).pencil op (compute c s).writes).pscr) ∧
        (∀ k c, opCtxs j g st op = [(k, c)] → c.early = false → (j.elems.length ≤ 1 ∨ j.batch = false) →
          rb s R.FL_TRACE_CTRL F.FL_TRACE_CTRL.EN = false → v.mem = s.mem ∧
          t.mem = (writeOut v c.who 1 f c.e.pos g (compute c s).writes).mem ∧
          t.progs = (writeOut v c.who 1 f c.e.pos g (compute c s).writes).progs)) ∧
    (∀ code va wr, blockRanges s ((opClusters j st).headD 0) f (opRanges j g st op) = .fails code va wr →
      exec i s = .next (rangesFault s ((opClusters j st).headD 0) f (opRanges j g st op) va wr code pos)) ∧
    (blockRanges s ((opClusters j st).headD 0) f (opRanges j g st op) = .waits →
      exec i s = .next (askRanges s .job ((opClusters j st).headD 0) 4 1 f pos (opRanges j g st op)))) ∧
  (∀ s f pos st j g op, opNext s f pos st j g op → opFamily (opWords g op) = 0x20 → shOpsOf s j st op = [] →
    (opCtxs j g st op = [] → exec (.opShader f pos st) s = .next (advanceOp s j st)) ∧
    (∀ c cs, opCtxs j g st op = c :: cs → ∃ t u, exec (.opShader f pos st) s = .next t ∧
      traced (modStage s j st (fun r => { r with phase := if r.phase = .waiting then .firm else r.phase })) u ∧
      t = refill { u with shOps := u.shOps ++ (opCtxs j g st op).map (fun c => ⟨f, c.2.e.pos, st, op, c.1, c.2.cl, [], 0, 0⟩) } ∧
      (s.shOps = [] →
        (∀ w ∈ t.waves, w ∈ s.waves ∨ (w.fn = f ∧ w.stage = st ∧ w.op = op ∧ w.pc = wf (opWords g op) 11 14 0 ∧ w.active = allLanes ∧
          w.vregs = [] ∧ w.sregs = [] ∧ w.preds = [] ∧ w.masks = [] ∧ w.calls = [] ∧ w.bars = 0 ∧ w.atBar = false)) ∧
        (∀ q ∈ t.groups, q ∈ s.groups ∨ (q.fn = f ∧ q.group < shGroups (opWords g op) ∧ q.local_ = [] ∧
          (opClusters j st)[q.group % min (shGroups (opWords g op)) (opClusters j st).length]? = some (q.core / 4))) ∧
        (∀ n, (opClusters j st).head? = some n → (∀ q ∈ s.groups, q.core / 4 ≠ n) → (∀ w ∈ s.waves, w.core / 4 ≠ n) →
          1 ≤ shGroups (opWords g op) → 1 ≤ groupsPerCore (opWords g op) → wf (opWords g op) 13 19 16 ≤ 8 →
          (∀ x ∈ opCtxs j g st op, getJob s f x.2.e.pos = some j) →
          ∃ q ∈ t.groups, q.core = 4 * n ∧ q.group = 0 ∧ q.elem = c.1))))

/-- STAGE_END, EARLY_START, EARLY_WORK_END and INK_END, and how stage-elements end (R277 to R282, R287 to R291, Table 11.2). -/
def Obligations.StagesAndPencil : Prop :=
  (∀ s f pos st j g, noErrors s → getJob s f pos = some j → j.live = true → getProg s f j.prog = some g → st < g.stages.length →
    opsDone g j st = true → lowerEnded j st = true →
    (((stageDecl g st).prov = true ∧ (stageRun j st).phase = .firm) ∨
      ((stageDecl g st).prov = false ∧ (stageRun j st).phase ≠ .ended ∧ (stageDecl g st).resolves = false) →
      ∃ t v, exec (.stageEnd f pos st) s = .next t ∧ traced (endStage s j st) v ∧ t = settleStages v j g ∧
        ((∀ d ∈ g.stages, d.prov = false) → s.shOps = [] → t = v)) ∧
    ((stageDecl g st).prov = true → (stageRun j st).phase ≠ .firm → exec (.stageEnd f pos st) s = .next (settleStages s j g)) ∧
    ((stageDecl g st).prov = false → (stageRun j st).phase = .ended → exec (.stageEnd f pos st) s = .next s) ∧
    ((stageDecl g st).prov = false → (stageRun j st).phase ≠ .ended → (stageDecl g st).resolves = true →
      (blockRanges s ((opClusters j st).headD 0) f (resolveRanges j g st) = .none →
        ∃ t v u, exec (.stageEnd f pos st) s = .next t ∧ readsOnly s v [] ∧
          traced (endStage (forgetRemote (resolveAll v j g st) ((opClusters j st).headD 0) f (resolveRanges j g st)) j st) u ∧
          t = settleStages u j g ∧
          (rb s R.FL_TRACE_CTRL F.FL_TRACE_CTRL.EN = false → ∀ (i : Nat) (e : Elem), j.elems[i]? = some e → sameJob s j = j → ∃ e' : Elem, (sameJob u j).elems[i]? = some e' ∧
            (∀ b, Tab.get none e.preds (stageDecl g st).resolvePred = some b → e'.preds = e.preds) ∧
            (Tab.get none e.preds (stageDecl g st).resolvePred = none → Tab.get none e'.preds (stageDecl g st).resolvePred =
              some ((stageCtx j g e st).num v ((stageCtx j g e st).at (sref (stageDecl g st).resolveRef 0).kind
                (sref (stageDecl g st).resolveRef 0).index (sref (stageDecl g st).resolveRef 0).off) 4 != 0)))) ∧
      (∀ code va wr, blockRanges s ((opClusters j st).headD 0) f (resolveRanges j g st) = .fails code va wr →
        exec (.stageEnd f pos st) s = .next (rangesFault s ((opClusters j st).headD 0) f (resolveRanges j g st) va wr code pos)) ∧
      (blockRanges s ((opClusters j st).headD 0) f (resolveRanges j g st) = .waits →
        exec (.stageEnd f pos st) s = .next (askRanges s .job ((opClusters j st).headD 0) 4 1 f pos (resolveRanges j g st))))) ∧
  (∀ s f pos st j g, getJob s f pos = some j → getProg s f j.prog = some g →
    (j.live = false ∨ g.stages.length ≤ st ∨ opsDone g j st = false ∨ lowerEnded j st = false) → exec (.stageEnd f pos st) s = .next s) ∧
  (∀ s f pos st j g need free, getJob s f pos = some j → getProg s f j.prog = some g → need = j.elems.length * stagePencil g st / 4096 →
    free = (List.range (g.pblocks.length * 16)).filter (fun n => !(heldGranules s f j.prog).contains n) →
    (mayStartEarly j g st = false → exec (.earlyStart f pos st) s = .next s) ∧
    (mayStartEarly j g st = true → earlierClaim s j st = false → need ≤ free.length →
      ∃ t k, exec (.earlyStart f pos st) s = .next (settleStages t j g) ∧ getJob t f pos = some k ∧ stageRun k st = { stageRun j st with
          phase := .early
          clusters := (j.clusters.filter (fun n => !(earlyClusters j).contains n)).drop
            ((j.clusters.filter (fun n => !(earlyClusters j).contains n)).length - (stageDecl g st).earlyClusters)
          granules := free.take need, claimWaiting := false } ∧ (∀ n, n ≠ st → stageRun k n = stageRun j n) ∧
        (∀ (i : Nat) (e : Elem), j.elems[i]? = some e → parentErased g e st = false → ∃ e' : Elem, k.elems[i]? = some e' ∧
          (predOf g e st = none → e' = e) ∧
          (predOf g e st = some false → stageElem e' st = { stageElem e st with ending := .skipped }) ∧
          (predOf g e st = some true → stageElem e' st = { stageElem e st with late := true })) ∧
        ((∀ e ∈ j.elems, predOf g e st = none ∧ parentErased g e st = false) → k.elems = j.elems ∧ ctrUp s t (penCtr 0) j.elems.length)) ∧
    (mayStartEarly j g st = true → (earlierClaim s j st = true ∨ free.length < need) →
      ((stageRun j st).claimWaiting = true → exec (.earlyStart f pos st) s = .next (settleStages s j g)) ∧
      ((stageRun j st).claimWaiting = false → ∃ t, exec (.earlyStart f pos st) s = .next (settleStages t j g) ∧
        traced (modStage (bump s (penCtr 4)) j st (fun r => { r with claimWaiting := true })) t))) ∧
  (∀ s f pos st j g, getJob s f pos = some j → getProg s f j.prog = some g →
    (j.live = true → (stageRun j st).phase = .early → opsDone g j st = true →
      exec (.earlyWorkEnd f pos st) s = .next (settleStages (modStage s j st (fun r => { r with phase := .earlyDone, clusters := [] })) j g)) ∧
    (j.live = false ∨ (stageRun j st).phase ≠ .early ∨ opsDone g j st = false → exec (.earlyWorkEnd f pos st) s = .next s)) ∧
  (∀ s f pos st j g e ws, noErrors s → getJob s f pos = some j → j.live = true → getProg s f j.prog = some g →
    (stageRun j st).phase = .earlyDone → j.elems = [e] → sameJob s j = j → inkReady g e st = true → ws = (stageCtx j g e st).inkBytes →
    (blockRanges s (j.clusters.headD 0) f (inkRanges ws) = .none →
      ∃ t v u, exec (.inkEnd f pos st) s = .next t ∧ t = settleStages u j g ∧ traced s v ∧
        memKept (writeOut v (j.clusters.headD 0) 1 f e.pos g ws) u (inTrace s) ∧
        u.progs = (writeOut v (j.clusters.headD 0) 1 f e.pos g ws).progs ∧
        ctrUp s u (penCtr 1) 1 ∧ ctrUp s u (penCtr 6) ws.length ∧
        ∃ e', (sameJob u j).elems = [e'] ∧ (stageElem e' st).ending = .inked ∧ (stageElem e' st).pva = [] ∧ (stageElem e' st).pscr = [] ∧
          e'.sat = (e.sat || (stageElem e st).sat)) ∧
    (∀ code va wr, blockRanges s (j.clusters.headD 0) f (inkRanges ws) = .fails code va wr →
      exec (.inkEnd f pos st) s = .next (rangesFault s (j.clusters.headD 0) f (inkRanges ws) va wr code pos)) ∧
    (blockRanges s (j.clusters.headD 0) f (inkRanges ws) = .waits →
      exec (.inkEnd f pos st) s = .next (askRanges s .job (j.clusters.headD 0) 4 1 f pos (inkRanges ws)))) ∧
  (∀ s f pos st j, getJob s f pos = some j → (j.live = false ∨ (stageRun j st).phase ≠ .earlyDone) → exec (.inkEnd f pos st) s = .next s) ∧
  (∀ s j g st, onlyProv s j g st → ((stageRun j st).phase = .early ∨ (stageRun j st).phase = .earlyDone) →
    (∀ e ∈ j.elems, predOf g e st = some false ∨ parentErased g e st = true) → ∃ t, settleStages s j g = t ∧ memKept s t (inTrace s) ∧
      t.progs = s.progs ∧
      ctrUp s t (penCtr 2) j.elems.length ∧ (stageRun (sameJob t j) st).phase = .ended ∧ (stageRun (sameJob t j) st).granules = [] ∧
      (sameJob t j).elems.length = j.elems.length ∧ ∀ e ∈ (sameJob t j).elems, stageElem e st = { StageElem.reset with ending := .erased }) ∧
  (∀ s j g st, onlyProv s j g st → s.shOps = [] → (stageRun j st).phase = .waiting → lowerEnded j st = true → j.elems ≠ [] →
    (∀ e ∈ j.elems, parentErased g e st = false) →
    ((∀ e ∈ j.elems, predOf g e st = some true) → ∃ t, settleStages s j g = t ∧ t = { s with tt := t.tt, ctr := t.ctr } ∧
      (stageRun (sameJob t j) st).phase = .firm ∧ ∀ e ∈ (sameJob t j).elems, (stageElem e st).ending = .ran) ∧
    ((∀ e ∈ j.elems, predOf g e st = some false) → ∃ t, settleStages s j g = t ∧ t = { s with tt := t.tt, ctr := t.ctr } ∧
      ctrUp s t (penCtr 3) j.elems.length ∧
      (stageRun (sameJob t j) st).phase = .ended ∧ ∀ e ∈ (sameJob t j).elems, (stageElem e st).ending = .skipped) ∧
    ((∃ e ∈ j.elems, predOf g e st = none) → settleStages s j g = s))

/-- The records of a DRAW_LIST (13.3, R326 to R332, R336, R337, R339, R341): a list ends with END, or at its last record. -/
def Obligations.DrawRecordsAct : Prop :=
  (∀ s type i, drawRow type = some i → noErrors s → s.rend.cur = none → s.rend.queue = [] → exec i s = .next s) ∧
  (∀ s u d p r type i, drawRow type = some i → drawing s u d p r →
    (recBad d r = true → ∃ t w, exec i s = .next t ∧ t = kickDraw w ∧ listEnded w u d St.BAD_PARAM d.tiles ∧
      (d.fn < 128 → d.cursor < 2 ^ 32 → d.pos < 2 ^ 32 → lastError w d St.BAD_PARAM)) ∧
    (recBad d r = false → r.type ≠ type → exec i s = .next u)) ∧
  (∀ s d p type i, drawRow type = some i → noErrors s → s.rend.cur = some d → getPkt s d.fn d.pos = some p → listOver d p = false →
    blockRanges s 21 d.fn [⟨dlList p + 32 * d.cursor, 32, false⟩] = .waits →
    exec i s = .next (askRanges s .draw 21 5 0 d.fn d.pos [⟨dlList p + 32 * d.cursor, 32, false⟩])) ∧
  (∀ s u d p r, drawing s u d p r → recBad d r = false →
    readsOnly s u [] ∧
    (r.type = 0x00 → ∃ t, exec .drawNop s = .next t ∧ recordTook u t { d with cursor := d.cursor + 1 } p) ∧
    (r.type = 0x12 → ∃ t, exec .drawClear s = .next t ∧ recordTook u t { d with cursor := d.cursor + 1, clear := some (r.w 1) } p) ∧
    (r.type = 0x10 → ∃ t, exec .drawSetClip s = .next t ∧ recordTook u t { d with
      cursor := d.cursor + 1, clip := d.clips.length
      clips := d.clips ++ [⟨r.s16 2 0, r.s16 2 16, r.s16 3 0, r.s16 3 16⟩] } p) ∧
    (r.type = 0x11 → r.bits 0 16 16 = 1 → ∃ t, exec .drawSetAtlas s = .next t ∧
      recordTook u t { d with cursor := d.cursor + 1, atlas := 0 } p) ∧
    (r.type = 0x11 → r.bits 0 16 16 = 0 → ∀ n, n = ((recAtlas r).height - 1) * (recAtlas r).stride + (recAtlas r).width →
      (pageTarget u d.fn (recAtlas r).addr n (· == 2) = true → ∃ t w, exec .drawSetAtlas s = .next t ∧ t = kickDraw w ∧
        listEnded w u d St.BAD_PARAM d.tiles) ∧
      (pageTarget u d.fn (recAtlas r).addr n (· == 2) = false → pinned u d.fn (recAtlas r).addr n false = false →
        ∃ t w, exec .drawSetAtlas s = .next t ∧ t = kickDraw w ∧ listEnded w u d St.UNPINNED_OPERAND d.tiles) ∧
      (pageTarget u d.fn (recAtlas r).addr n (· == 2) = false → pinned u d.fn (recAtlas r).addr n false = true →
        ∃ t v, exec .drawSetAtlas s = .next t ∧ v = touchPages u d.fn (recAtlas r).addr n ∧
          recordTook v t { d with cursor := d.cursor + 1, atlases := d.atlases ++ [recAtlas r], atlas := d.atlases.length + 1 } p)) ∧
    (∀ i need, isPrim r.type = true → drawRow r.type = some i → need = chunksNeeded d (boxTiles p (binBox d p r)) →
      (d.used + need ≤ dlChunks p → blockRanges u 21 d.fn [binRange d p need] = .none →
        ∃ t v d', exec i s = .next t ∧ listGoes v t d' p ∧ v.rend = { u.rend with cur := some d' } ∧ ctrUp u v 0x800110 1 ∧
          ctrUp u v 0x800118 (boxTiles p (binBox d p r)).length ∧
          d' = { d with cursor := d.cursor + 1, used := d.used + need, bins := d'.bins } ∧
          ∀ n, (boxIn p (binBox d p r) n → (getBin d' n).refs = (getBin d n).refs ++ [⟨d.cursor, d.clip, d.atlas⟩]) ∧
            (¬ boxIn p (binBox d p r) n → getBin d' n = getBin d n)) ∧
      (d.used + need ≤ dlChunks p → blockRanges u 21 d.fn [binRange d p need] = .waits →
        exec i s = .next (askRanges u .draw 21 5 0 d.fn d.pos [binRange d p need])) ∧
      (dlChunks p < d.used + need → blockRanges u 21 d.fn [binRange d p 0] = .none → blockRanges u 21 d.fn (shadeRanges d p) = .none →
        ∃ t v d', exec i s = .next t ∧ listGoes v t d' p ∧ v.rend = { u.rend with cur := some d' } ∧ ctrUp u v 0x800110 1 ∧
          ctrUp u v 0x800128 1 ∧ ctrUp u v 0x800120 (passTiles d p).length ∧
          d' = { d with cursor := d.cursor + 1, pass := d.pass + 1, tiles := d.tiles + (passTiles d p).length
                        used := (boxTiles p (binBox d p r)).length, bins := d'.bins, wrote := d'.wrote } ∧
          ∀ n, (boxIn p (binBox d p r) n → (getBin d' n).refs = [⟨d.cursor, d.clip, d.atlas⟩]) ∧
            (¬ boxIn p (binBox d p r) n → (getBin d' n).refs = []))) ∧
    (r.type = 0xFF → blockRanges u 21 d.fn (shadeRanges d p) = .none →
      ∃ t w, exec .drawEnd s = .next t ∧ t = kickDraw w ∧ listEnded w u d St.DONE (d.tiles + (passTiles d p).length) ∧
        ctrUp u w 0x800100 1 ∧ ctrUp u w 0x800110 1 ∧ ctrUp u w 0x800120 (passTiles d p).length)) ∧
  (∀ s d p type i, drawRow type = some i → noErrors s → s.rend.cur = some d → getPkt s d.fn d.pos = some p → p.phase ≠ .complete →
    listOver d p = true → blockRanges s 21 d.fn (shadeRanges d p) = .none →
    ∃ t w, exec i s = .next t ∧ t = kickDraw w ∧ listEnded w s d St.DONE (d.tiles + (passTiles d p).length)) ∧
  (∀ (r : Rec) (x y : Int),
    (r.type = 0x01 → (covers r x y = true ↔ r.s16 2 0 ≤ x ∧ x < r.s16 3 0 ∧ r.s16 2 16 ≤ y ∧ y < r.s16 3 16)) ∧
    (r.type = 0x02 → (covers r x y = true ↔ (r.s16 2 0 ≤ x ∧ x < r.s16 3 0 ∧ r.s16 2 16 ≤ y ∧ y < r.s16 3 16) ∧
      (x < r.s16 2 0 + r.bits 4 7 0 ∨ r.s16 3 0 - r.bits 4 7 0 ≤ x ∨ y < r.s16 2 16 + r.bits 4 7 0 ∨ r.s16 3 16 - r.bits 4 7 0 ≤ y))) ∧
    (r.type = 0x06 → (covers r x y = true ↔ r.s16 2 0 ≤ x ∧ x < r.s16 2 0 + r.bits 4 7 0 ∧ r.s16 2 16 ≤ y ∧ y < r.s16 2 16 + r.bits 4 15 8)))

/-- Latches and frames (R345 to R349, R357, R358, R363, R364, R366, R371, R373, Table 14.2). -/
def Obligations.LatchesAndFrames : Prop :=
  (∀ s, s.disp.cfg.source ≠ 1 ∨ s.disp.latched ≠ none → exec .latch s = .next s) ∧
  (∀ s n, n < 8 → ∀ v, v = latchView s →
    (layBit v n F.DC_LAYER_n_CTRL.EN = false → layerOutcome s n = 0) ∧
    (layBit v n F.DC_LAYER_n_CTRL.EN = true → layerGood s n = false → layerOutcome s n = 6) ∧
    (layBit v n F.DC_LAYER_n_CTRL.EN = true → layerGood s n = true →
      ((getLayer s n).pend ≠ none → layerOutcome s n = 1) ∧
      ((getLayer s n).pend = none → (getLayer s n).bound ≠ none → layBit v n F.DC_LAYER_n_CTRL.PER_FRAME = false → layerOutcome s n = 2) ∧
      ((getLayer s n).pend = none → ((getLayer s n).bound = none ∨ layBit v n F.DC_LAYER_n_CTRL.PER_FRAME = true) →
        (lfld v (R.DC_LAYER_n_CTRL n) F.DC_LAYER_n_CTRL.POLICY = 2 → layerOutcome s n = 5) ∧
        (lfld v (R.DC_LAYER_n_CTRL n) F.DC_LAYER_n_CTRL.POLICY = 1 → layerOutcome s n = 4) ∧
        (lfld v (R.DC_LAYER_n_CTRL n) F.DC_LAYER_n_CTRL.POLICY = 0 → layerOutcome s n = if (getLayer s n).bound = none then 4 else 3)))) ∧
  (∀ s, s.disp.cfg.source = 1 → s.disp.latched = none →
    ((∀ n, n < 8 → layerOutcome s n ≠ 5) ∨ s.disp.cfg.wbEn = false ∨ s.disp.cfg.dpEn = true →
      ∃ t r, exec .latch s = .next t ∧ latchTook s t r ∧ r.withheld = false ∧
        (r.fallback = true ↔ ∃ n, n < 8 ∧ layerOutcome s n = 5) ∧ r.outcomes.length = 8 ∧
        (∀ n, n < 8 → r.outcomes[n]? = some (if layerOutcome s n = 5 then (if (getLayer s n).bound = none then 4 else 3) else layerOutcome s n)) ∧
        r.flips = (List.range 8).filterMap (fun n => (getLayer s n).pend) ∧
        (∀ n, n < 8 → getLayer t n = ⟨none, ((getLayer s n).pend).or (getLayer s n).bound⟩) ∧
        ctrUp s t 0x900220 (r.outcomes.filter (fun o => o == 3 || o == 4)).length ∧
        (6 ∈ r.outcomes → isSet t R.DC_EVENT_STATUS F.DC_EVENT_STATUS.INVALID)) ∧
    ((∃ n, n < 8 ∧ layerOutcome s n = 5) → s.disp.cfg.wbEn = true → s.disp.cfg.dpEn = false →
      ∃ t r, exec .latch s = .next t ∧ latchTook s t r ∧ r.withheld = true ∧ r.flips = [] ∧ t.disp.layers = s.disp.layers ∧
        r.outcomes.length = 8 ∧
        ∀ n, n < 8 → r.outcomes[n]? = some (if layerOutcome s n = 0 then 0 else if layerOutcome s n = 5 then 5 else 7))) ∧
  (∀ s r, s.disp.cfg.source = 1 → s.disp.frame = none → cfgIdle s → s.disp.latched = some r →
    Tab.sortedFrom 0 r.regs = true → ∃ t u, exec .frameStart s = .next t ∧ frameBegun s u r ∧ traced u t) ∧
  (∀ s, s.disp.cfg.source = 1 → s.disp.frame = none → cfgIdle s → s.disp.latched = none →
    exec .frameStart s = exec .frameStart (latch s) ∧ (latch s).disp.latched.isSome = true) ∧
  (∀ s, (s.disp.cfg.source ≠ 1 ∨ s.disp.frame ≠ none) → cfgIdle s → exec .frameStart s = .next s) ∧
  (∀ s pos, s.disp.cfgCur = some (pos, .train) → exec .frameStart s = .next s) ∧
  (∀ s pos p, s.disp.cfgCur = some (pos, .ready) → getPkt s 0 pos = some p → p.phase ≠ .complete →
    ∃ t w, exec .frameStart s = .next t ∧ t = kickCfg w ∧ ended w 0 pos St.DONE 0 ∧ w.disp.cfg = cfgOf p ∧ w.disp.nextSlot = 0 ∧
      w.disp.cfgCur = none ∧ w.disp.cfgQ = s.disp.cfgQ ∧
      ((cfgOf p).source = 1 → w.disp.count = s.disp.count + 1 ∧ w.disp.frame.isSome = true) ∧
      ((cfgOf p).source ≠ 1 → w.disp.count = s.disp.count ∧ w.disp.frame = none)) ∧
  (∀ s un, s.disp.frame = none → exec (.frameEnd un) s = .next s) ∧
  (∀ s un fr, noErrors s → s.disp.frame = some fr → (∀ pos, s.disp.cfgCur ≠ some (pos, .waitEnd)) →
    ∃ t, exec (.frameEnd un) s = .next t ∧ t.disp.frame = none ∧ isSet t R.DC_EVENT_STATUS F.DC_EVENT_STATUS.FRAME ∧
      rd t (R.DC_FRAME_STATUS_i 0) = BitVec.ofNat 32 fr.count ∧ rd t (R.DC_FRAME_STATUS_i 1) = BitVec.ofNat 32 (fr.count / 2 ^ 32) ∧
      rd t (R.DC_FRAME_STATUS_i 5) = BitVec.ofNat 32 ((List.range 8).map (fun n => (fr.latch.outcomes[n]?).getD 0 * 8 ^ n)).sum ∧
      (fr.latch.withheld = true → ctrUp s t 0x900210 1) ∧
      (s.disp.cfg.wbEn = true → fr.latch.withheld = false → wedgedNow s = false → ctrUp s t 0x900208 1 ∧
        rf t R.DC_WB_STATUS F.DC_WB_STATUS.LAST_SLOT = s.disp.nextSlot % 4 ∧ t.disp.nextSlot = (s.disp.nextSlot + 1) % wbBuffers s) ∧
      (s.disp.cfg.wbEn = false ∨ fr.latch.withheld = true ∨ wedgedNow s = true → t.disp.nextSlot = s.disp.nextSlot ∧ memKept s t (inTrace s)) ∧
      (∀ x p, fr.latch.flips = [x] → getPkt s x.fn x.pos = some p → p.phase ≠ .complete →
        ended t x.fn x.pos St.DONE (fr.count % 2 ^ 32)) ∧
      (shownLayers fr = [] → fr.dpOut = true → ∀ bg, bg = (inForce s R.DC_BG_COLOUR).toNat →
        .video fr.count s.disp.cfg.bpc10 (List.replicate s.disp.cfg.vAct (List.replicate s.disp.cfg.hAct
          (if s.disp.cfg.bpc10 then px10 [nbits bg 9 0, nbits bg 19 10, nbits bg 29 20] % 2 ^ 30
           else px8 [nbits bg 9 0, nbits bg 19 10, nbits bg 29 20] % 2 ^ 24))) ∈ t.out)) ∧
  (∀ s un fr pos p, noErrors s → s.disp.frame = some fr → s.disp.cfgCur = some (pos, .waitEnd) → getPkt s 0 pos = some p →
    ∃ t u q, exec (.frameEnd un) s = .next t ∧ u.disp.frame = none ∧ getPkt u 0 pos = some q ∧ q.dw = p.dw ∧
      t = kickCfg (cfgProceed u pos (cfgOf q))) ∧
  (∀ r g b d0 d1 d2, r ≤ 1023 → g ≤ 1023 → b ≤ 1023 → d0 ≤ 1023 → d1 ≤ 1023 → d2 ≤ 1023 →
    over_ 1023 [r, g, b, 1023] [d0, d1, d2] = [r, g, b] ∧ over_ 0 [r, g, b, 1023] [d0, d1, d2] = [d0, d1, d2])

/-- HPD, main-link training and AUX (R44, R45, R367 to R369, R373, R374, Table 14.5). -/
def Obligations.DisplayLinkEvents : Prop :=
  (∀ s, s.disp.hpd = false → exec .hpdUnplug s = .next s) ∧
  (∀ s, s.disp.hpd = true → ∃ t u, exec .hpdUnplug s = .next t ∧ t = auxGo u ∧
    u.disp = { s.disp with
      hpd := false, linkUp := false, train := if s.disp.train = some .config then some .config else none
      frame := s.disp.frame.map (fun f => { f with hpdLost := true, dpOut := false }) } ∧
    isClear u R.DC_STATUS F.DC_STATUS.HPD ∧ isClear u R.DC_STATUS F.DC_STATUS.DP_ACTIVE ∧
    isClear u R.CP_BOOT_STATUS F.CP_BOOT_STATUS.NB_ACTIVE ∧ isSet u R.DC_EVENT_STATUS F.DC_EVENT_STATUS.HPD_LOST ∧
    memKept s u (inTrace s)) ∧
  (∀ s ok, ok = true ∨ s.disp.train ≠ none ∨ s.disp.hpd = false → exec (.hpdIrq ok) s = .next s) ∧
  (∀ s, s.disp.hpd = true → s.disp.train = none → ∃ t, exec (.hpdIrq false) s = .next t ∧ t.disp = retrains s.disp ∧
    isClear t R.DC_STATUS F.DC_STATUS.DP_ACTIVE ∧ isClear t R.CP_BOOT_STATUS F.CP_BOOT_STATUS.NB_ACTIVE ∧
    regsKept s t [R.DC_STATUS, R.CP_BOOT_STATUS] ∧ t = { s with disp := t.disp, regs := t.regs }) ∧
  (∀ s lanes rate, s.disp.hpd = true → exec (.hpdPlug lanes rate) s = .next s) ∧
  (∀ s lanes rate, s.disp.hpd = false → ∃ t u, exec (.hpdPlug lanes rate) s = .next t ∧ traced u t ∧ isSet u R.DC_STATUS F.DC_STATUS.HPD ∧
    u.disp.hpd = true ∧ u.disp.sink = (lanes, rate) ∧ u.disp.cfg = s.disp.cfg ∧ regsKept s u [R.DC_STATUS] ∧
    u.disp.train = (if s.disp.train = some .config then some .config
      else if s.disp.cfg.source = 0 then (if s.disp.nbStarted then some .notice else none)
      else if s.disp.cfg.dpEn then some .resume else none) ∧
    (s.disp.train ≠ some .config → u.disp.linkUp = false) ∧
    u = { s with disp := u.disp, regs := u.regs }) ∧
  (∀ s ok, s.disp.train = none → exec (.dpTrainingDone ok) s = .next s) ∧
  (∀ s, s.disp.train = some .notice → s.disp.hpd = true → ∃ t u, exec (.dpTrainingDone true) s = .next t ∧ t = auxGo u ∧
    u.disp = { s.disp with train := none, linkUp := true, linkAt := (drive s.disp s.disp.cfg).getD s.disp.linkAt } ∧
    u.out = s.out ++ [.notice 1280 720 60 74250 8 (noticePage u)] ∧
    isSet u R.CP_BOOT_STATUS F.CP_BOOT_STATUS.NB_ACTIVE ∧ isSet u R.DC_STATUS F.DC_STATUS.DP_ACTIVE ∧ ctrUp s u 0x900230 1 ∧
    ctrKept s u [0x900230] ∧ regsKept s u [R.DC_STATUS, R.CP_BOOT_STATUS] ∧
    u = { s with disp := u.disp, regs := u.regs, ctr := u.ctr, out := u.out }) ∧
  (∀ s, s.disp.train = some .resume → s.disp.hpd = true → ∃ t u, exec (.dpTrainingDone true) s = .next t ∧ t = auxGo u ∧
    u.disp = { s.disp with train := none, linkUp := true, linkAt := (drive s.disp s.disp.cfg).getD s.disp.linkAt } ∧
    ctrUp s u 0x900230 1 ∧ ctrKept s u [0x900230] ∧ u = { s with disp := u.disp, ctr := u.ctr }) ∧
  (∀ s w ok, s.disp.train = some w → w ≠ .config → ok = false ∨ s.disp.hpd = false → ∃ t u, exec (.dpTrainingDone ok) s = .next t ∧
    t = auxGo u ∧ u.disp = { s.disp with train := none, linkUp := false } ∧ isSet u R.DC_EVENT_STATUS F.DC_EVENT_STATUS.TRAIN_FAIL ∧
    ctrUp s u 0x900230 1 ∧ ctrUp s u 0x900238 1 ∧ memKept s u (inTrace s)) ∧
  (∀ s pos ph p, s.disp.train = some .config → s.disp.cfgCur = some (pos, ph) → getPkt s 0 pos = some p →
    (s.disp.hpd = true → ∃ t u, exec (.dpTrainingDone true) s = .next t ∧ t = auxGo u ∧
      u.disp = { s.disp with train := none, linkUp := true, cfgCur := some (pos, .ready)
                             linkAt := (drive s.disp (cfgOf p)).getD s.disp.linkAt } ∧
      ctrUp s u 0x900230 1 ∧ u = { s with disp := u.disp, ctr := u.ctr }) ∧
    (∀ ok, ok = false ∨ s.disp.hpd = false → p.phase ≠ .complete → ∃ t w, exec (.dpTrainingDone ok) s = .next t ∧
      t = auxGo (kickCfg { w with disp := retrains w.disp }) ∧
      ended w 0 pos St.DISPLAY_NOT_READY 0 ∧ w.disp.cfg = s.disp.cfg ∧ w.disp.cfgCur = none ∧ ctrUp s w 0x900238 1)) ∧
  (∀ s, s.disp.train ≠ none ∨ s.disp.aux = none ∨ (∃ r, s.disp.aux = some r ∧ r.sent = true) → auxGo s = s) ∧
  (∀ s r, s.disp.train = none → s.disp.aux = some r → r.sent = false →
    auxGo s = { s with disp := { s.disp with aux := some { r with sent := true } }, out := s.out ++ [.aux r.cmd r.addr r.mot r.len r.data] }) ∧
  (∀ s v, hostOpen s → bootDone s = true → ∃ t, exec (.auxStart v) s = .next t ∧
    rf t R.DC_AUX_CTRL F.DC_AUX_CTRL.ADDR = fld v 19 0 ∧ rf t R.DC_AUX_CTRL F.DC_AUX_CTRL.LEN_M1 = fld v 23 20 ∧
    rf t R.DC_AUX_CTRL F.DC_AUX_CTRL.CMD = fld v 25 24 ∧ rf t R.DC_AUX_CTRL F.DC_AUX_CTRL.MOT = fld v 26 26 ∧
    regsKept s t [R.DC_AUX_CTRL, R.DC_AUX_STATUS] ∧
    (fld v 31 31 = 0 ∨ isSet s R.DC_AUX_STATUS F.DC_AUX_STATUS.BUSY →
      t.out = s.out ∧ t.disp = s.disp ∧ rd t R.DC_AUX_STATUS = rd s R.DC_AUX_STATUS) ∧
    (fld v 31 31 = 1 → isClear s R.DC_AUX_STATUS F.DC_AUX_STATUS.BUSY → isSet t R.DC_AUX_STATUS F.DC_AUX_STATUS.BUSY ∧ ∃ r,
      t.disp = { s.disp with aux := some r } ∧ r.cmd = fld v 25 24 ∧ r.addr = fld v 19 0 ∧ r.mot = (fld v 26 26 == 1) ∧
      r.len = fld v 23 20 + 1 ∧ r.data = (if fld v 25 24 % 2 = 1 then ([] : List Byte)
        else (((List.range 4).map (fun i => bytesLE 4 (rd s (R.DC_AUX_DATA_i i)).toNat)).flatten).take (fld v 23 20 + 1)) ∧
      (s.disp.train = none → r.sent = true ∧ t.out = s.out ++ [.aux r.cmd r.addr r.mot r.len r.data]) ∧
      (s.disp.train ≠ none → r.sent = false ∧ t.out = s.out)) ∧
    t = { s with regs := t.regs, out := t.out, dirty := t.dirty, disp := t.disp }) ∧
  (∀ s reply data, s.disp.aux = none ∨ (∃ r, s.disp.aux = some r ∧ r.sent = false) → exec (.auxDone reply data) s = .next s) ∧
  (∀ s reply data r, s.disp.aux = some r → r.sent = true → r.len ≤ 16 → reply < 4 →
    ∃ t u, exec (.auxDone reply data) s = .next t ∧ traced u t ∧ isClear u R.DC_AUX_STATUS F.DC_AUX_STATUS.BUSY ∧
      rf u R.DC_AUX_STATUS F.DC_AUX_STATUS.REPLY = reply ∧
      regsKept s u [R.DC_AUX_STATUS, R.DC_AUX_DATA_i 0, R.DC_AUX_DATA_i 1, R.DC_AUX_DATA_i 2, R.DC_AUX_DATA_i 3] ∧
      (reply ≠ 0 → rf u R.DC_AUX_STATUS F.DC_AUX_STATUS.COUNT = 0 ∧ regsKept s u [R.DC_AUX_STATUS]) ∧
      (reply = 0 → r.cmd % 2 = 0 → regsKept s u [R.DC_AUX_STATUS] ∧ rf u R.DC_AUX_STATUS F.DC_AUX_STATUS.COUNT = r.len) ∧
      (reply = 0 → r.cmd % 2 = 1 → data.length = r.len →
        rf u R.DC_AUX_STATUS F.DC_AUX_STATUS.COUNT = data.length ∧
        (((List.range 4).map (fun i => bytesLE 4 (rd u (R.DC_AUX_DATA_i i)).toNat)).flatten).take data.length = data) ∧
      u = { s with regs := u.regs, disp := { s.disp with aux := none } })

/-- Table 12.8: the integer instructions. Each writes D in the lanes that act and nothing else. -/
def Obligations.ShaderIntegerResults : Prop :=
  computes .shIadd 0x01 (fun a b _ => a + b) ∧ computes .shIsub 0x02 (fun a b _ => a - b) ∧
  computes .shImul 0x03 (fun a b _ => a * b) ∧
  computes .shImulhi 0x04 (fun a b _ => (a.signExtend 64 * b.signExtend 64).extractLsb' 32 32) ∧
  computes .shUmulhi 0x05 (fun a b _ => (a.zeroExtend 64 * b.zeroExtend 64).extractLsb' 32 32) ∧
  computes .shImad 0x06 (fun a b c => a * b + c) ∧
  computes .shImin 0x07 (fun a b _ => if a.slt b then a else b) ∧ computes .shImax 0x08 (fun a b _ => if a.slt b then b else a) ∧
  computes .shUmin 0x09 (fun a b _ => if a.ult b then a else b) ∧ computes .shUmax 0x0A (fun a b _ => if a.ult b then b else a) ∧
  computes .shAnd 0x0B (fun a b _ => a &&& b) ∧ computes .shOr 0x0C (fun a b _ => a ||| b) ∧
  computes .shXor 0x0D (fun a b _ => a ^^^ b) ∧
  computes .shShl 0x0E (fun a b _ => a <<< (b.toNat % 32)) ∧ computes .shShr 0x0F (fun a b _ => a >>> (b.toNat % 32)) ∧
  computes .shSar 0x10 (fun a b _ => a.sshiftRight (b.toNat % 32)) ∧
  computes .shPopc 0x11 (fun a _ _ => BitVec.ofNat 32 ((List.range 32).countP (fun k => a.getLsbD k))) ∧
  computes .shClz 0x12 (fun a _ _ => BitVec.ofNat 32 (32 - if a = 0 then 0 else Nat.log2 a.toNat + 1))

/-- Table 12.9: the float instructions, on exact values rounded once to nearest even (R304). The six functions of R305 give any bits
within 2 units in the last place of the exact value: the spec bounds them and fixes none. -/
def Obligations.ShaderFloatResults : Prop :=
  computes .shFadd 0x20 (fun a b _ => ieee (Machine.Num.add (num32 a) (num32 b))) ∧
  computes .shFsub 0x21 (fun a b _ => ieee (Machine.Num.add (num32 a) (num32 b).neg)) ∧
  computes .shFmul 0x22 (fun a b _ => ieee (Machine.Num.mul (num32 a) (num32 b))) ∧
  computes .shFfma 0x23 (fun a b c => ieee (Machine.Num.add (Machine.Num.mul (num32 a) (num32 b)) (num32 c))) ∧
  computes .shFmin 0x24 (fun a b _ => if num32 a = .nan ∨ num32 b = .nan then 0x7FC00000
    else if (num32 a).lt (num32 b) || ((num32 a).eqv (num32 b) && (num32 a).isNeg) then ieee (num32 a) else ieee (num32 b)) ∧
  computes .shFmax 0x25 (fun a b _ => if num32 a = .nan ∨ num32 b = .nan then 0x7FC00000
    else if (num32 a).lt (num32 b) || ((num32 a).eqv (num32 b) && (num32 a).isNeg) then ieee (num32 b) else ieee (num32 a)) ∧
  computes .shFabs 0x26 (fun a _ _ => a &&& 0x7FFFFFFF) ∧ computes .shFneg 0x27 (fun a _ _ => a ^^^ 0x80000000) ∧
  computes .shFdiv 0x28 (fun a b _ => ieee (Machine.Num.div 24 (num32 a) (num32 b))) ∧
  computes .shFsqrt 0x29 (fun a _ _ => ieee (Machine.Num.sqrt 24 (num32 a))) ∧
  computes .shFrcp 0x2A (fun a _ _ => bounded (Machine.Num.div 120 (Machine.Num.ofInt 1) (num32 a)) (Config.frcp a)) ∧
  computes .shFrsq 0x2B (fun a _ _ => bounded (Machine.Num.rsqrt (num32 a)) (Config.frsq a)) ∧
  computes .shFexp2 0x2C (fun a _ _ => bounded (Machine.Num.exp2 (num32 a)) (Config.fexp2 a)) ∧
  computes .shFlog2 0x2D (fun a _ _ => bounded (Machine.Num.log2 (num32 a)) (Config.flog2 a)) ∧
  computes .shFsin 0x2E (fun a _ _ => boundedTrig 0 Config.fsin a) ∧ computes .shFcos 0x2F (fun a _ _ => boundedTrig 1 Config.fcos a)

/-- Tables 12.10 and 12.11: ICMP, UCMP, FCMP and PCOMB write their predicate and nothing else. -/
def Obligations.ShaderCompareResults : Prop :=
  compares .shIcmp 0x40 5 (intCond BitVec.slt) ∧ compares .shUcmp 0x41 5 (intCond BitVec.ult) ∧
  compares .shFcmp 0x42 7 floatCond ∧
  (∀ s k w x, Ready s k w 0x43 x → x.w.pc + 1 < x.code.length → iSub x.i ≤ 2 →
    ∃ t w', exec (.shPcomb k w) s = .next t ∧ issued s t x w' ∧
      predDest x w' (fun l _ =>
        let arg (n : Nat) : Bool := xor (nbit (x.w.p (n % 8)) l) (nbit n 3)
        match iSub x.i with
        | 0 => arg (iA x.i) && arg (iB x.i)
        | 1 => arg (iA x.i) || arg (iB x.i)
        | _ => xor (arg (iA x.i)) (arg (iB x.i))))

/-- SEL, CVT, MOV, RDSP, SHFL and VOTE (Tables 12.10 and 12.11). The spec states no choice for a uniform SEL on a predicate that differs
among the lanes: it takes A or B (log entry 2). -/
def Obligations.ShaderMoveResults : Prop :=
  places .shSel 0x44 (fun x => iU x.i = false ∨ x.w.p (iC x.i % 8) = allLanes ∨ x.w.p (iC x.i % 8) = 0)
    (fun _ x l => if nbit (x.w.p (iC x.i % 8)) l then x.w.a x.i l else x.w.b x.i l) ∧
  (∀ s k w x, Ready s k w 0x44 x → x.w.pc + 1 < x.code.length → iU x.i = true →
    ∃ t w' h, exec (.shSel k w) s = .next t ∧ issued s t x w' ∧ dest x w' h ∧ (h 0 = x.w.a x.i 0 ∨ h 0 = x.w.b x.i 0)) ∧
  places .shMov 0x50 (fun _ => True) (fun _ x l => if iFmt x.i = 1 then BitVec.ofNat 32 (iImm x.i) else x.w.a x.i l) ∧
  places .shShfl 0x52 (fun _ => True) (fun _ x l => x.w.a x.i ((x.w.b x.i l).toNat % 32)) ∧
  places .shVote 0x53 (fun x => iU x.i = true)
    (fun _ x _ => BitVec.ofNat 32 (Nat.land x.w.active (x.w.p (iA x.i % 8)))) ∧
  (∀ s k w x, Ready s k w 0x51 x → x.w.pc + 1 < x.code.length → iImm x.i ≤ 13 →
    ∃ t w' h, exec (.shRdsp k w) s = .next t ∧ issued s t x w' ∧ dest x w' h ∧ ∀ l, specialIs s x l (h l)) ∧
  (∀ (s : State) k w x, Ready s k w 0x48 x → x.w.pc + 1 < x.code.length →
    ∃ (t : State) (w' : Wave), exec (.shCvt k w) s = .next t ∧
      t = { s with waves := wavesWith s x w', ctr := t.ctr, shOps := t.shOps } ∧ counted s t x ∧
      dest x w' (fun l => BitVec.ofNat 32 (cvtOne x.i (x.w.a x.i l)).1) ∧
      t.shOps.length = s.shOps.length ∧
      ∀ (n : Nat) (o : ShOp), s.shOps[n]? = some o → ∃ fl, t.shOps[n]? = some { (o : ShOp) with flags := Nat.lor o.flags fl } ∧
        (¬(o.fn = x.w.fn ∧ o.pos = x.w.pos ∧ o.stage = x.w.stage ∧ o.op = x.w.op ∧ o.elem = x.w.elem) → fl = 0))

/-- R298: the group's coordinates that RDSP reads are those its index spells. -/
def Obligations.GroupCoordinates : Prop :=
  ∀ (s : State) (x : WaveCtx) (l gx gy : Nat), wf x.c.w 12 15 0 = gx → wf x.c.w 12 31 16 = gy → 0 < gx → 0 < gy →
    x.w.group < 2 ^ 24 → iImm x.i = 2 ∨ iImm x.i = 3 ∨ iImm x.i = 4 →
    ∃ a b c, x.w.group = (c * gy + b) * gx + a ∧ a < gx ∧ b < gy ∧
      (iImm x.i = 2 → (special x s l).toNat = a) ∧ (iImm x.i = 3 → (special x s l).toNat = b) ∧
      (iImm x.i = 4 → (special x s l).toNat = c)

/-- R309 to R311: the control instructions that run without a trap. -/
def Obligations.ShaderControlFlow : Prop :=
  moves .shNop 0x70 (fun _ => True) (fun x => { x.w with pc := x.w.pc + 1 }) ∧
  moves .shBra 0x71 (fun x => taken x = x.w.active) (fun x => { x.w with pc := iTarget x.i }) ∧
  moves .shBra 0x71 (fun x => taken x = 0 ∧ x.w.active ≠ 0) (fun x => { x.w with pc := x.w.pc + 1 }) ∧
  moves .shIf 0x72 (fun x => x.w.masks.length < 16)
    (fun x => { x.w with masks := ⟨false, x.w.active, taken x⟩ :: x.w.masks, active := taken x
                         pc := if taken x = 0 then iTarget x.i else x.w.pc + 1 }) ∧
  (∀ e es, moves .shElse 0x73 (fun x => x.w.masks = e :: es)
    (fun x => { x.w with active := maskSub e.outer e.aux
                         pc := if maskSub e.outer e.aux = 0 then iTarget x.i else x.w.pc + 1 })) ∧
  (∀ e es, moves .shEndif 0x74 (fun x => x.w.masks = e :: es)
    (fun x => { x.w with active := e.outer, masks := es, pc := x.w.pc + 1 })) ∧
  moves .shLoop 0x75 (fun x => x.w.masks.length < 16)
    (fun x => { x.w with masks := ⟨true, x.w.active, 0⟩ :: x.w.masks, pc := x.w.pc + 1 }) ∧
  moves .shBrk 0x76 (fun _ => True) (leaves (fun _ e => e)) ∧
  moves .shCont 0x77 (fun _ => True) (leaves (fun m e => { e with aux := Nat.lor e.aux m })) ∧
  (∀ e es, moves .shEndloop 0x78 (fun x => x.w.masks = e :: es)
    (fun x => if Nat.lor x.w.active e.aux ≠ 0
      then { x.w with active := Nat.lor x.w.active e.aux, masks := { e with aux := 0 } :: es, pc := iTarget x.i }
      else { x.w with active := e.outer, masks := es, pc := x.w.pc + 1 })) ∧
  moves .shCall 0x79 (fun x => x.w.calls.length < 8)
    (fun x => { x.w with calls := (x.w.pc + 1, x.w.masks.length) :: x.w.calls, pc := iTarget x.i }) ∧
  (∀ back cs, moves .shRet 0x7A (fun x => x.w.calls = (back, x.w.masks.length) :: cs)
    (fun x => { x.w with calls := cs, pc := back })) ∧
  moves .shTrap 0x7D (fun x => taken x = 0) (fun x => { x.w with pc := x.w.pc + 1 })

/-- R314, R317 and END: the barrier, tensor messages sent and awaited, and a wave's end while its group goes on. -/
def Obligations.ShaderGroupFlow : Prop :=
  (∀ s k w x, Ready s k w 0x7B x → x.w.pc + 1 < x.code.length →
    ∃ t, exec (.shBar k w) s = .next t ∧ counted s t x ∧
      t = { s with ctr := t.ctr
                   waves := released (wavesWith s x { x.w with bars := x.w.bars + 1, atBar := true, pc := x.w.pc + 1 }) x.w }) ∧
  (∀ s k w x, Ready s k w 0x7C x → (∃ y ∈ s.waves, y.sameGroup x.w = true ∧ ¬(y.core = k ∧ y.slot = w)) →
    ∃ t, exec (.shEnd k w) s = .next t ∧ counted s t x ∧
      t = { s with ctr := t.ctr, waves := released (s.waves.filter (fun y => !(y.core == k && y.slot == w))) x.w }) ∧
  (∀ s k w x, Ready s k w 0x7E x → x.w.pc + 1 < x.code.length →
    let m := (List.range 4).map (fun n => x.w.s (iImm16 x.i + n))
    let mine := s.tmsgs.filter (fun q => q.ofWave x.w)
    msgOk m (wf x.c.w 14 8 0 * 1024) = true →
    (mine.length < 4 → (s.tmsgs.filter (fun q => q.core / 4 == x.w.core / 4)).length < 8 →
      ∃ t, exec (.shTmsg k w) s = .next t ∧ counted s t x ∧
        t = { s with ctr := t.ctr, waves := wavesWith s x { x.w with pc := x.w.pc + 1 }
                     tmsgs := s.tmsgs ++ [⟨x.w.core, x.w.slot, x.w.fn, x.w.pos, x.w.stage, x.w.op, x.w.elem, x.w.group, m⟩] }) ∧
    (4 ≤ mine.length ∨ 8 ≤ (s.tmsgs.filter (fun q => q.core / 4 == x.w.core / 4)).length → exec (.shTmsg k w) s = .next s)) ∧
  (∀ s k w x, Ready s k w 0x7F x → x.w.pc + 1 < x.code.length →
    let mine := s.tmsgs.filter (fun q => q.ofWave x.w)
    (mine.length ≤ iImm16 x.i → ∃ t, exec (.shTwait k w) s = .next t ∧ issued s t x { x.w with pc := x.w.pc + 1 }) ∧
    (iImm16 x.i < mine.length → exec (.shTwait k w) s = .next s)) ∧
  (∀ s n q, s.tmsgs.find? (fun m => m.core / 4 == n) = some q →
    (s.groups.find? (fun g => q.ofGroup g) = none → exec (.tensorMessageDone n) s = .next { s with tmsgs := s.tmsgs.erase q }) ∧
    (∀ g j e, s.groups.find? (fun g => q.ofGroup g) = some g → getJob s q.fn q.pos = some j → j.elems[q.elem]? = some e →
      (∃ y ∈ s.waves, g.of y = true) →
      ∃ t g', exec (.tensorMessageDone n) s = .next t ∧ t.groups = s.groups.map (fun x => if x = g then g' else x) ∧
        g' = { g with local_ := g'.local_ } ∧
        (∀ a, a < (msgOf q.words).out ∨ (msgOf q.words).out + (msgOf q.words).m * (((msgOf q.words).n * 4 + 15) / 16 * 16) ≤ a →
          Tab.get 0 g'.local_ a = Tab.get 0 g.local_ a) ∧
        ctrUp s t 0x701028 1 ∧ ctrKept s t [0x701028, 0x701030] ∧
        t = { s with tmsgs := s.tmsgs.erase q, groups := t.groups, ctr := t.ctr, shOps := t.shOps })) ∧
  (∀ s n, s.tmsgs.find? (fun m => m.core / 4 == n) = none → exec (.tensorMessageDone n) s = .next s)

/-- LD, ST and ATOM of the group's local area (Tables 12.12 and 12.14, R308, R312): a load fills D, lane by lane; the
lane with the highest number wins a byte that several store; atomics on one word go in lane order, each returning the value before. -/
def Obligations.ShaderLocalMemory : Prop :=
  (∀ s k w x, Ready s k w 0x60 x → x.w.pc + 1 < x.code.length → iSpace x.i = 1 → iSize x.i ≤ 4 →
    (∀ l ∈ accLanes x, localOk x l) →
    ∃ t w', exec (.shLd k w) s = .next t ∧ issued s t x w' ∧
      loadDest x w' (fun l => loaded x (localBytes s x (offsetOf x l) (accBytes x.i)))) ∧
  (∀ s k w x, Ready s k w 0x61 x → x.w.pc + 1 < x.code.length → iSpace x.i = 1 → iSize x.i ≤ 4 → iU x.i = false →
    (∀ l ∈ accLanes x, localOk x l) → (∃ g ∈ s.groups, g.of x.w = true) →
    ∃ t, exec (.shSt k w) s = .next t ∧ counted s t x ∧
      t = { s with waves := wavesWith s x { x.w with pc := x.w.pc + 1 }, groups := t.groups, ctr := t.ctr } ∧
      (∀ a, (∀ l ∈ accLanes x, ¬(offsetOf x l ≤ a ∧ a < offsetOf x l + accBytes x.i)) →
        localBytes t x a 1 = localBytes s x a 1) ∧
      (∀ l ∈ accLanes x, (∀ h ∈ accLanes x, l < h → offsetOf x h ≠ offsetOf x l) →
        localBytes t x (offsetOf x l) (accBytes x.i) = storeBytes x l)) ∧
  (∀ s k w x, Ready s k w 0x62 x → x.w.pc + 1 < x.code.length → iSpace x.i = 1 → iSize x.i = 2 → iU x.i = false →
    iAop x.i ≤ 9 → (∀ l ∈ accLanes x, localOk x l) → (∃ g ∈ s.groups, g.of x.w = true) →
    ∃ t w' m, exec (.shAtom k w) s = .next t ∧ counted s t x ∧
      t = { s with waves := wavesWith s x w', groups := t.groups, ctr := t.ctr } ∧ dest x w' m ∧
      (∀ a, (∀ l ∈ accLanes x, ¬(offsetOf x l ≤ a ∧ a < offsetOf x l + 4)) → localBytes t x a 1 = localBytes s x a 1) ∧
      (∀ l ∈ accLanes x, (∀ h ∈ accLanes x, h < l → offsetOf x h ≠ offsetOf x l) →
        m l = BitVec.ofNat 32 (ofBytesLE (localBytes s x (offsetOf x l) 4))) ∧
      (∀ l ∈ accLanes x, ∀ h ∈ accLanes x, l < h → offsetOf x h = offsetOf x l →
        (∀ z ∈ accLanes x, l < z → z < h → offsetOf x z ≠ offsetOf x l) →
        m h = atomNew (iAop x.i) (m l) (x.w.c x.i l) (x.w.src (iC x.i + 1) (iCS x.i) l)) ∧
      (∀ l ∈ accLanes x, (∀ h ∈ accLanes x, l < h → offsetOf x h ≠ offsetOf x l) →
        localBytes t x (offsetOf x l) 4 =
          bytesLE 4 (atomNew (iAop x.i) (m l) (x.w.c x.i l) (x.w.src (iC x.i + 1) (iCS x.i) l)).toNat))

/-- LD and ST of the other spaces, once no lane traps and every page is at hand: LD fills D with the bytes of the space and writes
no memory; ST, its pages held by a TLB, goes on and writes no local memory but where its translated addresses lie. -/
def Obligations.ShaderSpaceMemory : Prop :=
  (∀ s k w x, Ready s k w 0x60 x → x.w.pc + 1 < x.code.length → iSpace x.i ≠ 1 → iSize x.i ≤ 4 →
    (∀ l ∈ accLanes x, accTrap s x false false l = none) →
    blockRanges s x.c.who x.w.fn (accRanges x (accLanes x) false) = .none →
    ∃ t w', exec (.shLd k w) s = .next t ∧ t.waves = wavesWith s x w' ∧
      loadDest x w' (fun l => loaded x
        (spaceRead (touched s x (accRanges x (accLanes x) false)) x (offsetOf x l) (accBytes x.i))) ∧
      memKept s t (fun _ => False) ∧ t.hmem = s.hmem ∧ t.groups = s.groups ∧ t.tt = s.tt ∧ t.fns = s.fns) ∧
  (∀ s k w x, Ready s k w 0x61 x → x.w.pc + 1 < x.code.length → iSpace x.i ≠ 1 → iSize x.i ≤ 4 → iU x.i = false →
    x.c.early = false → (∀ l ∈ accLanes x, accTrap s x true false l = none) →
    blockRanges s x.c.who x.w.fn (accRanges x (accLanes x) true) = .none →
    (∀ v, accVa x v → (tlbFind (touched s x (accRanges x (accLanes x) true)) x.c.who x.w.fn v).isSome = true) →
    ∃ t, exec (.shSt k w) s = .next t ∧ t.waves = wavesWith s x { x.w with pc := x.w.pc + 1 } ∧ t.groups = s.groups ∧
      memKept s t (fun a => storesTo s x a ∨ inTrace s a))

/-- R310 to R312, R316 and R318: what traps in a firm stage, with its cause and detail (Tables 12.16 and 12.18). -/
def Obligations.ShaderTraps : Prop :=
  (∀ mk opc, (mk = Instr.shLd ∧ opc = 0x60) ∨ (mk = Instr.shSt ∧ opc = 0x61) ∨ (mk = Instr.shAtom ∧ opc = 0x62) →
    traps mk opc 1 (fun x l => iSpace x.i = 1 ∧ iU x.i = false ∧ lowest (x.w.acts x.i) l ∧
        (x.w.addr x.i l < 0 ∨ ((wf x.c.w 14 8 0 * 1024 : Nat) : Int) < x.w.addr x.i l + (accBytes x.i : Nat)))
      (fun x l => ((x.w.addr x.i l) % (2 ^ 32 : Int)).toNat) ∧
    traps mk opc 2 (fun x l => iSpace x.i = 1 ∧ iU x.i = false ∧ lowest (x.w.acts x.i) l ∧ 0 ≤ x.w.addr x.i l ∧
        x.w.addr x.i l + (accBytes x.i : Nat) ≤ ((wf x.c.w 14 8 0 * 1024 : Nat) : Int) ∧
        x.w.addr x.i l % ((accBytes x.i : Nat) : Int) ≠ 0)
      (fun x l => ((x.w.addr x.i l) % (2 ^ 32 : Int)).toNat)) ∧
  traps .shBra 0x71 5 (fun x l => taken x ≠ x.w.active ∧ taken x ≠ 0 ∧ lowest x.w.active l) (fun _ _ => 0) ∧
  traps .shIf 0x72 6 (fun x l => 16 ≤ x.w.masks.length ∧ lowest x.w.active l) (fun _ _ => 0) ∧
  traps .shLoop 0x75 6 (fun x l => 16 ≤ x.w.masks.length ∧ lowest x.w.active l) (fun _ _ => 0) ∧
  traps .shCall 0x79 6 (fun x l => 8 ≤ x.w.calls.length ∧ lowest x.w.active l) (fun _ _ => 0) ∧
  traps .shRet 0x7A 6 (fun x l => (x.w.calls = [] ∨ ∃ c cs, x.w.calls = c :: cs ∧ c.2 ≠ x.w.masks.length) ∧ lowest x.w.active l)
    (fun _ _ => 0) ∧
  traps .shTrap 0x7D 8 (fun x l => lowest (taken x) l) (fun x _ => iImm16 x.i) ∧
  traps .shTmsg 0x7E 7 (fun x l => msgOk ((List.range 4).map (fun n => x.w.s (iImm16 x.i + n))) (wf x.c.w 14 8 0 * 1024) = false ∧
    lowest x.w.active l) (fun _ _ => 0)

/-- Training, flits, replay and the ends of links (R377 to R381, R385 to R390, R409, R410, R421, Tables 15.2, 15.3, 15.5). -/
def Obligations.LinksTrainAndFail : Prop :=
  (∀ s p, 3 ≤ p → exec (.retrain p) s = .next s ∧ ∀ v, exec (.blLinkEn p v) s = .next s) ∧
  (∀ s p, p < 3 → hostOpen s → bootDone s = true →
    (portState s p = 2 ∨ portState s p = 4 → exec (.retrain p) s = .next (bump32 s R.HI_WRITE_REJECT)) ∧
    (portState s p = 0 → exec (.retrain p) s = .next s) ∧
    (portState s p = 1 ∨ portState s p = 3 ∨ portState s p = 5 ∨ portState s p = 6 →
      ∃ t, exec (.retrain p) s = .next t ∧ fullTraining s t p)) ∧
  (∀ s p, p < 3 → hostOpen s → bootDone s = true →
    (portState s p = 0 → ∃ t, exec (.blLinkEn p true) s = .next t ∧ portState t p = 1 ∧ isSet t (R.BL_LINK_n_CTRL p) F.BL_LINK_n_CTRL.EN) ∧
    (portState s p ≠ 0 → ∃ t, exec (.blLinkEn p true) s = .next t ∧ portState t p = portState s p ∧
      isSet t (R.BL_LINK_n_CTRL p) F.BL_LINK_n_CTRL.EN ∧ t = { s with regs := t.regs }) ∧
    (portState s p = 3 ∨ portState s p = 4 ∨ portState s p = 5 → ∃ t, exec (.blLinkEn p false) s = .next t ∧ portLost s t p 0 ∧
      isClear t (R.BL_LINK_n_CTRL p) F.BL_LINK_n_CTRL.EN) ∧
    (portState s p = 0 ∨ portState s p = 1 ∨ portState s p = 2 ∨ portState s p = 6 → ∃ t, exec (.blLinkEn p false) s = .next t ∧
      portState t p = 0 ∧ isClear t (R.BL_LINK_n_CTRL p) F.BL_LINK_n_CTRL.EN)) ∧
  (∀ s p lane tag inv, p < 3 → lane < 8 → tag < 8 → awake s → (getPort s p).train = .detect →
    (tag = lane → (getPort s p).reversed ≠ some true → ∃ t, exec (.laneLock p lane tag inv) s = .next t ∧ nbit (lanesLocked t p) tag = true ∧
      isClear t (R.BL_LINK_n_STATE p) F.BL_LINK_n_STATE.REVERSED ∧ (getPort t p).reversed = some false ∧
      (∀ n, n < 8 → n ≠ tag → nbit (lanesLocked t p) n = nbit (lanesLocked s p) n) ∧ t = { s with regs := t.regs, link := t.link }) ∧
    (tag + lane = 7 → (getPort s p).reversed ≠ some false → ∃ t, exec (.laneLock p lane tag inv) s = .next t ∧ nbit (lanesLocked t p) tag = true ∧
      isSet t (R.BL_LINK_n_STATE p) F.BL_LINK_n_STATE.REVERSED ∧ (getPort t p).reversed = some true ∧
      (∀ n, n < 8 → n ≠ tag → nbit (lanesLocked t p) n = nbit (lanesLocked s p) n) ∧ t = { s with regs := t.regs, link := t.link }) ∧
    (tag ≠ lane → tag + lane ≠ 7 → exec (.laneLock p lane tag inv) s = .next s)) ∧
  (∀ s p, ((getPort s p).train = .detect → lanesLocked s p ≠ 0 → ∃ t, exec (.equalise p) s = .next t ∧ (getPort t p).train = .equalise ∧
      t = { s with link := t.link, out := s.out ++ [.prbs31 p 2] }) ∧
    ((getPort s p).train ≠ .detect → exec (.equalise p) s = .next s)) ∧
  (∀ s p, ((getPort s p).train = .equalise ∨ ((getPort s p).train = .detect ∧ (getPort s p).savedEq = true ∧ lanesLocked s p ≠ 0) →
      ∃ t sets, exec (.config p) s = .next t ∧ (getPort t p).train = .config ∧ t.out = s.out ++ [.link p sets] ∧ t = { s with link := t.link, out := t.out }) ∧
    (p < 3 → portState s p = 3 → (getPort s p).train = .idle → (getPort s p).parked = false →
      ∃ t, exec (.config p) s = .next t ∧ portState t p = 4 ∧ (getPort t p).train = .config ∧ (getPort t p).half = true ∧
        (getPort t p).cap = portWidth s p ∧ ctrUp s t (0xA00068 + 0x100 * p) 1) ∧
    ((getPort s p).train = .config ∨ ((getPort s p).train = .detect ∧ ((getPort s p).savedEq = false ∨ lanesLocked s p = 0) ∧ portState s p ≠ 3) ∨
      ((getPort s p).train = .idle ∧ (portState s p ≠ 3 ∨ (getPort s p).parked = true)) → exec (.config p) s = .next s)) ∧
  (∀ s p tsb c g, p < 3 → awake s → (getPort s p).train = .config → tsbOk tsb (getPort s p).half = true →
    agreeWidth (Nat.land (lanesLocked s p) (mByte tsb 5)) (min (getPort s p).cap (mByte tsb 6)) = some (c, g) →
    ((getPort s p).half = false → nbits (mByte tsb 3) 3 2 = s.boot.podId →
      ∃ t, exec (.configDone p tsb) s = .next t ∧ portState t p = 6 ∧ isSet t (R.BL_LINK_n_ERR p) F.BL_LINK_n_ERR.CONFLICT) ∧
    ((getPort s p).half = false → nbits (mByte tsb 3) 3 2 ≠ s.boot.podId →
      (∃ q, q < 3 ∧ q ≠ p ∧ portUp s q = true ∧ portPeer s q = nbits (mByte tsb 3) 3 2) →
      ∃ t, exec (.configDone p tsb) s = .next t ∧ portState t p = 5 ∧ portPeer t p = nbits (mByte tsb 3) 3 2) ∧
    ((getPort s p).half = false → nbits (mByte tsb 3) 3 2 ≠ s.boot.podId →
      (∀ q, q < 3 → q ≠ p → portUp s q = true → portPeer s q ≠ nbits (mByte tsb 3) 3 2) →
      ∃ t, exec (.configDone p tsb) s = .next t ∧ portState t p = 3 ∧ portWidth t p = c ∧ portPeer t p = nbits (mByte tsb 3) 3 2 ∧
        (getPort t p).train = .idle ∧ (getPort t p).group = g ∧ (getPort t p).rxSeq = 0) ∧
    ((getPort s p).half = true → ∃ t, exec (.configDone p tsb) s = .next t ∧ portState t p = 3 ∧ portWidth t p = c ∧
      (getPort t p).train = .idle ∧ (getPort t p).half = false ∧ (getPort t p).rxSeq = (getPort s p).rxSeq)) ∧
  (∀ s p tsb, p < 3 → awake s → (getPort s p).train = .config → (tsbOk tsb (getPort s p).half = false ∨
      agreeWidth (Nat.land (lanesLocked s p) (mByte tsb 5)) (min (getPort s p).cap (mByte tsb 6)) = none) →
    ∃ t, exec (.configDone p tsb) s = .next t ∧ portState t p = 1 ∧ (portState s p ≠ 1 → portLost s t p 1)) ∧
  (∀ s p tsb, 3 ≤ p ∨ (awake s ∧ (getPort s p).train ≠ .config) → exec (.configDone p tsb) s = .next s) ∧
  (∀ s p n, n = ((List.range 8).filter (fun i => nbit (lanesLocked s p) i)).length →
    (p < 3 → ((getPort s p).train = .config ∨ ((getPort s p).train = .detect ∧ n < 2)) →
      ∃ t, exec (.trainingTimeout p) s = .next t ∧ portState t p = 1 ∧ (portState s p ≠ 1 → portLost s t p 1)) ∧
    ((getPort s p).train = .idle ∨ (getPort s p).train = .equalise ∨ ((getPort s p).train = .detect ∧ 2 ≤ n) →
      exec (.trainingTimeout p) s = .next s)) ∧
  (∀ s p, p < 3 → bootDone s = true → awake s → portState s p = 1 → isSet s (R.BL_LINK_n_CTRL p) F.BL_LINK_n_CTRL.EN →
    (isSet s (R.BL_LINK_n_CTRL p) F.BL_LINK_n_CTRL.AUTO_RETRY → ∃ t, exec (.autoRetry p) s = .next t ∧ fullTraining s t p) ∧
    (isClear s (R.BL_LINK_n_CTRL p) F.BL_LINK_n_CTRL.AUTO_RETRY → exec (.autoRetry p) s = .next s)) ∧
  (∀ s p fl, takesFlits s p →
    (flitGood fl = false → ∃ t, exec (.payloadFlit p fl) s = .next t ∧ ctrUp s t (0xA00050 + 0x100 * p) 1 ∧
      (getPort t p).rxSeq = (getPort s p).rxSeq ∧ (getPort t p).inbox = (getPort s p).inbox ∧
      ((getPort s p).nakSent = true ∨ portState s p ≠ 3 → t.out = s.out ∧ (getPort t p).nakSent = (getPort s p).nakSent) ∧
      ((getPort s p).nakSent = false → portState s p = 3 →
        (getPort t p).nakSent = true ∧ ctrUp s t (0xA00060 + 0x100 * p) 1 ∧ ∃ nak, t.out = s.out ++ [.link p nak])) ∧
    (flitGood fl = true → nbits (mByte fl 4) 1 0 = 0 → mLE fl 6 2 % 16384 ≠ 0 → (getPort s p).rxSeq < 65536 →
      (mLE fl 0 2 = (getPort s p).rxSeq → ∃ t, exec (.payloadFlit p fl) s = .next t ∧ ctrUp s t (0xA00048 + 0x100 * p) 1 ∧
        (getPort t p).rxSeq = ((getPort s p).rxSeq + 1) % 65536 ∧ (getPort t p).nakSent = false) ∧
      (mLE fl 0 2 ≠ (getPort s p).rxSeq → ∃ t, exec (.payloadFlit p fl) s = .next t ∧ (getPort t p).rxSeq = (getPort s p).rxSeq ∧
        (getPort t p).inbox = (getPort s p).inbox ∧
        ((mLE fl 0 2 + 65536 - (getPort s p).rxSeq) % 65536 < 32768 → portState s p = 3 → (getPort t p).nakSent = true) ∧
        (32768 ≤ (mLE fl 0 2 + 65536 - (getPort s p).rxSeq) % 65536 ∨ portState s p ≠ 3 →
          (getPort t p).nakSent = (getPort s p).nakSent)))) ∧
  (∀ s p fl, ¬ takesFlits s p → exec (.payloadFlit p fl) s = .next s ∧ exec (.nak p fl) s = .next s) ∧
  (∀ s p fl, nbits (mByte fl 4) 1 0 = 2 → exec (.nak p fl) s = exec (.payloadFlit p fl) s) ∧
  (∀ s p fl, takesFlits s p → portState s p = 3 → flitGood fl = true → nbits (mByte fl 4) 1 0 = 2 → nbit (mByte fl 4) 2 = false →
    ∃ t, exec (.nak p fl) s = .next t ∧ replayed s t p) ∧
  (∀ s p, p < 3 → portState s p = 3 → (getPort s p).replay ≠ [] → (getPort s p).parked = false →
    ∃ t, exec (.replayTimeout p) s = .next t ∧ replayed s t p) ∧
  (∀ s p, ((getPort s p).replay = [] ∨ (getPort s p).parked = true ∨ portState s p ≠ 3) → exec (.replayTimeout p) s = .next s) ∧
  (∀ s p, p < 3 → ∃ t, exec (.replayWindow p) s = .next t ∧ isClear t (R.BL_LINK_n_ERR p) F.BL_LINK_n_ERR.REPLAYS ∧
    regsKept s t [R.BL_LINK_n_ERR p] ∧ (getPort t p).did8 = false ∧ (getPort t p).did32 = false ∧ (getPort t p).did128 = false ∧
    t = { s with regs := t.regs, link := t.link }) ∧
  (∀ s p, p < 3 → portState s p = 3 → (getPort s p).parked = false → awake s →
    ∃ t, exec (.linkSilenceTimeout p) s = .next t ∧ portLost s t p 1) ∧
  (∀ s p, portState s p ≠ 3 ∨ (getPort s p).parked = true ∨ ¬ awake s → exec (.linkSilenceTimeout p) s = .next s) ∧
  (∀ s, (awake s → exec .routeStateTimer s = .next (sendRoutes s)) ∧ (¬ awake s → exec .routeStateTimer s = .next s))

/-- Messages from peers (R159, R395 to R402, R404, R406 to R408, R411, R413 to R415, R417). -/
def Obligations.PeerMessagesActOnce : Prop :=
  (∀ s p type i k, peerRow p type = some (i, k) →
    (firstOf p type s = none → exec i s = .next s) ∧
    (∀ m, firstOf p type s = some m → wellMade m = true → (type = 0x02 ∨ type = 0x03) → wedgedNow s = true → exec i s = .next s) ∧
    (∀ m, firstOf p type s = some m → wellMade m = true → numbered type = true → mSeq m < Tab.get 0 s.link.rxE2E (4 * mSrc m + mClass m) →
      type ≠ 0x10 → type ≠ 0x13 → mayWrite s type →
      performs i s p (fun x => ∃ u, x = streamAck u m ∧ traced (bump (unboxed s p m) 0xA00518) u)) ∧
    (∀ m, firstOf p type s = some m → wellMade m = true → numbered type = true → Tab.get 0 s.link.rxE2E (4 * mSrc m + mClass m) < mSeq m →
      type ≠ 0x10 → type ≠ 0x13 → mayWrite s type → exec i s = .next (answered (logX (unboxed s p m) 0x0A06 4 0xFF
        ([BitVec.ofNat 8 (mSrc m), BitVec.ofNat 8 (mClass m)] ++ bytesLE 4 (mSeq m))) p)) ∧
    (∀ m, firstOf p type s = some m → wellMade m = false → (numbered type = true → mSeq m = Tab.get 0 s.link.rxE2E (4 * mSrc m + mClass m)) →
      exec i s = .next (answered (malformed (delivered s p m) p m) p)) ∧
    (∀ m, arrives s p type m → type ≠ 0x10 → type ≠ 0x13 → mayWrite s type → exec i s = .next (answered (k (delivered s p m) m) p))) ∧
  (∀ u p, noErrors u → (∀ q ∈ (getPort u p).inbox, typeKnown (mType q) = true) → answered u p = sendIdle u p) ∧
  (∀ u p m, (rd (malformed u p m) R.BL_MALFORMED).toNat = satAdd top32 (rd u R.BL_MALFORMED).toNat 1 ∧ (malformed u p m).mem = u.mem) ∧
  (∀ s p m, arrives s p 0x01 m →
    (podAllowed (delivered s p m) m = true → performs (.msgRdReq p) s p (fun x => x.mem = s.mem ∧ ∃ u, u.mem = s.mem ∧
      x = sendRsp u m 0x08 St.DONE (readL s (reqAddr m) (reqLen m)))) ∧
    (podAllowed (delivered s p m) m = false → performs (.msgRdReq p) s p (fun x => x.mem = s.mem ∧ x = refuseMsg (delivered s p m) m))) ∧
  (∀ s p m, noErrors s → arrives s p 0x02 m → wedgedNow s = false →
    (podAllowed (delivered s p m) m = true → m.length = 16 + 16 * dataSlots m 0 →
      performs (.msgWrReq p) s p (fun x => memHolds s x (reqAddr m) ((m.drop 16).take (reqLen m)) ∧ ∃ u, x = sendRsp u m 0x09 St.DONE [])) ∧
    (podAllowed (delivered s p m) m = false → performs (.msgWrReq p) s p (fun x => x.mem = s.mem ∧ x = refuseMsg (delivered s p m) m))) ∧
  (∀ s p m, noErrors s → arrives s p 0x03 m → wedgedNow s = false →
    (podAllowed (delivered s p m) m = true → performs (.msgAtReq p) s p (fun x => ∃ u old, old = ofBytesLE (readL s (reqAddr m) (reqLen m)) ∧
      x = sendRsp u m 0x0A St.DONE (bytesLE (reqLen m) old) ∧
      memHolds s x (reqAddr m) (bytesLE (reqLen m) (atomVal (8 * reqLen m) (nbits (mByte m 13) 3 0) old
        (mLE m 16 (reqLen m)) (mLE m (16 + reqLen m) (reqLen m)))))) ∧
    (podAllowed (delivered s p m) m = false → performs (.msgAtReq p) s p (fun x => x.mem = s.mem ∧ x = refuseMsg (delivered s p m) m))) ∧
  (∀ s p m r u, u = delivered s p m →
    (arrives s p 0x08 m → findsReq u m [1] r → mLE m 8 2 = St.DONE → m.length = 16 + 16 * ceilDiv r.len 16 →
      (stillWanted s r = true → performs (.msgRdRsp p) s p (fun x => ∃ v c, requestTaken u v r ∧
        x = resumeRemote { v with link := { v.link with cache := c } } ∧
        ∀ n, n < r.len → Tab.get none c (podKey r.who r.fn r.pod r.addr + n) = some ((m[16 + n]?).getD 0))) ∧
      (stillWanted s r = false → performs (.msgRdRsp p) s p (fun x => requestTaken u x r))) ∧
    (arrives s p 0x09 m → findsReq u m [2] r → mLE m 8 2 = St.DONE →
      performs (.msgWrAck p) s p (fun x => ∃ v, requestTaken u v r ∧ x = settleFn (resumeRemote v) r.fn)) ∧
    (arrives s p 0x0A m → findsReq u m [3] r → mLE m 8 2 = St.DONE →
      performs (.msgAtRsp p) s p (fun x => ∃ v, requestTaken u v r ∧ x = settleFn (resumeRemote v) r.fn)) ∧
    (mLE m 8 2 ≠ St.DONE →
      (arrives s p 0x08 m → findsReq u m [1] r → performs (.msgRdRsp p) s p (fun x => ∃ v, requestTaken u v r ∧ x = accessRefused v r)) ∧
      (arrives s p 0x09 m → findsReq u m [2] r → performs (.msgWrAck p) s p (fun x => ∃ v, requestTaken u v r ∧ x = accessRefused v r)) ∧
      (arrives s p 0x0A m → findsReq u m [3] r → performs (.msgAtRsp p) s p (fun x => ∃ v, requestTaken u v r ∧ x = accessRefused v r))) ∧
    (arrives s p 0x18 m → findsReq u m [0x10] r → performs (.msgFenceAck p) s p (fun x => ∃ v w, requestTaken u v r ∧ x = settleFn w r.fn ∧
      w = { v with fns := w.fns } ∧ ∀ q, getPkt s r.fn r.pos = some q → q.phase ≠ .complete → ended w r.fn r.pos (mLE m 8 2) 0)) ∧
    (arrives s p 0x1A m → findsReq u m [0x13] r → performs (.msgMsgAck p) s p (fun x => ∃ v w, requestTaken u v r ∧ x = settleFn w r.fn ∧
      w = { v with fns := w.fns } ∧ ∀ q, getPkt s r.fn r.pos = some q → q.phase ≠ .complete → ended w r.fn r.pos (mLE m 8 2) 0)) ∧
    (arrives s p 0x19 m → findsReq u m [0x11] r → ∀ q, getPkt s r.fn r.pos = some q →
      (mLE m 8 2 = St.DONE → performs (.msgFenceNotify p) s p (fun x => ∃ v, requestTaken u v r ∧ getPkt v r.fn r.pos = some q ∧
        x = settleFn (endWait v r.fn q (mLE m 16 8)) r.fn)) ∧
      (mLE m 8 2 ≠ St.DONE → performs (.msgFenceNotify p) s p (fun x => getPkt x r.fn r.pos = some { q with remoteWait := true })))) ∧
  (∀ s f pos q, getPkt s f pos = some q →
    (q.opcode = 0x03 → q.remoteWait = true → q.phase = .dispatched →
      (hasRoute s (q.bits 4 2 1) = true → exec (.fenceWatchRetry f pos) s =
        .next (sendWatch (modPkt s f pos (fun q => { q with remoteWait := false })) f q)) ∧
      (hasRoute s (q.bits 4 2 1) = false → exec (.fenceWatchRetry f pos) s =
        .next (functionFault (modPkt s f pos (fun q => { q with remoteWait := false })) f St.LINK_LOST pos))) ∧
    (q.opcode ≠ 0x03 ∨ q.remoteWait = false ∨ q.phase ≠ .dispatched → exec (.fenceWatchRetry f pos) s = .next s)) ∧
  (∀ s p m u, u = delivered s p m → arrives s p 0x10 m →
    (fenceWrOk s m = false → fenceWrOk u m = false → exec (.msgFenceWr p) s = .next (answered (refuseMsg u m) p)) ∧
    (fenceWrOk s m = true → (∀ w, fenceWrWrite s m ≠ .waits w) → fenceWrOk u m = true → ∀ w, fenceWrWrite u m = .written w →
      performs (.msgFenceWr p) s p (fun x => ∃ v, x = sendRsp (fenceWritten v (mFn m) (mSlot m) (mLE m 16 8)) m 0x18 St.DONE [] ∧
        Tab.get 0 (getFn v (mFn m)).fenceRec (mSlot m) = mLE m 16 8)) ∧
    (fenceWrOk s m = true → ∀ w, fenceWrWrite s m = .waits w → exec (.msgFenceWr p) s = .next w)) ∧
  (∀ s p m u, u = delivered s p m → arrives s p 0x13 m →
    (msgRoom s m = false → msgRoom u m = false → exec (.msgMsg p) s = .next (answered (refuseMsg u m) p)) ∧
    (msgRoom s m = true → (∀ w, msgWrite s m ≠ .waits w) → msgRoom u m = true → ∀ w, msgWrite u m = .written w →
      performs (.msgMsg p) s p (fun x => ∃ v y, x = sendRsp v m 0x1A St.DONE [] ∧ traced y v ∧
        y = raiseEvent w (mFn m) F.HI_MSIX_EVENT_MAP.REPLY_VEC F.HI_MSIX_EVENT_MAP.REPLY_EN)) ∧
    (msgRoom s m = true → ∀ w, msgWrite s m = .waits w → exec (.msgMsg p) s = .next w)) ∧
  (∀ s p m u c e, u = delivered s p m → arrives s p 0x11 m → e = nbit (mByte m 9) 0 → c = Tab.get 0 (getFn u (mFn m)).shadow (mSlot m) →
    ((fnExists u (mFn m) && fnEnabled u (mFn m)) = false → exec (.msgFenceWatch p) s = .next (answered (refuseMsg (bump u 0xA00528) m) p)) ∧
    ((fnExists u (mFn m) && fnEnabled u (mFn m)) = true → fenceMeets c (mLE m 16 8) e = true →
      exec (.msgFenceWatch p) s = .next (answered (sendRsp u m 0x19 St.DONE (bytesLE 8 c)) p)) ∧
    ((fnExists u (mFn m) && fnEnabled u (mFn m)) = true → fenceMeets c (mLE m 16 8) e = false → 512 ≤ u.link.watches.length →
      exec (.msgFenceWatch p) s = .next (answered (refuseMsg (bump u 0xA00528) m) p)) ∧
    ((fnExists u (mFn m) && fnEnabled u (mFn m)) = true → fenceMeets c (mLE m 16 8) e = false → u.link.watches.length < 512 →
      performs (.msgFenceWatch p) s p (fun x => x = { u with link := x.link } ∧
        x.link = { u.link with watches := u.link.watches ++ [⟨mSrc m, mTag m, mFn m, mSlot m, e, mLE m 16 8⟩] }))) ∧
  (∀ s p m u, u = delivered s p m → arrives s p 0x12 m → performs (.msgFenceUnwatch p) s p (fun x => x = { u with link := x.link } ∧
    x.link = { u.link with watches := x.link.watches } ∧ ∀ w, w ∈ x.link.watches ↔ w ∈ u.link.watches ∧ ¬(w.pod = mSrc m ∧ w.tag = mTag m))) ∧
  (∀ s p m u, u = delivered s p m → arrives s p 0x20 m → u.link.backlog = [] → performs (.msgStreamAck p) s p (fun x =>
    x = { u with link := x.link } ∧ x.link = { u.link with relayed := x.link.relayed } ∧
    ∀ h, h ∈ x.link.relayed ↔ h ∈ u.link.relayed ∧ ¬(h.dst = mSrc m ∧ mClass h.msg = nbits (mByte m 12) 1 0 ∧ mSeq h.msg ≤ mLE m 8 4))) ∧
  (∀ s p m u, u = delivered s p m → arrives s p 0x21 m → u.link.reqs = [] → u.link.relayed = [] → u.link.backlog = [] →
    ((Tab.get none u.link.peerInc (mSrc m) = none ∨ Tab.get none u.link.peerInc (mSrc m) = some (mLE m 10 2)) →
      performs (.msgRouteState p) s p (fun x =>
        Tab.get 0 x.link.peerDirect (mSrc m) = mByte m 8 ∧ Tab.get none x.link.peerInc (mSrc m) = some (mLE m 10 2) ∧
        (∀ d, d ≠ mSrc m → Tab.get 0 x.link.peerDirect d = Tab.get 0 u.link.peerDirect d) ∧ x.link.rxE2E = u.link.rxE2E ∧
        x.link.ports = u.link.ports)) ∧
    (∀ old, Tab.get none u.link.peerInc (mSrc m) = some old → old ≠ mLE m 10 2 → performs (.msgRouteState p) s p (fun x =>
      (∀ c, c < 4 → Tab.get 0 x.link.rxE2E (4 * mSrc m + c) = 0 ∧ Tab.get 0 x.link.txE2E (4 * mSrc m + c) = 0) ∧
        ∀ w ∈ x.link.watches, w.pod ≠ mSrc m)))

/-- The commands of the two-wire port (R422, R425 to R432, R442, R444, Tables 16.2 to 16.4, 16.10). -/
def Obligations.ManagementCommands : Prop :=
  (∀ s src, s.pwr.phase = .awake → s.pwr.round = none → latchWake s src = s) ∧
  (∀ s x i code data, listens s → x.read = true → (i, code, data) ∈ mgmtReads s x →
    ∃ t, exec i s = .next t ∧ replied s t (data ++ readPec s x code data)) ∧
  (∀ s x, listens s →
    (∃ t, exec (.mgmtQuickCommand x) s = .next t ∧ accepted s t) ∧
    (∃ t b, exec (.mgmtReceiveByte x) s = .next t ∧ b = BitVec.ofNat 8 (runState s + b2n (bootDone s) * 8 + b2n (anyHalted s) * 16 + s.pwr.leftFor * 32) ∧
      replied s t (b :: (if x.pec then [pecOf [addrR s, b]] else []))) ∧
    (x.wr = [] → ∃ t, exec (.mgmtSendByte x) s = .next t ∧ accepted s t) ∧
    (3 ≤ x.wr.length → ∃ t, exec (.mgmtSendByte x) s = .next t ∧ turnedAway s t 0xB00108) ∧
    (∀ b, x.wr = [b] → (isClear s R.MB_CFG F.MB_CFG.PEC_REQUIRED → ∃ t, exec (.mgmtSendByte x) s = .next t ∧ accepted s t) ∧
      (isSet s R.MB_CFG F.MB_CFG.PEC_REQUIRED → ∃ t, exec (.mgmtSendByte x) s = .next t ∧ turnedAway s t 0xB00108)) ∧
    (∀ b p, x.wr = [b, p] → (p = pecOf [addrW s, b] → ∃ t, exec (.mgmtSendByte x) s = .next t ∧ accepted s t) ∧
      (p ≠ pecOf [addrW s, b] → ∃ t, exec (.mgmtSendByte x) s = .next t ∧ turnedAway s t 0xB00110))) ∧
  (∀ s x, listens s → x.read = true → ∀ data,
    (data = bytesLE 2 (rf s R.MB_ATTENTION F.MB_ATTENTION.SOURCES) → ∃ t e, exec (.mgmtLastReported x true) s = .next t ∧
      e.mgmt = { s.mgmt with lastReported := rf s R.MB_ATTENTION F.MB_ATTENTION.SOURCES } ∧ isClear e R.MB_ATTENTION F.MB_ATTENTION.SOURCES ∧
      regsKept s e [R.MB_ATTENTION] ∧ e = { s with regs := e.regs, mgmt := e.mgmt } ∧
      replied e t (data ++ readPec s x 0 data)) ∧
    (data = blockOfBytes ((s.log.recs[s.mgmt.logIndex]?).getD (List.replicate 32 0)) → ∃ t e, exec (.mgmtLogRead x) s = .next t ∧
      e = { s with mgmt := { s.mgmt with logIndex := (s.mgmt.logIndex + 1) % 65536 } } ∧ replied e t (data ++ readPec s x 0x12 data)) ∧
    (data = blockOfBytes (bytesLE 4 (readReg s true s.mgmt.regAddr).2.toNat) → ∃ t e, exec (.mgmtRegData x) s = .next t ∧
      e.mgmt.regAddr = (s.mgmt.regAddr + 4) % 0x1000000 ∧ replied e t (data ++ readPec s x 0x21 data)) ∧
    (∃ t d, exec (.mgmtKeepalive x) s = .next t ∧ d.length = 8 ∧ replied s t (blockOfBytes d ++ readPec s x 9 (blockOfBytes d)) ∧
      (d[0]?).map (·.toNat) = some (rf s R.KA_STATUS F.KA_STATUS.SOURCE) ∧ (d[6]?).map (·.toNat) = some (harvState s)) ∧
    (∃ t e d, exec (.mgmtLogNote x) s = .next t ∧ d.length = 9 ∧ e = { s with freeCtr := s.freeCtr + 9 } ∧
      replied e t (d ++ readPec s x 0x13 d))) ∧
  (∀ s x i, listens s → x.read = false → i ∈ readOnlyRows x →
    (x.wr = [] → ∃ t, exec i s = .next t ∧ accepted s t) ∧ (x.wr ≠ [] → ∃ t, exec i s = .next t ∧ turnedAway s t 0xB00108)) ∧
  (∀ s x i code n block early last apply body, writeRow x i code n block early last apply → listens s → x.read = false →
    body = (x.wr.take (n + b2n block)).drop (b2n block) →
    (block = true → ∀ c cs, x.wr = c :: cs → (c.toNat ≠ n ∨ early s = true) → ∃ t, exec i s = .next t ∧ turnedAway s t 0xB00108) ∧
    ((block = true → ((x.wr.head?).map (·.toNat)).getD n = n ∧ early s = false) →
      (x.wr.length < n + b2n block → ∃ t, exec i s = .next t ∧ accepted s t) ∧
      (n + b2n block ≤ x.wr.length → last body = true → ∃ t, exec i s = .next t ∧ turnedAway s t 0xB00108) ∧
      (x.wr.length = n + b2n block → last body = false →
        (isClear s R.MB_CFG F.MB_CFG.PEC_REQUIRED → ∃ t, exec i s = .next t ∧ accepted (apply s body) t) ∧
        (isSet s R.MB_CFG F.MB_CFG.PEC_REQUIRED → ∃ t, exec i s = .next t ∧ turnedAway s t 0xB00108)) ∧
      (n + b2n block < x.wr.length → last body = false → ∀ p, x.wr[n + b2n block]? = some p →
        (p ≠ pecOf ([addrW s, BitVec.ofNat 8 code] ++ x.wr.take (n + b2n block)) → ∃ t, exec i s = .next t ∧ turnedAway s t 0xB00110) ∧
        (p = pecOf ([addrW s, BitVec.ofNat 8 code] ++ x.wr.take (n + b2n block)) →
          (x.wr.length = n + b2n block + 1 → ∃ t, exec i s = .next t ∧ accepted (apply s body) t) ∧
          (n + b2n block + 1 < x.wr.length → ∃ t, exec i s = .next t ∧ turnedAway s t 0xB00108))))) ∧
  (∀ s d,
    ((0xB00000 ≤ s.mgmt.regAddr ∧ s.mgmt.regAddr < 0xC00000) ∨ (0x10F000 ≤ s.mgmt.regAddr ∧ s.mgmt.regAddr < 0x110000) →
      regDataWrite s d = bump32 s R.HI_WRITE_REJECT) ∧
    (bootDone s = true → s.mgmt.regAddr = R.FL_TRACE_BASE_LO → isClear s R.FL_TRACE_CTRL F.FL_TRACE_CTRL.EN →
      regsKept s (regDataWrite s d) [R.FL_TRACE_BASE_LO] ∧ (regDataWrite s d).mgmt = s.mgmt)) ∧
  (∀ s x, ¬ listens s → exec (.mgmtQuickCommand x) s = .next s ∧ exec (.mgmtSendByte x) s = .next s ∧
    exec (.mgmtReceiveByte x) s = .next s ∧ exec (.mgmtAttentionEn x) s = .next s ∧ exec (.mgmtLogSelect x) s = .next s ∧
    exec (.mgmtLogNote x) s = .next s ∧ exec (.mgmtRegAddr x) s = .next s ∧ exec (.mgmtRegData x) s = .next s ∧
    ∀ i ∈ readOnlyRows x, exec i s = .next s)

/-- Controller mode, the address matcher and the hand-raise (R433 to R440, R442 to R451, Tables 16.6, 16.8). -/
def Obligations.ControllerAndHandRaise : Prop :=
  (∀ s v, hostOpen s → bootDone s = true →
    (fld v 0 0 = 0 → exec (.controllerStart v) s = .next s) ∧
    (fld v 0 0 = 1 →
      (∀ c, s.mgmt.ctl = some c → exec (.controllerStart v) s = .next (bump32 s R.HI_WRITE_REJECT)) ∧
      (s.mgmt.ctl = none → isClear s R.MB_CFG F.MB_CFG.CTL_EN → ∃ t, exec (.controllerStart v) s = .next t ∧ ctlEnded s t St.NOT_PERMITTED 0 false false 0) ∧
      (s.mgmt.ctl = none → isSet s R.MB_CFG F.MB_CFG.CTL_EN → ctlOk s = false → ∃ t, exec (.controllerStart v) s = .next t ∧
        ctlEnded s t St.BAD_PARAM 0 false false 0) ∧
      (s.mgmt.ctl = none → isSet s R.MB_CFG F.MB_CFG.CTL_EN → ctlOk s = true → ∃ t, exec (.controllerStart v) s = .next t ∧ attempted s t 1 ∧
        isSet t R.MB_CTL_STATUS F.MB_CTL_STATUS.BUSY ∧ regsKept s t [R.MB_CTL_STATUS] ∧
        t = { s with mgmt := t.mgmt, regs := t.regs, out := t.out }))) ∧
  (∀ s, s.mgmt.ctl = none → (∀ k, exec (.arbitrationLoss k) s = .next s) ∧ (∀ n d b, exec (.controllerDone n d b) s = .next s) ∧
    exec .controllerRetry s = .next s) ∧
  (∀ s c, s.mgmt.ctl = some c → c.tries ≤ 7 →
    (c.retryWaiting = true → ∃ t, exec .controllerRetry s = .next t ∧ attempted s t (c.tries + 1) ∧ t = { s with mgmt := t.mgmt, out := t.out }) ∧
    (c.retryWaiting = false → exec .controllerRetry s = .next s) ∧
    (c.retryWaiting = false → ∀ k st, (st = if k = 0 then 0x0B03 else if k = 1 then 0x0B02 else 0x0B01) →
      (c.tries ≤ rf s R.MB_CFG F.MB_CFG.RETRIES → ∃ t, exec (.arbitrationLoss k) s = .next t ∧ ctrUp s t 0xB00150 1 ∧ ctrKept s t [0xB00150] ∧
        t = { s with ctr := t.ctr, mgmt := { s.mgmt with ctl := some ⟨c.tries, st, true⟩ } }) ∧
      (rf s R.MB_CFG F.MB_CFG.RETRIES < c.tries → ∃ t, exec (.arbitrationLoss k) s = .next t ∧ ctrUp s t 0xB00150 1 ∧
        ctlEnded s t st c.tries false false 0)) ∧
    (c.retryWaiting = false → ∀ data bad, data.length ≤ 32 →
      (∃ t, exec (.controllerDone 0 data bad) s = .next t ∧
        ctlEnded s t 0 c.tries false (bad && rb s R.MB_CTL_CMD F.MB_CTL_CMD.PEC) data.length ∧
        (((List.range 8).map (fun i => bytesLE 4 (rd t (R.MB_CTL_DATA_i i)).toNat)).flatten).take data.length = data) ∧
      (c.tries ≤ rf s R.MB_CFG F.MB_CFG.RETRIES → exec (.controllerDone 1 data bad) s =
        .next { s with mgmt := { s.mgmt with ctl := some ⟨c.tries, 0x0B04, true⟩ } }) ∧
      (rf s R.MB_CFG F.MB_CFG.RETRIES < c.tries → ∃ t, exec (.controllerDone 1 data bad) s = .next t ∧ ctlEnded s t 0x0B04 c.tries false false 0) ∧
      (∃ t, exec (.controllerDone 2 data bad) s = .next t ∧ ctlEnded s t 0x0B05 c.tries false false data.length) ∧
      (∃ t, exec (.controllerDone 3 data bad) s = .next t ∧ ctrUp s t 0xB00128 1 ∧ ctlEnded s t 0x0B05 c.tries true false data.length))) ∧
  (∀ s, s.boot.supplies = true → s.pwr.phase = .awake →
    (s.mgmt.ctl = none → exec .sclTimeout s = .next (bump s 0xB00128)) ∧
    (∀ c, s.mgmt.ctl = some c → c.tries ≤ 7 → c.retryWaiting = false → ∃ t, exec .sclTimeout s = .next t ∧ ctrUp s t 0xB00128 1 ∧
      ctlEnded s t 0x0B05 c.tries true false 0)) ∧
  (∀ s, s.boot.supplies = false → exec .sclTimeout s = .next s ∧ ∀ r, exec (.addressMatch r) s = .next s) ∧
  (∀ s r, listens s → exec (.addressMatch r) s = .next (latchWake s 2)) ∧
  (∀ s r tg forced, s.boot.supplies = true → s.pwr.phase = .asleep tg forced → ∃ t, exec (.addressMatch r) s = .next t ∧
    t.pwr.phase = .exiting tg 2 false forced ∧ t.pwr.exitFrom = s.clk.now ∧ ctrUp s t 0xB00120 1 ∧
    (isSet s R.MB_CFG F.MB_CFG.SLEEP_MODE → t.pwr.leftFor = tg ∧ ctrKept s t [0xB00120]) ∧
    (isClear s R.MB_CFG F.MB_CFG.SLEEP_MODE → ctrUp s t 0xB00118 1 ∧ t.pwr.leftFor = s.pwr.leftFor) ∧ t = { s with pwr := t.pwr, ctr := t.ctr }) ∧
  (∀ s, listens s → isSet s R.MB_CFG F.MB_CFG.HR_EN → hrSources s ≠ 0 →
    (Nat.land (hrSources s) s.mgmt.hrNew ≠ 0 ∨ rf s R.MB_HR_REPEAT F.MB_HR_REPEAT.MS ≠ 0 → ∃ t, exec .handRaiseDue s = .next t ∧
      isSet t R.MB_STATUS F.MB_STATUS.HR_PENDING ∧ regsKept s t [R.MB_STATUS] ∧ t = { s with regs := t.regs }) ∧
    (isSet s R.MB_STATUS F.MB_STATUS.HR_PENDING → s.mgmt.ctl = none →
      (∃ t u, exec .handRaise s = .next t ∧ traced u t ∧ u.mgmt = { s.mgmt with hrNew := 0 } ∧ u.out = s.out ++ [.twoWire 2 []] ∧
        isClear u R.MB_STATUS F.MB_STATUS.HR_PENDING ∧ ctrUp s u 0xB00130 1 ∧ ctrKept s u [0xB00130] ∧ regsKept s u [R.MB_STATUS] ∧
        u = { s with mgmt := u.mgmt, out := u.out, regs := u.regs, ctr := u.ctr }) ∧
      (∃ t, exec .handRaiseCollision s = .next t ∧ traced (bump s 0xB00138) t))) ∧
  (∀ s, (hrSources s = 0 ∨ isClear s R.MB_STATUS F.MB_STATUS.HR_PENDING ∨ s.mgmt.ctl ≠ none) →
    exec .handRaise s = .next s ∧ exec .handRaiseCollision s = .next s) ∧
  (∀ s, hrSources s = 0 → exec .handRaiseDue s = .next s) ∧
  (∀ s, s.boot.supplies = true → s.pwr.phase = .awake →
    (isSet s R.MB_CFG F.MB_CFG.CTL_EN → exec .handRaiseSeen s = .next (bump s 0xB00140)) ∧
    (isClear s R.MB_CFG F.MB_CFG.CTL_EN → exec .handRaiseSeen s = .next s)) ∧
  (∀ s v, hostOpen s → bootDone s = true →
    (fld v 0 0 = 1 → exec (.setHostAttention v) s = .next (attn s 8) ∧
      (s.boot.supplies = true → nbit (rd (attn s 8) R.MB_ATTENTION).toNat 8 = true)) ∧
    (fld v 0 0 = 0 → exec (.setHostAttention v) s = .next s))

/-- Caretaker: sources, cell, protections, harvester, case inputs, crystal, elapsed time and Logbook (R452 to R477, Tables 17.1, 17.3 to 17.5). -/
def Obligations.CaretakerEvents : Prop :=
  (∀ s, s.care.alive = false → (∀ a b c, exec (.sourceChange a b c) s = .next s) ∧ (∀ a b c, exec (.samplePeriod a b c) s = .next s) ∧
    (∀ a b, exec (.cellMeasure a b) s = .next s ∧ exec (.cellProtect a true b) s = .next s ∧ exec (.cellProtect a false b) s = .next s) ∧
    (∀ a b, exec (.caseSample a b) s = .next s) ∧ exec .ocClearTimer s = .next s ∧ exec .wakePin s = .next s ∧ exec .xtalFail s = .next s ∧
    exec .xtalRestore s = .next s ∧ exec .logbookAppend s = .next s ∧ exec .cellFull s = .next s) ∧
  (∀ s src mv pv, calm s →
    (src ≠ rf s R.KA_STATUS F.KA_STATUS.SOURCE → sourceOk s src pv = true → ∃ t, exec (.sourceChange src mv pv) s = .next t ∧
      rf t R.KA_STATUS F.KA_STATUS.SOURCE = src ∧ attended t 4 ∧ careOnly s t ∧
      newestOwn t 0x0002 ([BitVec.ofNat 8 src, BitVec.ofNat 8 (rf s R.KA_STATUS F.KA_STATUS.SOURCE)] ++ bytesLE 2 mv ++ bytesLE 2 pv)) ∧
    (src = rf s R.KA_STATUS F.KA_STATUS.SOURCE ∨ sourceOk s src pv = false → exec (.sourceChange src mv pv) s = .next s)) ∧
  (∀ s voc t16 na, calm s → voc ≤ 65535 → ∃ t, exec (.samplePeriod voc t16 na) s = .next t ∧ rf t R.KA_PV F.KA_PV.VOC_MV = voc ∧
    rf t R.KA_PV F.KA_PV.TARGET_MV = voc * max 70 (min 90 (rf s R.KA_CFG F.KA_CFG.FOCV_RATIO)) / 100 ∧
    rf t R.KA_TEMP F.KA_TEMP.CELL_T = wrapInt 16 t16 ∧ rf t R.KA_TEMP F.KA_TEMP.NTC_ABSENT = b2n na ∧
    regsKept s t [R.KA_PV, R.KA_TEMP] ∧ t = { s with regs := t.regs }) ∧
  (∀ s mv pv, calm s → mv ≤ 65535 → pv ≤ 65535 → ∃ t, exec (.cellMeasure mv pv) s = .next t ∧ careOnly s t ∧
    rf t R.KA_CELL_V F.KA_CELL_V.CELL_MV = mv ∧ rf t R.KA_CELL_V F.KA_CELL_V.PRI_MV = pv ∧ (mv < 4000 → kaIs t F.KA_STATUS.CELL_FULL false) ∧
    (s.care.uv = false → kaIs s F.KA_STATUS.CELL_CONNECTED true → mv ≤ 3000 →
      kaIs t F.KA_STATUS.CELL_CONNECTED false ∧ isSet t R.KA_PROT F.KA_PROT.UV ∧ t.care.uv = true ∧ kaIs t F.KA_STATUS.LOAD_EN false) ∧
    (s.care.uv = true → 3300 ≤ mv → kaIs t F.KA_STATUS.CELL_CONNECTED true ∧ t.care.uv = false) ∧
    (s.care.uv = true → mv < 3300 → t.care.uv = true ∧ kaIs t F.KA_STATUS.CELL_CONNECTED (kaBit s F.KA_STATUS.CELL_CONNECTED)) ∧
    (s.care.uv = false → 3000 < mv → kaIs t F.KA_STATUS.CELL_CONNECTED true ∧
      (s.care.oc = false → ocLatched s = false →
        (mv < 3400 → kaIs t F.KA_STATUS.LOAD_EN false) ∧ (3600 ≤ mv → kaIs t F.KA_STATUS.LOAD_EN true) ∧
        (3400 ≤ mv → mv < 3600 → kaIs t F.KA_STATUS.LOAD_EN (kaBit s F.KA_STATUS.LOAD_EN))) ∧
      (s.care.oc = true ∨ ocLatched s = true → kaIs t F.KA_STATUS.LOAD_EN false))) ∧
  (∀ s mv, calm s →
    (s.care.ov = false → 4200 ≤ mv → ∃ t, exec (.cellProtect 1 true mv) s = .next t ∧ t.care.ov = true ∧ isSet t R.KA_PROT F.KA_PROT.OV ∧
      attended t 4 ∧ careOnly s t) ∧
    (s.care.ov = true → mv ≤ 4050 → ∃ t, exec (.cellProtect 1 false mv) s = .next t ∧ t.care.ov = false ∧ attended t 4 ∧ careOnly s t) ∧
    (mv < 4200 ∨ s.care.ov = true → exec (.cellProtect 1 true mv) s = .next s) ∧
    (4050 < mv ∨ s.care.ov = false → exec (.cellProtect 1 false mv) s = .next s) ∧
    (s.care.oc = false → ocLatched s = false → ∃ t, exec (.cellProtect 3 true mv) s = .next t ∧ t.care.oc = true ∧
      isSet t R.KA_PROT F.KA_PROT.OC ∧ kaIs t F.KA_STATUS.LOAD_EN false ∧ careOnly s t ∧
      t.care.ocActs = s.care.ocActs.filter (fun a => s.clk.coarse.toNat < a + 1966080) ++ [s.clk.coarse.toNat] ∧
      (3 ≤ t.care.ocActs.length → ocLatched t = true) ∧ (t.care.ocActs.length < 3 → ocLatched t = false)) ∧
    (s.care.oc = true ∨ ocLatched s = true → exec (.cellProtect 3 true mv) s = .next s) ∧
    (s.care.tempInh = false → (cellT16 s < 0 ∨ 45 * 16 < cellT16 s) → ∃ t, exec (.cellProtect 5 true mv) s = .next t ∧ t.care.tempInh = true ∧
      isSet t R.KA_PROT F.KA_PROT.TEMP ∧ attended t 4 ∧ careOnly s t) ∧
    (s.care.tempInh = true → 32 ≤ cellT16 s → cellT16 s ≤ 43 * 16 → ∃ t, exec (.cellProtect 5 false mv) s = .next t ∧ t.care.tempInh = false ∧
      attended t 4 ∧ careOnly s t)) ∧
  (∀ s, calm s → s.care.oc = true → ocLatched s = false → ∃ t, exec .ocClearTimer s = .next t ∧ t.care.oc = false ∧ attended t 4 ∧ careOnly s t) ∧
  (∀ s, s.care.oc = false ∨ ocLatched s = true → exec .ocClearTimer s = .next s) ∧
  (∀ s, hostOpen s → bootDone s = true → calm s →
    (ocLatched s = true → ∃ t, exec .ocLatch s = .next t ∧ ocLatched t = false ∧ t.care.oc = false ∧ t.care.ocActs = [] ∧ careOnly s t) ∧
    (ocLatched s = false → exec .ocLatch s = .next s)) ∧
  (∀ s, (calm s → charging s = true → ∃ t, exec .cellFull s = .next t ∧ kaIs t F.KA_STATUS.CELL_FULL true ∧ regsKept s t [R.KA_STATUS] ∧
      t = { s with regs := t.regs }) ∧ (charging s = false → exec .cellFull s = .next s)) ∧
  (∀ s a b d0 d1 n0 n1, calm s → d0 = debounce s.care.deb0 a → d1 = debounce s.care.deb1 b →
    n0 = (if d0.2 = 4 then d0.1 else kaBit s F.KA_STATUS.CASE_0) → n1 = (if d1.2 = 4 then d1.1 else kaBit s F.KA_STATUS.CASE_1) →
    ∃ t, exec (.caseSample a b) s = .next t ∧ t.care = { s.care with deb0 := d0, deb1 := d1 } ∧ kaIs t F.KA_STATUS.CASE_0 n0 ∧
      kaIs t F.KA_STATUS.CASE_1 n1 ∧
      (n0 = kaBit s F.KA_STATUS.CASE_0 → n1 = kaBit s F.KA_STATUS.CASE_1 → t = { s with care := t.care }) ∧
      (n0 ≠ kaBit s F.KA_STATUS.CASE_0 ∨ n1 ≠ kaBit s F.KA_STATUS.CASE_1 → attended t 5 ∧ careOnly s t ∧
        newestOwn t 0x0006 [BitVec.ofNat 8 (b2n (kaBit s F.KA_STATUS.CASE_0) + 2 * b2n (kaBit s F.KA_STATUS.CASE_1)),
          BitVec.ofNat 8 (b2n n0 + 2 * b2n n1)])) ∧
  (∀ s, calm s → exec .wakePin s = .next (logK s 0x0007 [BitVec.ofNat 8 (if s.boot.supplies then powerCode s else 4)])) ∧
  (∀ s, calm s → (kaIs s F.KA_STATUS.XTAL_FAIL false → ∃ t, exec .xtalFail s = .next t ∧ kaIs t F.KA_STATUS.XTAL_FAIL true ∧ newestOwn t 0x0008 [1] ∧
      regsKept s t [R.KA_STATUS] ∧ t = { s with regs := t.regs, log := t.log }) ∧
    (kaIs s F.KA_STATUS.XTAL_FAIL true → exec .xtalFail s = .next s ∧ ∃ t, exec .xtalRestore s = .next t ∧ kaIs t F.KA_STATUS.XTAL_FAIL false ∧
      newestOwn t 0x0008 [0] ∧ regsKept s t [R.KA_STATUS] ∧ t = { s with regs := t.regs, log := t.log }) ∧
    (kaIs s F.KA_STATUS.XTAL_FAIL false → exec .xtalRestore s = .next s)) ∧
  (∀ s rs, calm s → rs = s.log.own ++ s.log.cross.take 8 → s.log.recs.length ≤ 2048 → s.log.nextSeq < 65536 →
    ∃ t, exec .logbookAppend s = .next t ∧ t.log.own = [] ∧ t.log.cross = s.log.cross.drop 8 ∧ t.log.nextSeq = (s.log.nextSeq + rs.length) % 65536 ∧
      t.log.recs.length = min 2048 (s.log.recs.length + rs.length) ∧ t.log.recs.drop rs.length = s.log.recs.take (2048 - rs.length) ∧
      (∀ b ∈ t.log.recs.take rs.length, b.length = 32 ∧ b[31]? = some (crc8 0 (b.take 31))) ∧ memKept s t (inTrace s) ∧
      (∀ r, rs = [r] → (t.log.recs.head?).map (fun b => (b.take 2, (b.drop 2).take 2, (b.drop 4).take 6, (b.drop 22).take 8)) =
        some (bytesLE 2 r.event, bytesLE 2 s.clk.epoch.toNat, bytesLE 6 s.clk.coarse.toNat, (r.detail ++ List.replicate 8 0).take 8))) ∧
  (∀ s bs, hostOpen s → s.care.alive = true → bs = (s.log.recs[rf s R.KA_LOG_SELECT F.KA_LOG_SELECT.INDEX]?).getD (List.replicate 32 0) →
    ∃ t, exec .kaLogDataRead s = .next t ∧ rf t R.KA_LOG_SELECT F.KA_LOG_SELECT.INDEX = (rf s R.KA_LOG_SELECT F.KA_LOG_SELECT.INDEX + 1) % 2048 ∧
      (∀ k, k < 8 → rd t (R.KA_LOG_DATA_i k) = BitVec.ofNat 32 (ofBytesLE ((bs.drop (4 * k)).take 4))) ∧
      t.out = s.out ++ [.readData (bytesLE 4 (ofBytesLE (bs.take 4)))] ∧ t = { s with regs := t.regs, out := t.out }) ∧
  (∀ s, ∃ t, exec .vkaCollapse s = .next t ∧ t.care.alive = false ∧ t.log.recs = [] ∧ t.log.nextSeq = 0 ∧ t.care.slot0 = s.care.slot0 ∧
    t.care.slot1 = s.care.slot1 ∧ t.clk.coarse = 0 ∧ (∀ k, 0xC00000 ≤ k → k < 0xD00000 → rd t k = regReset k) ∧
    (∀ k, (k < 0xC00000 ∨ 0xD00000 ≤ k) → rd t k = rd s k) ∧ t.mem = s.mem ∧ t.fns = s.fns) ∧
  (∀ s src mv e, s.care.alive = false → src ≤ 3 →
    (e = match s.care.slot0.2, s.care.slot1.2 with
      | true, true => if 1 ≤ (s.care.slot1.1 + 65536 - s.care.slot0.1) % 65536 ∧ (s.care.slot1.1 + 65536 - s.care.slot0.1) % 65536 ≤ 32767
          then (s.care.slot1.1 + 1) % 65536 else (s.care.slot0.1 + 1) % 65536
      | true, false => (s.care.slot0.1 + 1) % 65536
      | false, true => (s.care.slot1.1 + 1) % 65536
      | false, false => 1) →
    ∃ t, exec (.coldStart src mv) s = .next t ∧ t.care.alive = true ∧ t.clk.epoch = BitVec.ofNat 16 e ∧ t.clk.coarse = 0 ∧
      rf t R.KA_STATUS F.KA_STATUS.SOURCE = src ∧ t.log.recs.length = 1 ∧ t.log.nextSeq = 1 ∧
      (t.care.slot0 = (e, true) ∨ t.care.slot1 = (e, true)) ∧ (t.care.slot0 = s.care.slot0 ∨ t.care.slot1 = s.care.slot1) ∧
      memKept s t (inTrace s)) ∧
  (∀ s a b, s.care.alive = true → exec (.coldStart a b) s = .next s)

/-- The core rail, its phases, droop, telemetry, control step and trips (R478 to R500, Tables 18.1, 18.3 to 18.5). -/
def Obligations.RailAndLoops : Prop :=
  (∀ s, vrState s = 1 → ∃ t, exec .softStartDone s = .next t ∧ vrState t = 2 ∧ t.rail = { s.rail with ackMv := 750, riseAt := some s.clk.now } ∧
    rf t R.VR_STATUS F.VR_STATUS.SWITCHING = goodMask s) ∧
  (∀ s, vrState s ≠ 1 → exec .softStartDone s = .next s) ∧
  (∀ s n, vrState s = 2 → isSet s R.VR_CFG F.VR_CFG.SHED_EN →
    (n < 8 → nbit (chosen s) n = false → phaseLost s n = false → (∀ k, k < n → nbit (chosen s) k = true ∨ phaseLost s k = true) →
      ∃ t, exec .phaseAdd s = .next t ∧ rf t R.VR_STATUS F.VR_STATUS.SWITCHING = chosen s + 2 ^ n ∧ regsKept s t [R.VR_STATUS] ∧
        vrState t = 2 ∧ t = { s with regs := t.regs }) ∧
    ((∀ k, k < 8 → nbit (chosen s) k = true ∨ phaseLost s k = true) → exec .phaseAdd s = .next s)) ∧
  (∀ s on, on = (List.range 8).filter (nbit (chosen s)) →
    (vrState s = 2 → isSet s R.VR_CFG F.VR_CFG.SHED_EN → railRising s = false → afterRise s = false → 2 < on.length → ∀ n, on.getLast? = some n →
      ∃ t, exec .phaseShed s = .next t ∧ rf t R.VR_STATUS F.VR_STATUS.SWITCHING = chosen s - 2 ^ n ∧ regsKept s t [R.VR_STATUS] ∧
        vrState t = 2 ∧ t = { s with regs := t.regs }) ∧
    (vrState s ≠ 2 ∨ isClear s R.VR_CFG F.VR_CFG.SHED_EN ∨ railRising s = true ∨ afterRise s = true ∨ on.length ≤ 2 → exec .phaseShed s = .next s)) ∧
  (∀ s, (2 ≤ vrState s → ∃ t, exec .railAck s = .next t ∧ t.rail = { s.rail with
        ackMv := railTarget s, riseAt := if railRising s then some s.clk.now else s.rail.riseAt } ∧ vrState t = vrState s ∧
      (railRising s = true → rf t R.VR_STATUS F.VR_STATUS.SWITCHING = goodMask s) ∧ memKept s t (inTrace s)) ∧
    (vrState s < 2 → exec .railAck s = .next s)) ∧
  (∀ s n, calm s → 2 ≤ vrState s → n < 8 → nbit (switchingMask s) n = true →
    (∃ t, exec (.phaseOpen n) s = .next t ∧ phaseFound s t n F.VR_PHASE_FAULT.OPEN 0xE00218 ∧
      (lossCount s < 3 → t.pwr.phase = .awake ∧ vrState t = vrState s ∧
        t.rail.lossL = max s.rail.lossL (lossCount s + b2n (!phaseLost s n)) ∧ attended t 2) ∧
      (lossCount s = 3 → phaseLost s n = false → sleepForced t)) ∧
    (∀ a b, nbit (rf s R.VR_PHASE_FAULT F.VR_PHASE_FAULT.SENSE) n = false → ∃ t, exec (.senseFail n a b) s = .next t ∧
      phaseFound s t n F.VR_PHASE_FAULT.SENSE 0xE00220 ∧
      (lossCount s < 3 → t.pwr.phase = .awake ∧ vrState t = vrState s ∧
        t.rail.lossL = max s.rail.lossL (lossCount s + b2n (!phaseLost s n)) ∧ attended t 2) ∧
      (lossCount s = 3 → phaseLost s n = false → sleepForced t))) ∧
  (∀ s n, vrState s < 2 ∨ 8 ≤ n ∨ nbit (switchingMask s) n = false → exec (.phaseOpen n) s = .next s ∧ ∀ a b, exec (.senseFail n a b) s = .next s) ∧
  (∀ s v pass m, hostOpen s → bootDone s = true → m = Nat.land (fld v 7 0) (lostMask s) →
    (m = 0 → exec (.phaseRetry v pass) s = .next s) ∧
    (m ≠ 0 → ∃ t u, exec (.phaseRetry v pass) s = .next t ∧ traced u t ∧ newestCross u 0x1003 [BitVec.ofNat 8 m, BitVec.ofNat 8 (m - Nat.land m pass)] ∧
      regsKept s u [R.VR_PHASE_FAULT, R.VR_STATUS] ∧ u = { s with regs := u.regs, log := u.log } ∧
      (∀ n, n < 8 → (nbit m n = true → nbit pass n = true → phaseLost u n = false ∧ nbit (rf u R.VR_STATUS F.VR_STATUS.SWITCHING) n = true) ∧
        (nbit m n = false ∨ nbit pass n = false → phaseLost u n = phaseLost s n)))) ∧
  (∀ s a, (s.boot.supplies = true → s.rail.tmonLimit ≠ a → ∃ t, exec (.tmonWarn a) s = .next t ∧ t.rail = { s.rail with tmonLimit := a } ∧
      newestCross t 0x1008 (bytesLE 1 (b2n a) ++ bytesLE 2 (rf s R.VR_TMON F.VR_TMON.TEMP)) ∧ memKept s t (inTrace s)) ∧
    (s.boot.supplies = false ∨ s.rail.tmonLimit = a → exec (.tmonWarn a) s = .next s)) ∧
  (∀ s i, (s.boot.supplies = true → droopIsland i = true → ¬ i ∈ s.rail.stretched → ∃ t u, exec (.droop i) s = .next t ∧ traced u t ∧
      u.rail = { s.rail with stretched := s.rail.stretched ++ [i] } ∧ ctrUp s u 0xE00208 1 ∧ ctrKept s u [0xE00208] ∧
      u = { s with rail := u.rail, ctr := u.ctr }) ∧
    (i ∈ s.rail.stretched ∨ droopIsland i = false → exec (.droop i) s = .next s) ∧
    exec (.droopRecovery i) s = .next { s with rail := { s.rail with stretched := s.rail.stretched.filter (· != i) } } ∧
    (i ∈ s.rail.stretched → exec (.droopFault i) s = .next (deviceFault (logX s 0x1005 (if i < 8 then 1 else i) 0xFF [BitVec.ofNat 8 i]) 6 i i 0)) ∧
    (¬ i ∈ s.rail.stretched → exec (.droopFault i) s = .next s)) ∧
  (∀ s mv is t16, s.boot.supplies = true → mv ≤ 1023 → (∀ x ∈ is, x ≤ 511) → is.length = 8 → ∃ t, exec (.telemetryUpdate mv is t16) s = .next t ∧
    rf t R.VR_VOLTAGE F.VR_VOLTAGE.MEAS_MV = mv ∧ rf t R.VR_TOTAL_I F.VR_TOTAL_I.CURRENT = min 4095 is.sum ∧
    (∀ n x, is[n]? = some x → rf t (R.VR_PHASE_n_I n) F.VR_PHASE_n_I.CURRENT = x) ∧ rf t R.VR_TMON F.VR_TMON.TEMP = wrapInt 16 t16 ∧
    rf t R.PM_POWER_STATUS F.PM_POWER_STATUS.P_INST = min 65535 ((mv * min 4095 is.sum + otherW s * 10000) / 1000) ∧
    t.rail.energy = (s.rail.energy + (mv * min 4095 is.sum + otherW s * 10000)) % 1000000 ∧
    ctrUp s t 0xE00200 ((s.rail.energy + (mv * min 4095 is.sum + otherW s * 10000)) / 1000000) ∧
    t = { s with regs := t.regs, rail := t.rail, ctr := t.ctr }) ∧
  (∀ s, s.boot.supplies = false → (∀ a b c, exec (.telemetryUpdate a b c) s = .next s) ∧ (∀ a b c d, exec (.controlStep a b c d) s = .next s) ∧
    ∀ a b, exec (.thermalTrip a b) s = .next s) ∧
  (∀ s tCl tFab tCtl cl h e integ ab as, s.boot.supplies = true → s.pwr.phase = .awake → s.pwr.round = none → h = hottest tCl tFab tCtl cl →
    e = h.1 - ((16 * setC s : Nat) : Int) → integ = clampInt 0 (1200 * 4096) (s.rail.integ + (rf s R.PM_THERM_GAIN F.PM_THERM_GAIN.KI : Nat) * e) →
    ab = s.rail.avgB + ((powerNow s : Rat) / 10000 - s.rail.avgB) / 100 →
    as = s.rail.avgS + ((powerNow s : Rat) / 10000 - s.rail.avgS) / (10 * (tauMs s : Rat)) →
    ∃ t, exec (.controlStep tCl tFab tCtl cl) s = .next t ∧ t.rail.integ = integ.toNat ∧ t.rail.avgB = ab ∧ t.rail.avgS = as ∧
      t.rail.lossL = lossCount s ∧ t.rail.tCluster = tCl ∧ t.rail.tFabric = tFab ∧ t.rail.tControl = tCtl ∧
      rf t R.PM_THERM_STATUS F.PM_THERM_STATUS.T_HOT = wrapInt 16 h.1 ∧ rf t R.PM_THERM_STATUS F.PM_THERM_STATUS.SENSOR = h.2 ∧
      ((rf t R.PM_CEILINGS F.PM_CEILINGS.THERMAL : Nat) : Int) = clampInt 0 48
        ((1200 * 4096 - max 0 ((rf s R.PM_THERM_GAIN F.PM_THERM_GAIN.KP : Nat) * e + integ)) / (25 * 4096)) ∧
      ((burstW s : Rat) < ab ∨ (sustW s : Rat) < as → rf t R.PM_CEILINGS F.PM_CEILINGS.POWER = ceilP s - 1) ∧
      (ab < (burstW s : Rat) - 2 → as < (sustW s : Rat) - 2 → 10 ≤ s.rail.sinceRise →
        rf t R.PM_CEILINGS F.PM_CEILINGS.POWER = min (ceilP s + 1) 48 ∧ t.rail.sinceRise = 1) ∧
      (ab ≤ burstW s → as ≤ sustW s → ((burstW s : Rat) - 2 ≤ ab ∨ (sustW s : Rat) - 2 ≤ as ∨ s.rail.sinceRise < 10) →
        rf t R.PM_CEILINGS F.PM_CEILINGS.POWER = ceilP s) ∧ memKept s t (inTrace s)) ∧
  (∀ s n t16, s.boot.supplies = true → (∀ tg forced, s.pwr.phase ≠ .asleep tg forced) →
    (((16 * tripC s : Nat) : Int) ≤ t16 → n < 32 → ∃ t, exec (.thermalTrip n t16) s = .next t ∧ sleepForced t ∧
      rf t R.PM_THERM_STATUS F.PM_THERM_STATUS.T_HOT = wrapInt 16 t16 ∧ rf t R.PM_THERM_STATUS F.PM_THERM_STATUS.SENSOR = n) ∧
    (t16 < ((16 * tripC s : Nat) : Int) → exec (.thermalTrip n t16) s = .next s))

/-- Roll calls, entries, wakes and exits (R501 to R504, R508 to R525, Tables 19.3 to 19.8). -/
def Obligations.RollCallsAndSleep : Prop :=
  rcTakes .rcAsk 0x30 (fun v m t =>
    (isCoord v = false ∨ ¬ awake v → t = v) ∧
    (isCoord v = true → awake v → v.pwr.round ≠ none → t = { v with pwr := { v.pwr with asks := v.pwr.asks ++ [(mSrc m, rcTarget m)] } }) ∧
    (isCoord v = true → awake v → v.pwr.round = none → v.pwr.asks = [] → declineReason v (rcTarget m) = none → otherMembers v ≠ [] →
      t.pwr.round = some (rcTarget m, true) ∧ t.pwr.leader = v.boot.podId ∧ t.pwr.waitFor = otherMembers v ∧ roundNow t = (roundNow v + 1) % 65536 ∧ ctrUp v t 0xE00380 1)) ∧
  rcTakes .rcPropose 0x31 (fun v m t =>
    (leadsRound v = true ∨ (∃ tg, v.pwr.round = some (tg, true) ∧ rcRound m ≠ roundNow v) ∨ ¬ awake v → t = bump v 0xE003C0) ∧
    (leadsRound v = false → (∀ tg, v.pwr.round = some (tg, true) → rcRound m = roundNow v) → awake v → roundNow t = rcRound m ∧
      (declineReason v (rcTarget m) = none → t.pwr = { v.pwr with round := some (rcTarget m, true), leader := mSrc m }) ∧
      (declineReason v (rcTarget m) ≠ none → t.pwr = { v.pwr with round := some (rcTarget m, false), leader := mSrc m } ∧
        ctrUp v t 0xE00398 1))) ∧
  rcTakes .rcAccept 0x32 (fun v m t =>
    (coordsRound v m = false → t = bump v 0xE003C0) ∧
    (coordsRound v m = true → (∃ d ∈ v.pwr.waitFor, d ≠ mSrc m) →
      t = { v with pwr := { v.pwr with waitFor := v.pwr.waitFor.filter (· != mSrc m) } }) ∧
    (coordsRound v m = true → (∀ d ∈ v.pwr.waitFor, d = mSrc m) → ∀ tg b, v.pwr.round = some (tg, b) → committed v t tg (roundNow v))) ∧
  rcTakes .rcDecline 0x33 (fun v m t =>
    (coordsRound v m = false → t = bump v 0xE003C0) ∧ (coordsRound v m = true → v.pwr.asks.tail = [] → roundOver v t)) ∧
  rcTakes .rcWithdraw 0x34 (fun v m t =>
    (coordsRound v m = false → t = bump v 0xE003C0) ∧ (coordsRound v m = true → v.pwr.asks.tail = [] → roundOver v t)) ∧
  rcTakes .rcVerdict 0x35 (fun v m t =>
    (v.pwr.round = none ∨ rcRound m ≠ roundNow v ∨ leadsRound v = true ∨ ¬ awake v → t = bump v 0xE003C0) ∧
    (∀ tg b, v.pwr.round = some (tg, b) → rcRound m = roundNow v → leadsRound v = false → awake v →
      (nbit (mByte m 9) 0 = true → committed v t tg (rcRound m)) ∧ (nbit (mByte m 9) 0 = false → roundOver v t))) ∧
  rcTakes .rcWake 0x36 (fun v _ t =>
    (awake v → v.pwr.round = none → t = v) ∧
    (∀ tg, awake v → v.pwr.round = some (tg, true) → v.pwr.wake = none → t = { v with pwr := { v.pwr with wake := some 1 } }) ∧
    (∀ tg f, v.pwr.phase = .asleep tg f → t = { v with pwr := { v.pwr with phase := .exiting tg 1 false f, exitFrom := v.clk.now } }) ∧
    (∀ tg f, v.pwr.phase = .entering tg f → t.pwr.phase = .entering tg f ∧ t.pwr.wake = some (v.pwr.wake.getD 1))) ∧
  (∀ s src, s.boot.supplies = true → sourceStands s src = true →
    (∀ tg f, s.pwr.phase = .asleep tg f →
      exec (.wakeSource src) s = .next { s with pwr := { s.pwr with phase := .exiting tg src false f, exitFrom := s.clk.now } }) ∧
    (∀ tg, s.pwr.phase = .entering tg false → ∃ t, exec (.wakeSource src) s = .next t ∧ ctrUp s t 0xE003A8 1 ∧ ctrKept s t [0xE003A8] ∧
      t = { s with pwr := { s.pwr with wake := some (s.pwr.wake.getD src) }, ctr := t.ctr }) ∧
    (awake s → s.pwr.round = none → exec (.wakeSource src) s = .next s) ∧
    (awake s → src ≠ 1 → leadsRound s = true → s.pwr.asks.tail = [] →
      ∃ t, exec (.wakeSource src) s = .next t ∧ roundOver s t) ∧
    (∀ tg, awake s → s.pwr.round = some (tg, true) → src ≠ 1 → leadsRound s = false → (s.pwr.wake = none ∨ s.pwr.wake = some 1) →
      ∃ t, exec (.wakeSource src) s = .next t ∧ t.pwr = { s.pwr with wake := some src } ∧ ctrUp s t 0xE003A0 1)) ∧
  (∀ s src, s.boot.supplies = false ∨ sourceStands s src = false → exec (.wakeSource src) s = .next s) ∧
  (∀ s p, (∀ tg f, p < 3 → (getPort s p).parked = true → s.pwr.phase = .asleep tg f →
      exec (.linkActivity p) s = .next { s with pwr := { s.pwr with phase := .exiting tg 1 false f, exitFrom := s.clk.now } }) ∧
    (3 ≤ p ∨ (getPort s p).parked = false → exec (.linkActivity p) s = .next s)) ∧
  (∀ s, (leadsRound s = true → awake s → s.pwr.waitFor ≠ [] → s.pwr.asks.tail = [] →
      ∃ t, exec .rollCallTimeout s = .next t ∧ roundOver s t) ∧
    (leadsRound s = false ∨ ¬ awake s ∨ s.pwr.waitFor = [] → exec .rollCallTimeout s = .next s)) ∧
  (∀ s, (∀ tg, leadsRound s = false → awake s → s.pwr.round = some (tg, true) →
      ∃ t, exec .verdictTimeout s = .next t ∧ t.pwr = { s.pwr with round := none, wake := none } ∧ ctrUp s t 0xE00390 1) ∧
    (leadsRound s = true ∨ ¬ awake s ∨ (∀ tg, s.pwr.round ≠ some (tg, true)) → exec .verdictTimeout s = .next s)) ∧
  (∀ s, (∀ q, awake s → s.pwr.reqs.find? (fun q => q.asked && !q.committed && !queuedHere s q) = some q →
      ∃ v, exec .askTimeout s = .next (settleFn v 0) ∧ v.pwr = { s.pwr with reqs := s.pwr.reqs.erase q } ∧
        ∀ k, getPkt s 0 q.pos = some k → k.phase ≠ .complete → ended v 0 q.pos St.DONE 1) ∧
    (¬ awake s ∨ (∀ q ∈ s.pwr.reqs, (q.asked && !q.committed && !queuedHere s q) = false) → exec .askTimeout s = .next s)) ∧
  (∀ s tg f, s.pwr.phase = .entering tg f →
    (entryReady s f = false → exec .sleepEntryDone s = .next s) ∧
    (entryReady s f = true → ∃ t, exec .sleepEntryDone s = .next t ∧ t.clk.fineRun = false ∧ (∀ n, n < 16 → clusterSt t n = .stopped) ∧
      ctrUp s t (if tg = 3 then 0xE003B8 else 0xE003B0) 1 ∧ (tg = 3 → vrState t = 0) ∧
      t.pcie.link = (if s.pcie.aspmL1 then (if s.pcie.aspmL12 then .l12 else .l1) else s.pcie.link) ∧
      (∀ src, s.pwr.wake = some src → t.pwr.phase = .exiting tg src true f) ∧
      (s.pwr.wake = none → (∀ p, p < 3 → portState s p = 0 ∨ portState s p = 1 ∨ (f = false ∧ (portState s p = 3 ∨ portState s p = 5))) →
        t.pwr.phase = .asleep tg f ∧
        ∀ p, p < 3 → portState t p = portState s p ∧ ((portState s p = 3 ∨ portState s p = 5) → (getPort t p).parked = true)))) ∧
  (∀ s, (∀ tg f, s.pwr.phase ≠ .entering tg f) → exec .sleepEntryDone s = .next s) ∧
  (∀ s found t16 n left src l f, s.pwr.phase = .exiting left src l f →
    (4 ≤ stillLost s found ∨ ((16 * (tripC s - 10) : Nat) : Int) ≤ t16 → ∃ t, exec (.exitDone found t16 n) s = .next t ∧ sleepForced t) ∧
    (stillLost s found < 4 → t16 < ((16 * (tripC s - 10) : Nat) : Int) → s.heldTlps = [] → s.waiting = [] → s.pwr.reqs = [] → s.pwr.round = none →
      (∀ p, p < 3 → (getPort s p).parked = false) →
      ∃ t, exec (.exitDone found t16 n) s = .next t ∧ awake t ∧ t.pwr.wake = none ∧ vrState t = 2 ∧ t.islands = [] ∧ t.clk.fineRun = true ∧ t.pcie.link = .l0 ∧
        rf t R.PM_LAST_WAKE F.PM_LAST_WAKE.SOURCE = src % 8 ∧ rf t R.PM_LAST_WAKE F.PM_LAST_WAKE.LATCHED = b2n l ∧
        ∀ p, p < 3 → f = true → portState s p = 1 → isSet s (R.BL_LINK_n_CTRL p) F.BL_LINK_n_CTRL.EN → portState t p = 2)) ∧
  (∀ s, (∀ left src l f, s.pwr.phase ≠ .exiting left src l f) → ∀ a b c, exec (.exitDone a b c) s = .next s)

/-- A step takes the command at the front of the queue and is exec of it on the state with the queue's rest; on an empty queue 10 ns pass
(the model's choice, log entry 5). -/
def Obligations.StepRunsFront : Prop :=
  (∀ s c rest, s.pending = c :: rest → step s = exec c { s with pending := rest }) ∧
  (∀ s, s.pending = [] → ∃ t, step s = .next t ∧ ticked s t)

/-- The state after reset, where the spec gives its values (Tables 3.11, 19.1, 21.6; R2, R456, R471, R506). -/
def Obligations.ResetState : Prop :=
  State.reset.pending = [] ∧ (∀ k, rd State.reset k = regReset k ∧ inForce State.reset k = regReset k) ∧
  (∀ k, ctrGet State.reset k = 0) ∧ State.reset.dirty = [] ∧
  State.reset.fns = [] ∧ State.reset.tt.jobs = [] ∧ State.reset.progs = [] ∧ State.reset.vfs = 0 ∧ State.reset.boot.supplies = false ∧
  State.reset.boot.cfgReady = false ∧ bootDone State.reset = false ∧ vrState State.reset = 0 ∧ awake State.reset ∧
  (∀ n, n < 16 → clusterSt State.reset n = .stopped) ∧ (∀ p, p < 3 → portState State.reset p = 1) ∧
  State.reset.care.alive = true ∧ State.reset.clk.epoch = 1 ∧ State.reset.log.recs.length = 1 ∧
  rf State.reset R.PM_CLUSTER_STOP_DELAY F.PM_CLUSTER_STOP_DELAY.US = 2000 ∧ kept State.reset

/-- Every command of every state answers a next state, and every step keeps memory, registers and counters in their canonical forms, every
counter within its 64 bits, the straps legal, and the queue but for the command it takes. -/
def Obligations.EveryStepKeepsForm : Prop :=
  ∀ s, kept s → ∃ t, step s = .next t ∧ kept t ∧ t.pending = s.pending.tail

/-- Once the lock fuse is blown no step of the device changes the digest slot; a further start is ignored, sets PROG_FAIL and writes a
Logbook record (R68). -/
def Obligations.LockedSlotStays : Prop :=
  (∀ s t, slotLocked s → step s = .next t → slotLocked t ∧ t.boot.otp = s.boot.otp) ∧
  (∀ s v, hostOpen s → bootDone s = true → v.getLsbD 0 = true → s.boot.otpLocked = true →
    ∃ t, exec (.otpProgram v) s = .next t ∧ isSet t R.CP_OTP_STATUS F.CP_OTP_STATUS.PROG_FAIL ∧ t.boot = s.boot ∧
      newestCross t 0x0106 [2] ∧ t = { s with regs := t.regs, log := t.log })
end

