-- ==== Sys2Proof/Laws/State.lean ====
section
/-! SUPPORT. What the named updates leave of a state: one lemma per field and update, all true by unfolding. -/

namespace Sys2Proof.Machine

variable (s : State)

@[simp] theorem wr_pending (k : Nat) (v : W32) : (wr s k v).pending = s.pending := rfl
@[simp] theorem wr_clk (k : Nat) (v : W32) : (wr s k v).clk = s.clk := rfl
@[simp] theorem wr_force (k : Nat) (v : W32) : (wr s k v).force = s.force := rfl
@[simp] theorem wr_dirty (k : Nat) (v : W32) : (wr s k v).dirty = s.dirty := rfl
@[simp] theorem wr_hostLatch (k : Nat) (v : W32) : (wr s k v).hostLatch = s.hostLatch := rfl
@[simp] theorem wr_mgmtLatch (k : Nat) (v : W32) : (wr s k v).mgmtLatch = s.mgmtLatch := rfl
@[simp] theorem wr_ctr (k : Nat) (v : W32) : (wr s k v).ctr = s.ctr := rfl
@[simp] theorem wr_mem (k : Nat) (v : W32) : (wr s k v).mem = s.mem := rfl
@[simp] theorem wr_hmem (k : Nat) (v : W32) : (wr s k v).hmem = s.hmem := rfl
@[simp] theorem wr_freeCtr (k : Nat) (v : W32) : (wr s k v).freeCtr = s.freeCtr := rfl
@[simp] theorem wr_fns (k : Nat) (v : W32) : (wr s k v).fns = s.fns := rfl
@[simp] theorem wr_tt (k : Nat) (v : W32) : (wr s k v).tt = s.tt := rfl
@[simp] theorem wr_progs (k : Nat) (v : W32) : (wr s k v).progs = s.progs := rfl
@[simp] theorem wr_xl (k : Nat) (v : W32) : (wr s k v).xl = s.xl := rfl
@[simp] theorem wr_cache (k : Nat) (v : W32) : (wr s k v).cache = s.cache := rfl
@[simp] theorem wr_eng (k : Nat) (v : W32) : (wr s k v).eng = s.eng := rfl
@[simp] theorem wr_boot (k : Nat) (v : W32) : (wr s k v).boot = s.boot := rfl
@[simp] theorem wr_log (k : Nat) (v : W32) : (wr s k v).log = s.log := rfl
@[simp] theorem wr_trace (k : Nat) (v : W32) : (wr s k v).trace = s.trace := rfl
@[simp] theorem wr_vfs (k : Nat) (v : W32) : (wr s k v).vfs = s.vfs := rfl
@[simp] theorem wr_priEn (k : Nat) (v : W32) : (wr s k v).priEn = s.priEn := rfl
@[simp] theorem wr_priAlloc (k : Nat) (v : W32) : (wr s k v).priAlloc = s.priAlloc := rfl
@[simp] theorem wr_islands (k : Nat) (v : W32) : (wr s k v).islands = s.islands := rfl
@[simp] theorem wr_link (k : Nat) (v : W32) : (wr s k v).link = s.link := rfl
@[simp] theorem wr_waves (k : Nat) (v : W32) : (wr s k v).waves = s.waves := rfl
@[simp] theorem wr_groups (k : Nat) (v : W32) : (wr s k v).groups = s.groups := rfl
@[simp] theorem wr_tmsgs (k : Nat) (v : W32) : (wr s k v).tmsgs = s.tmsgs := rfl
@[simp] theorem wr_shOps (k : Nat) (v : W32) : (wr s k v).shOps = s.shOps := rfl
@[simp] theorem wr_rend (k : Nat) (v : W32) : (wr s k v).rend = s.rend := rfl
@[simp] theorem wr_disp (k : Nat) (v : W32) : (wr s k v).disp = s.disp := rfl
@[simp] theorem wr_care (k : Nat) (v : W32) : (wr s k v).care = s.care := rfl
@[simp] theorem wr_mgmt (k : Nat) (v : W32) : (wr s k v).mgmt = s.mgmt := rfl
@[simp] theorem wr_rail (k : Nat) (v : W32) : (wr s k v).rail = s.rail := rfl
@[simp] theorem wr_clusters (k : Nat) (v : W32) : (wr s k v).clusters = s.clusters := rfl
@[simp] theorem wr_pwr (k : Nat) (v : W32) : (wr s k v).pwr = s.pwr := rfl
@[simp] theorem wr_jtag (k : Nat) (v : W32) : (wr s k v).jtag = s.jtag := rfl
@[simp] theorem wr_heldTlps (k : Nat) (v : W32) : (wr s k v).heldTlps = s.heldTlps := rfl
@[simp] theorem wr_out (k : Nat) (v : W32) : (wr s k v).out = s.out := rfl
@[simp] theorem wr_waiting (k : Nat) (v : W32) : (wr s k v).waiting = s.waiting := rfl
@[simp] theorem wr_ramGen (k : Nat) (v : W32) : (wr s k v).ramGen = s.ramGen := rfl
@[simp] theorem wr_hrelaxed (k : Nat) (v : W32) : (wr s k v).hrelaxed = s.hrelaxed := rfl
@[simp] theorem wr_pcie (k : Nat) (v : W32) : (wr s k v).pcie = s.pcie := rfl
@[simp] theorem wr_dispatched (k : Nat) (v : W32) : (wr s k v).dispatched = s.dispatched := rfl

@[simp] theorem sf_pending (k : Nat) (fd : Fld) (v : Nat) : (sf s k fd v).pending = s.pending := rfl
@[simp] theorem sf_clk (k : Nat) (fd : Fld) (v : Nat) : (sf s k fd v).clk = s.clk := rfl
@[simp] theorem sf_force (k : Nat) (fd : Fld) (v : Nat) : (sf s k fd v).force = s.force := rfl
@[simp] theorem sf_dirty (k : Nat) (fd : Fld) (v : Nat) : (sf s k fd v).dirty = s.dirty := rfl
@[simp] theorem sf_hostLatch (k : Nat) (fd : Fld) (v : Nat) : (sf s k fd v).hostLatch = s.hostLatch := rfl
@[simp] theorem sf_mgmtLatch (k : Nat) (fd : Fld) (v : Nat) : (sf s k fd v).mgmtLatch = s.mgmtLatch := rfl
@[simp] theorem sf_ctr (k : Nat) (fd : Fld) (v : Nat) : (sf s k fd v).ctr = s.ctr := rfl
@[simp] theorem sf_mem (k : Nat) (fd : Fld) (v : Nat) : (sf s k fd v).mem = s.mem := rfl
@[simp] theorem sf_hmem (k : Nat) (fd : Fld) (v : Nat) : (sf s k fd v).hmem = s.hmem := rfl
@[simp] theorem sf_freeCtr (k : Nat) (fd : Fld) (v : Nat) : (sf s k fd v).freeCtr = s.freeCtr := rfl
@[simp] theorem sf_fns (k : Nat) (fd : Fld) (v : Nat) : (sf s k fd v).fns = s.fns := rfl
@[simp] theorem sf_tt (k : Nat) (fd : Fld) (v : Nat) : (sf s k fd v).tt = s.tt := rfl
@[simp] theorem sf_progs (k : Nat) (fd : Fld) (v : Nat) : (sf s k fd v).progs = s.progs := rfl
@[simp] theorem sf_xl (k : Nat) (fd : Fld) (v : Nat) : (sf s k fd v).xl = s.xl := rfl
@[simp] theorem sf_cache (k : Nat) (fd : Fld) (v : Nat) : (sf s k fd v).cache = s.cache := rfl
@[simp] theorem sf_eng (k : Nat) (fd : Fld) (v : Nat) : (sf s k fd v).eng = s.eng := rfl
@[simp] theorem sf_boot (k : Nat) (fd : Fld) (v : Nat) : (sf s k fd v).boot = s.boot := rfl
@[simp] theorem sf_log (k : Nat) (fd : Fld) (v : Nat) : (sf s k fd v).log = s.log := rfl
@[simp] theorem sf_trace (k : Nat) (fd : Fld) (v : Nat) : (sf s k fd v).trace = s.trace := rfl
@[simp] theorem sf_vfs (k : Nat) (fd : Fld) (v : Nat) : (sf s k fd v).vfs = s.vfs := rfl
@[simp] theorem sf_priEn (k : Nat) (fd : Fld) (v : Nat) : (sf s k fd v).priEn = s.priEn := rfl
@[simp] theorem sf_priAlloc (k : Nat) (fd : Fld) (v : Nat) : (sf s k fd v).priAlloc = s.priAlloc := rfl
@[simp] theorem sf_islands (k : Nat) (fd : Fld) (v : Nat) : (sf s k fd v).islands = s.islands := rfl
@[simp] theorem sf_link (k : Nat) (fd : Fld) (v : Nat) : (sf s k fd v).link = s.link := rfl
@[simp] theorem sf_waves (k : Nat) (fd : Fld) (v : Nat) : (sf s k fd v).waves = s.waves := rfl
@[simp] theorem sf_groups (k : Nat) (fd : Fld) (v : Nat) : (sf s k fd v).groups = s.groups := rfl
@[simp] theorem sf_tmsgs (k : Nat) (fd : Fld) (v : Nat) : (sf s k fd v).tmsgs = s.tmsgs := rfl
@[simp] theorem sf_shOps (k : Nat) (fd : Fld) (v : Nat) : (sf s k fd v).shOps = s.shOps := rfl
@[simp] theorem sf_rend (k : Nat) (fd : Fld) (v : Nat) : (sf s k fd v).rend = s.rend := rfl
@[simp] theorem sf_disp (k : Nat) (fd : Fld) (v : Nat) : (sf s k fd v).disp = s.disp := rfl
@[simp] theorem sf_care (k : Nat) (fd : Fld) (v : Nat) : (sf s k fd v).care = s.care := rfl
@[simp] theorem sf_mgmt (k : Nat) (fd : Fld) (v : Nat) : (sf s k fd v).mgmt = s.mgmt := rfl
@[simp] theorem sf_rail (k : Nat) (fd : Fld) (v : Nat) : (sf s k fd v).rail = s.rail := rfl
@[simp] theorem sf_clusters (k : Nat) (fd : Fld) (v : Nat) : (sf s k fd v).clusters = s.clusters := rfl
@[simp] theorem sf_pwr (k : Nat) (fd : Fld) (v : Nat) : (sf s k fd v).pwr = s.pwr := rfl
@[simp] theorem sf_jtag (k : Nat) (fd : Fld) (v : Nat) : (sf s k fd v).jtag = s.jtag := rfl
@[simp] theorem sf_heldTlps (k : Nat) (fd : Fld) (v : Nat) : (sf s k fd v).heldTlps = s.heldTlps := rfl
@[simp] theorem sf_out (k : Nat) (fd : Fld) (v : Nat) : (sf s k fd v).out = s.out := rfl
@[simp] theorem sf_waiting (k : Nat) (fd : Fld) (v : Nat) : (sf s k fd v).waiting = s.waiting := rfl
@[simp] theorem sf_ramGen (k : Nat) (fd : Fld) (v : Nat) : (sf s k fd v).ramGen = s.ramGen := rfl
@[simp] theorem sf_hrelaxed (k : Nat) (fd : Fld) (v : Nat) : (sf s k fd v).hrelaxed = s.hrelaxed := rfl
@[simp] theorem sf_pcie (k : Nat) (fd : Fld) (v : Nat) : (sf s k fd v).pcie = s.pcie := rfl
@[simp] theorem sf_dispatched (k : Nat) (fd : Fld) (v : Nat) : (sf s k fd v).dispatched = s.dispatched := rfl

@[simp] theorem bumpBy_pending (k n : Nat) : (bumpBy s k n).pending = s.pending := rfl
@[simp] theorem bumpBy_clk (k n : Nat) : (bumpBy s k n).clk = s.clk := rfl
@[simp] theorem bumpBy_regs (k n : Nat) : (bumpBy s k n).regs = s.regs := rfl
@[simp] theorem bumpBy_force (k n : Nat) : (bumpBy s k n).force = s.force := rfl
@[simp] theorem bumpBy_dirty (k n : Nat) : (bumpBy s k n).dirty = s.dirty := rfl
@[simp] theorem bumpBy_hostLatch (k n : Nat) : (bumpBy s k n).hostLatch = s.hostLatch := rfl
@[simp] theorem bumpBy_mgmtLatch (k n : Nat) : (bumpBy s k n).mgmtLatch = s.mgmtLatch := rfl
@[simp] theorem bumpBy_mem (k n : Nat) : (bumpBy s k n).mem = s.mem := rfl
@[simp] theorem bumpBy_hmem (k n : Nat) : (bumpBy s k n).hmem = s.hmem := rfl
@[simp] theorem bumpBy_freeCtr (k n : Nat) : (bumpBy s k n).freeCtr = s.freeCtr := rfl
@[simp] theorem bumpBy_fns (k n : Nat) : (bumpBy s k n).fns = s.fns := rfl
@[simp] theorem bumpBy_tt (k n : Nat) : (bumpBy s k n).tt = s.tt := rfl
@[simp] theorem bumpBy_progs (k n : Nat) : (bumpBy s k n).progs = s.progs := rfl
@[simp] theorem bumpBy_xl (k n : Nat) : (bumpBy s k n).xl = s.xl := rfl
@[simp] theorem bumpBy_cache (k n : Nat) : (bumpBy s k n).cache = s.cache := rfl
@[simp] theorem bumpBy_eng (k n : Nat) : (bumpBy s k n).eng = s.eng := rfl
@[simp] theorem bumpBy_boot (k n : Nat) : (bumpBy s k n).boot = s.boot := rfl
@[simp] theorem bumpBy_log (k n : Nat) : (bumpBy s k n).log = s.log := rfl
@[simp] theorem bumpBy_trace (k n : Nat) : (bumpBy s k n).trace = s.trace := rfl
@[simp] theorem bumpBy_vfs (k n : Nat) : (bumpBy s k n).vfs = s.vfs := rfl
@[simp] theorem bumpBy_priEn (k n : Nat) : (bumpBy s k n).priEn = s.priEn := rfl
@[simp] theorem bumpBy_priAlloc (k n : Nat) : (bumpBy s k n).priAlloc = s.priAlloc := rfl
@[simp] theorem bumpBy_islands (k n : Nat) : (bumpBy s k n).islands = s.islands := rfl
@[simp] theorem bumpBy_link (k n : Nat) : (bumpBy s k n).link = s.link := rfl
@[simp] theorem bumpBy_waves (k n : Nat) : (bumpBy s k n).waves = s.waves := rfl
@[simp] theorem bumpBy_groups (k n : Nat) : (bumpBy s k n).groups = s.groups := rfl
@[simp] theorem bumpBy_tmsgs (k n : Nat) : (bumpBy s k n).tmsgs = s.tmsgs := rfl
@[simp] theorem bumpBy_shOps (k n : Nat) : (bumpBy s k n).shOps = s.shOps := rfl
@[simp] theorem bumpBy_rend (k n : Nat) : (bumpBy s k n).rend = s.rend := rfl
@[simp] theorem bumpBy_disp (k n : Nat) : (bumpBy s k n).disp = s.disp := rfl
@[simp] theorem bumpBy_care (k n : Nat) : (bumpBy s k n).care = s.care := rfl
@[simp] theorem bumpBy_mgmt (k n : Nat) : (bumpBy s k n).mgmt = s.mgmt := rfl
@[simp] theorem bumpBy_rail (k n : Nat) : (bumpBy s k n).rail = s.rail := rfl
@[simp] theorem bumpBy_clusters (k n : Nat) : (bumpBy s k n).clusters = s.clusters := rfl
@[simp] theorem bumpBy_pwr (k n : Nat) : (bumpBy s k n).pwr = s.pwr := rfl
@[simp] theorem bumpBy_jtag (k n : Nat) : (bumpBy s k n).jtag = s.jtag := rfl
@[simp] theorem bumpBy_heldTlps (k n : Nat) : (bumpBy s k n).heldTlps = s.heldTlps := rfl
@[simp] theorem bumpBy_out (k n : Nat) : (bumpBy s k n).out = s.out := rfl
@[simp] theorem bumpBy_waiting (k n : Nat) : (bumpBy s k n).waiting = s.waiting := rfl
@[simp] theorem bumpBy_ramGen (k n : Nat) : (bumpBy s k n).ramGen = s.ramGen := rfl
@[simp] theorem bumpBy_hrelaxed (k n : Nat) : (bumpBy s k n).hrelaxed = s.hrelaxed := rfl
@[simp] theorem bumpBy_pcie (k n : Nat) : (bumpBy s k n).pcie = s.pcie := rfl
@[simp] theorem bumpBy_dispatched (k n : Nat) : (bumpBy s k n).dispatched = s.dispatched := rfl

@[simp] theorem bump_pending (k : Nat) : (bump s k).pending = s.pending := rfl
@[simp] theorem bump_clk (k : Nat) : (bump s k).clk = s.clk := rfl
@[simp] theorem bump_regs (k : Nat) : (bump s k).regs = s.regs := rfl
@[simp] theorem bump_force (k : Nat) : (bump s k).force = s.force := rfl
@[simp] theorem bump_dirty (k : Nat) : (bump s k).dirty = s.dirty := rfl
@[simp] theorem bump_hostLatch (k : Nat) : (bump s k).hostLatch = s.hostLatch := rfl
@[simp] theorem bump_mgmtLatch (k : Nat) : (bump s k).mgmtLatch = s.mgmtLatch := rfl
@[simp] theorem bump_mem (k : Nat) : (bump s k).mem = s.mem := rfl
@[simp] theorem bump_hmem (k : Nat) : (bump s k).hmem = s.hmem := rfl
@[simp] theorem bump_freeCtr (k : Nat) : (bump s k).freeCtr = s.freeCtr := rfl
@[simp] theorem bump_fns (k : Nat) : (bump s k).fns = s.fns := rfl
@[simp] theorem bump_tt (k : Nat) : (bump s k).tt = s.tt := rfl
@[simp] theorem bump_progs (k : Nat) : (bump s k).progs = s.progs := rfl
@[simp] theorem bump_xl (k : Nat) : (bump s k).xl = s.xl := rfl
@[simp] theorem bump_cache (k : Nat) : (bump s k).cache = s.cache := rfl
@[simp] theorem bump_eng (k : Nat) : (bump s k).eng = s.eng := rfl
@[simp] theorem bump_boot (k : Nat) : (bump s k).boot = s.boot := rfl
@[simp] theorem bump_log (k : Nat) : (bump s k).log = s.log := rfl
@[simp] theorem bump_trace (k : Nat) : (bump s k).trace = s.trace := rfl
@[simp] theorem bump_vfs (k : Nat) : (bump s k).vfs = s.vfs := rfl
@[simp] theorem bump_priEn (k : Nat) : (bump s k).priEn = s.priEn := rfl
@[simp] theorem bump_priAlloc (k : Nat) : (bump s k).priAlloc = s.priAlloc := rfl
@[simp] theorem bump_islands (k : Nat) : (bump s k).islands = s.islands := rfl
@[simp] theorem bump_link (k : Nat) : (bump s k).link = s.link := rfl
@[simp] theorem bump_waves (k : Nat) : (bump s k).waves = s.waves := rfl
@[simp] theorem bump_groups (k : Nat) : (bump s k).groups = s.groups := rfl
@[simp] theorem bump_tmsgs (k : Nat) : (bump s k).tmsgs = s.tmsgs := rfl
@[simp] theorem bump_shOps (k : Nat) : (bump s k).shOps = s.shOps := rfl
@[simp] theorem bump_rend (k : Nat) : (bump s k).rend = s.rend := rfl
@[simp] theorem bump_disp (k : Nat) : (bump s k).disp = s.disp := rfl
@[simp] theorem bump_care (k : Nat) : (bump s k).care = s.care := rfl
@[simp] theorem bump_mgmt (k : Nat) : (bump s k).mgmt = s.mgmt := rfl
@[simp] theorem bump_rail (k : Nat) : (bump s k).rail = s.rail := rfl
@[simp] theorem bump_clusters (k : Nat) : (bump s k).clusters = s.clusters := rfl
@[simp] theorem bump_pwr (k : Nat) : (bump s k).pwr = s.pwr := rfl
@[simp] theorem bump_jtag (k : Nat) : (bump s k).jtag = s.jtag := rfl
@[simp] theorem bump_heldTlps (k : Nat) : (bump s k).heldTlps = s.heldTlps := rfl
@[simp] theorem bump_out (k : Nat) : (bump s k).out = s.out := rfl
@[simp] theorem bump_waiting (k : Nat) : (bump s k).waiting = s.waiting := rfl
@[simp] theorem bump_ramGen (k : Nat) : (bump s k).ramGen = s.ramGen := rfl
@[simp] theorem bump_hrelaxed (k : Nat) : (bump s k).hrelaxed = s.hrelaxed := rfl
@[simp] theorem bump_pcie (k : Nat) : (bump s k).pcie = s.pcie := rfl
@[simp] theorem bump_dispatched (k : Nat) : (bump s k).dispatched = s.dispatched := rfl

@[simp] theorem lset_pending (a : Nat) (b : Byte) : (lset s a b).pending = s.pending := rfl
@[simp] theorem lset_clk (a : Nat) (b : Byte) : (lset s a b).clk = s.clk := rfl
@[simp] theorem lset_regs (a : Nat) (b : Byte) : (lset s a b).regs = s.regs := rfl
@[simp] theorem lset_force (a : Nat) (b : Byte) : (lset s a b).force = s.force := rfl
@[simp] theorem lset_dirty (a : Nat) (b : Byte) : (lset s a b).dirty = s.dirty := rfl
@[simp] theorem lset_hostLatch (a : Nat) (b : Byte) : (lset s a b).hostLatch = s.hostLatch := rfl
@[simp] theorem lset_mgmtLatch (a : Nat) (b : Byte) : (lset s a b).mgmtLatch = s.mgmtLatch := rfl
@[simp] theorem lset_ctr (a : Nat) (b : Byte) : (lset s a b).ctr = s.ctr := rfl
@[simp] theorem lset_hmem (a : Nat) (b : Byte) : (lset s a b).hmem = s.hmem := rfl
@[simp] theorem lset_freeCtr (a : Nat) (b : Byte) : (lset s a b).freeCtr = s.freeCtr := rfl
@[simp] theorem lset_fns (a : Nat) (b : Byte) : (lset s a b).fns = s.fns := rfl
@[simp] theorem lset_tt (a : Nat) (b : Byte) : (lset s a b).tt = s.tt := rfl
@[simp] theorem lset_progs (a : Nat) (b : Byte) : (lset s a b).progs = s.progs := rfl
@[simp] theorem lset_xl (a : Nat) (b : Byte) : (lset s a b).xl = s.xl := rfl
@[simp] theorem lset_cache (a : Nat) (b : Byte) : (lset s a b).cache = s.cache := rfl
@[simp] theorem lset_eng (a : Nat) (b : Byte) : (lset s a b).eng = s.eng := rfl
@[simp] theorem lset_boot (a : Nat) (b : Byte) : (lset s a b).boot = s.boot := rfl
@[simp] theorem lset_log (a : Nat) (b : Byte) : (lset s a b).log = s.log := rfl
@[simp] theorem lset_trace (a : Nat) (b : Byte) : (lset s a b).trace = s.trace := rfl
@[simp] theorem lset_vfs (a : Nat) (b : Byte) : (lset s a b).vfs = s.vfs := rfl
@[simp] theorem lset_priEn (a : Nat) (b : Byte) : (lset s a b).priEn = s.priEn := rfl
@[simp] theorem lset_priAlloc (a : Nat) (b : Byte) : (lset s a b).priAlloc = s.priAlloc := rfl
@[simp] theorem lset_islands (a : Nat) (b : Byte) : (lset s a b).islands = s.islands := rfl
@[simp] theorem lset_link (a : Nat) (b : Byte) : (lset s a b).link = s.link := rfl
@[simp] theorem lset_waves (a : Nat) (b : Byte) : (lset s a b).waves = s.waves := rfl
@[simp] theorem lset_groups (a : Nat) (b : Byte) : (lset s a b).groups = s.groups := rfl
@[simp] theorem lset_tmsgs (a : Nat) (b : Byte) : (lset s a b).tmsgs = s.tmsgs := rfl
@[simp] theorem lset_shOps (a : Nat) (b : Byte) : (lset s a b).shOps = s.shOps := rfl
@[simp] theorem lset_rend (a : Nat) (b : Byte) : (lset s a b).rend = s.rend := rfl
@[simp] theorem lset_disp (a : Nat) (b : Byte) : (lset s a b).disp = s.disp := rfl
@[simp] theorem lset_care (a : Nat) (b : Byte) : (lset s a b).care = s.care := rfl
@[simp] theorem lset_mgmt (a : Nat) (b : Byte) : (lset s a b).mgmt = s.mgmt := rfl
@[simp] theorem lset_rail (a : Nat) (b : Byte) : (lset s a b).rail = s.rail := rfl
@[simp] theorem lset_clusters (a : Nat) (b : Byte) : (lset s a b).clusters = s.clusters := rfl
@[simp] theorem lset_pwr (a : Nat) (b : Byte) : (lset s a b).pwr = s.pwr := rfl
@[simp] theorem lset_jtag (a : Nat) (b : Byte) : (lset s a b).jtag = s.jtag := rfl
@[simp] theorem lset_heldTlps (a : Nat) (b : Byte) : (lset s a b).heldTlps = s.heldTlps := rfl
@[simp] theorem lset_out (a : Nat) (b : Byte) : (lset s a b).out = s.out := rfl
@[simp] theorem lset_waiting (a : Nat) (b : Byte) : (lset s a b).waiting = s.waiting := rfl
@[simp] theorem lset_ramGen (a : Nat) (b : Byte) : (lset s a b).ramGen = s.ramGen := rfl
@[simp] theorem lset_hrelaxed (a : Nat) (b : Byte) : (lset s a b).hrelaxed = s.hrelaxed := rfl
@[simp] theorem lset_pcie (a : Nat) (b : Byte) : (lset s a b).pcie = s.pcie := rfl
@[simp] theorem lset_dispatched (a : Nat) (b : Byte) : (lset s a b).dispatched = s.dispatched := rfl

@[simp] theorem setFn_pending (f : Nat) (x : Fn) : (setFn s f x).pending = s.pending := rfl
@[simp] theorem setFn_clk (f : Nat) (x : Fn) : (setFn s f x).clk = s.clk := rfl
@[simp] theorem setFn_regs (f : Nat) (x : Fn) : (setFn s f x).regs = s.regs := rfl
@[simp] theorem setFn_force (f : Nat) (x : Fn) : (setFn s f x).force = s.force := rfl
@[simp] theorem setFn_dirty (f : Nat) (x : Fn) : (setFn s f x).dirty = s.dirty := rfl
@[simp] theorem setFn_hostLatch (f : Nat) (x : Fn) : (setFn s f x).hostLatch = s.hostLatch := rfl
@[simp] theorem setFn_mgmtLatch (f : Nat) (x : Fn) : (setFn s f x).mgmtLatch = s.mgmtLatch := rfl
@[simp] theorem setFn_ctr (f : Nat) (x : Fn) : (setFn s f x).ctr = s.ctr := rfl
@[simp] theorem setFn_mem (f : Nat) (x : Fn) : (setFn s f x).mem = s.mem := rfl
@[simp] theorem setFn_hmem (f : Nat) (x : Fn) : (setFn s f x).hmem = s.hmem := rfl
@[simp] theorem setFn_freeCtr (f : Nat) (x : Fn) : (setFn s f x).freeCtr = s.freeCtr := rfl
@[simp] theorem setFn_tt (f : Nat) (x : Fn) : (setFn s f x).tt = s.tt := rfl
@[simp] theorem setFn_progs (f : Nat) (x : Fn) : (setFn s f x).progs = s.progs := rfl
@[simp] theorem setFn_xl (f : Nat) (x : Fn) : (setFn s f x).xl = s.xl := rfl
@[simp] theorem setFn_cache (f : Nat) (x : Fn) : (setFn s f x).cache = s.cache := rfl
@[simp] theorem setFn_eng (f : Nat) (x : Fn) : (setFn s f x).eng = s.eng := rfl
@[simp] theorem setFn_boot (f : Nat) (x : Fn) : (setFn s f x).boot = s.boot := rfl
@[simp] theorem setFn_log (f : Nat) (x : Fn) : (setFn s f x).log = s.log := rfl
@[simp] theorem setFn_trace (f : Nat) (x : Fn) : (setFn s f x).trace = s.trace := rfl
@[simp] theorem setFn_vfs (f : Nat) (x : Fn) : (setFn s f x).vfs = s.vfs := rfl
@[simp] theorem setFn_priEn (f : Nat) (x : Fn) : (setFn s f x).priEn = s.priEn := rfl
@[simp] theorem setFn_priAlloc (f : Nat) (x : Fn) : (setFn s f x).priAlloc = s.priAlloc := rfl
@[simp] theorem setFn_islands (f : Nat) (x : Fn) : (setFn s f x).islands = s.islands := rfl
@[simp] theorem setFn_link (f : Nat) (x : Fn) : (setFn s f x).link = s.link := rfl
@[simp] theorem setFn_waves (f : Nat) (x : Fn) : (setFn s f x).waves = s.waves := rfl
@[simp] theorem setFn_groups (f : Nat) (x : Fn) : (setFn s f x).groups = s.groups := rfl
@[simp] theorem setFn_tmsgs (f : Nat) (x : Fn) : (setFn s f x).tmsgs = s.tmsgs := rfl
@[simp] theorem setFn_shOps (f : Nat) (x : Fn) : (setFn s f x).shOps = s.shOps := rfl
@[simp] theorem setFn_rend (f : Nat) (x : Fn) : (setFn s f x).rend = s.rend := rfl
@[simp] theorem setFn_disp (f : Nat) (x : Fn) : (setFn s f x).disp = s.disp := rfl
@[simp] theorem setFn_care (f : Nat) (x : Fn) : (setFn s f x).care = s.care := rfl
@[simp] theorem setFn_mgmt (f : Nat) (x : Fn) : (setFn s f x).mgmt = s.mgmt := rfl
@[simp] theorem setFn_rail (f : Nat) (x : Fn) : (setFn s f x).rail = s.rail := rfl
@[simp] theorem setFn_clusters (f : Nat) (x : Fn) : (setFn s f x).clusters = s.clusters := rfl
@[simp] theorem setFn_pwr (f : Nat) (x : Fn) : (setFn s f x).pwr = s.pwr := rfl
@[simp] theorem setFn_jtag (f : Nat) (x : Fn) : (setFn s f x).jtag = s.jtag := rfl
@[simp] theorem setFn_heldTlps (f : Nat) (x : Fn) : (setFn s f x).heldTlps = s.heldTlps := rfl
@[simp] theorem setFn_out (f : Nat) (x : Fn) : (setFn s f x).out = s.out := rfl
@[simp] theorem setFn_waiting (f : Nat) (x : Fn) : (setFn s f x).waiting = s.waiting := rfl
@[simp] theorem setFn_ramGen (f : Nat) (x : Fn) : (setFn s f x).ramGen = s.ramGen := rfl
@[simp] theorem setFn_hrelaxed (f : Nat) (x : Fn) : (setFn s f x).hrelaxed = s.hrelaxed := rfl
@[simp] theorem setFn_pcie (f : Nat) (x : Fn) : (setFn s f x).pcie = s.pcie := rfl
@[simp] theorem setFn_dispatched (f : Nat) (x : Fn) : (setFn s f x).dispatched = s.dispatched := rfl

@[simp] theorem modFn_pending (f : Nat) (g : Fn → Fn) : (modFn s f g).pending = s.pending := rfl
@[simp] theorem modFn_clk (f : Nat) (g : Fn → Fn) : (modFn s f g).clk = s.clk := rfl
@[simp] theorem modFn_regs (f : Nat) (g : Fn → Fn) : (modFn s f g).regs = s.regs := rfl
@[simp] theorem modFn_force (f : Nat) (g : Fn → Fn) : (modFn s f g).force = s.force := rfl
@[simp] theorem modFn_dirty (f : Nat) (g : Fn → Fn) : (modFn s f g).dirty = s.dirty := rfl
@[simp] theorem modFn_hostLatch (f : Nat) (g : Fn → Fn) : (modFn s f g).hostLatch = s.hostLatch := rfl
@[simp] theorem modFn_mgmtLatch (f : Nat) (g : Fn → Fn) : (modFn s f g).mgmtLatch = s.mgmtLatch := rfl
@[simp] theorem modFn_ctr (f : Nat) (g : Fn → Fn) : (modFn s f g).ctr = s.ctr := rfl
@[simp] theorem modFn_mem (f : Nat) (g : Fn → Fn) : (modFn s f g).mem = s.mem := rfl
@[simp] theorem modFn_hmem (f : Nat) (g : Fn → Fn) : (modFn s f g).hmem = s.hmem := rfl
@[simp] theorem modFn_freeCtr (f : Nat) (g : Fn → Fn) : (modFn s f g).freeCtr = s.freeCtr := rfl
@[simp] theorem modFn_tt (f : Nat) (g : Fn → Fn) : (modFn s f g).tt = s.tt := rfl
@[simp] theorem modFn_progs (f : Nat) (g : Fn → Fn) : (modFn s f g).progs = s.progs := rfl
@[simp] theorem modFn_xl (f : Nat) (g : Fn → Fn) : (modFn s f g).xl = s.xl := rfl
@[simp] theorem modFn_cache (f : Nat) (g : Fn → Fn) : (modFn s f g).cache = s.cache := rfl
@[simp] theorem modFn_eng (f : Nat) (g : Fn → Fn) : (modFn s f g).eng = s.eng := rfl
@[simp] theorem modFn_boot (f : Nat) (g : Fn → Fn) : (modFn s f g).boot = s.boot := rfl
@[simp] theorem modFn_log (f : Nat) (g : Fn → Fn) : (modFn s f g).log = s.log := rfl
@[simp] theorem modFn_trace (f : Nat) (g : Fn → Fn) : (modFn s f g).trace = s.trace := rfl
@[simp] theorem modFn_vfs (f : Nat) (g : Fn → Fn) : (modFn s f g).vfs = s.vfs := rfl
@[simp] theorem modFn_priEn (f : Nat) (g : Fn → Fn) : (modFn s f g).priEn = s.priEn := rfl
@[simp] theorem modFn_priAlloc (f : Nat) (g : Fn → Fn) : (modFn s f g).priAlloc = s.priAlloc := rfl
@[simp] theorem modFn_islands (f : Nat) (g : Fn → Fn) : (modFn s f g).islands = s.islands := rfl
@[simp] theorem modFn_link (f : Nat) (g : Fn → Fn) : (modFn s f g).link = s.link := rfl
@[simp] theorem modFn_waves (f : Nat) (g : Fn → Fn) : (modFn s f g).waves = s.waves := rfl
@[simp] theorem modFn_groups (f : Nat) (g : Fn → Fn) : (modFn s f g).groups = s.groups := rfl
@[simp] theorem modFn_tmsgs (f : Nat) (g : Fn → Fn) : (modFn s f g).tmsgs = s.tmsgs := rfl
@[simp] theorem modFn_shOps (f : Nat) (g : Fn → Fn) : (modFn s f g).shOps = s.shOps := rfl
@[simp] theorem modFn_rend (f : Nat) (g : Fn → Fn) : (modFn s f g).rend = s.rend := rfl
@[simp] theorem modFn_disp (f : Nat) (g : Fn → Fn) : (modFn s f g).disp = s.disp := rfl
@[simp] theorem modFn_care (f : Nat) (g : Fn → Fn) : (modFn s f g).care = s.care := rfl
@[simp] theorem modFn_mgmt (f : Nat) (g : Fn → Fn) : (modFn s f g).mgmt = s.mgmt := rfl
@[simp] theorem modFn_rail (f : Nat) (g : Fn → Fn) : (modFn s f g).rail = s.rail := rfl
@[simp] theorem modFn_clusters (f : Nat) (g : Fn → Fn) : (modFn s f g).clusters = s.clusters := rfl
@[simp] theorem modFn_pwr (f : Nat) (g : Fn → Fn) : (modFn s f g).pwr = s.pwr := rfl
@[simp] theorem modFn_jtag (f : Nat) (g : Fn → Fn) : (modFn s f g).jtag = s.jtag := rfl
@[simp] theorem modFn_heldTlps (f : Nat) (g : Fn → Fn) : (modFn s f g).heldTlps = s.heldTlps := rfl
@[simp] theorem modFn_out (f : Nat) (g : Fn → Fn) : (modFn s f g).out = s.out := rfl
@[simp] theorem modFn_waiting (f : Nat) (g : Fn → Fn) : (modFn s f g).waiting = s.waiting := rfl
@[simp] theorem modFn_ramGen (f : Nat) (g : Fn → Fn) : (modFn s f g).ramGen = s.ramGen := rfl
@[simp] theorem modFn_hrelaxed (f : Nat) (g : Fn → Fn) : (modFn s f g).hrelaxed = s.hrelaxed := rfl
@[simp] theorem modFn_pcie (f : Nat) (g : Fn → Fn) : (modFn s f g).pcie = s.pcie := rfl
@[simp] theorem modFn_dispatched (f : Nat) (g : Fn → Fn) : (modFn s f g).dispatched = s.dispatched := rfl

@[simp] theorem modPkt_pending (f pos : Nat) (g : Packet → Packet) : (modPkt s f pos g).pending = s.pending := rfl
@[simp] theorem modPkt_clk (f pos : Nat) (g : Packet → Packet) : (modPkt s f pos g).clk = s.clk := rfl
@[simp] theorem modPkt_regs (f pos : Nat) (g : Packet → Packet) : (modPkt s f pos g).regs = s.regs := rfl
@[simp] theorem modPkt_force (f pos : Nat) (g : Packet → Packet) : (modPkt s f pos g).force = s.force := rfl
@[simp] theorem modPkt_dirty (f pos : Nat) (g : Packet → Packet) : (modPkt s f pos g).dirty = s.dirty := rfl
@[simp] theorem modPkt_hostLatch (f pos : Nat) (g : Packet → Packet) : (modPkt s f pos g).hostLatch = s.hostLatch := rfl
@[simp] theorem modPkt_mgmtLatch (f pos : Nat) (g : Packet → Packet) : (modPkt s f pos g).mgmtLatch = s.mgmtLatch := rfl
@[simp] theorem modPkt_ctr (f pos : Nat) (g : Packet → Packet) : (modPkt s f pos g).ctr = s.ctr := rfl
@[simp] theorem modPkt_mem (f pos : Nat) (g : Packet → Packet) : (modPkt s f pos g).mem = s.mem := rfl
@[simp] theorem modPkt_hmem (f pos : Nat) (g : Packet → Packet) : (modPkt s f pos g).hmem = s.hmem := rfl
@[simp] theorem modPkt_freeCtr (f pos : Nat) (g : Packet → Packet) : (modPkt s f pos g).freeCtr = s.freeCtr := rfl
@[simp] theorem modPkt_tt (f pos : Nat) (g : Packet → Packet) : (modPkt s f pos g).tt = s.tt := rfl
@[simp] theorem modPkt_progs (f pos : Nat) (g : Packet → Packet) : (modPkt s f pos g).progs = s.progs := rfl
@[simp] theorem modPkt_xl (f pos : Nat) (g : Packet → Packet) : (modPkt s f pos g).xl = s.xl := rfl
@[simp] theorem modPkt_cache (f pos : Nat) (g : Packet → Packet) : (modPkt s f pos g).cache = s.cache := rfl
@[simp] theorem modPkt_eng (f pos : Nat) (g : Packet → Packet) : (modPkt s f pos g).eng = s.eng := rfl
@[simp] theorem modPkt_boot (f pos : Nat) (g : Packet → Packet) : (modPkt s f pos g).boot = s.boot := rfl
@[simp] theorem modPkt_log (f pos : Nat) (g : Packet → Packet) : (modPkt s f pos g).log = s.log := rfl
@[simp] theorem modPkt_trace (f pos : Nat) (g : Packet → Packet) : (modPkt s f pos g).trace = s.trace := rfl
@[simp] theorem modPkt_vfs (f pos : Nat) (g : Packet → Packet) : (modPkt s f pos g).vfs = s.vfs := rfl
@[simp] theorem modPkt_priEn (f pos : Nat) (g : Packet → Packet) : (modPkt s f pos g).priEn = s.priEn := rfl
@[simp] theorem modPkt_priAlloc (f pos : Nat) (g : Packet → Packet) : (modPkt s f pos g).priAlloc = s.priAlloc := rfl
@[simp] theorem modPkt_islands (f pos : Nat) (g : Packet → Packet) : (modPkt s f pos g).islands = s.islands := rfl
@[simp] theorem modPkt_link (f pos : Nat) (g : Packet → Packet) : (modPkt s f pos g).link = s.link := rfl
@[simp] theorem modPkt_waves (f pos : Nat) (g : Packet → Packet) : (modPkt s f pos g).waves = s.waves := rfl
@[simp] theorem modPkt_groups (f pos : Nat) (g : Packet → Packet) : (modPkt s f pos g).groups = s.groups := rfl
@[simp] theorem modPkt_tmsgs (f pos : Nat) (g : Packet → Packet) : (modPkt s f pos g).tmsgs = s.tmsgs := rfl
@[simp] theorem modPkt_shOps (f pos : Nat) (g : Packet → Packet) : (modPkt s f pos g).shOps = s.shOps := rfl
@[simp] theorem modPkt_rend (f pos : Nat) (g : Packet → Packet) : (modPkt s f pos g).rend = s.rend := rfl
@[simp] theorem modPkt_disp (f pos : Nat) (g : Packet → Packet) : (modPkt s f pos g).disp = s.disp := rfl
@[simp] theorem modPkt_care (f pos : Nat) (g : Packet → Packet) : (modPkt s f pos g).care = s.care := rfl
@[simp] theorem modPkt_mgmt (f pos : Nat) (g : Packet → Packet) : (modPkt s f pos g).mgmt = s.mgmt := rfl
@[simp] theorem modPkt_rail (f pos : Nat) (g : Packet → Packet) : (modPkt s f pos g).rail = s.rail := rfl
@[simp] theorem modPkt_clusters (f pos : Nat) (g : Packet → Packet) : (modPkt s f pos g).clusters = s.clusters := rfl
@[simp] theorem modPkt_pwr (f pos : Nat) (g : Packet → Packet) : (modPkt s f pos g).pwr = s.pwr := rfl
@[simp] theorem modPkt_jtag (f pos : Nat) (g : Packet → Packet) : (modPkt s f pos g).jtag = s.jtag := rfl
@[simp] theorem modPkt_heldTlps (f pos : Nat) (g : Packet → Packet) : (modPkt s f pos g).heldTlps = s.heldTlps := rfl
@[simp] theorem modPkt_out (f pos : Nat) (g : Packet → Packet) : (modPkt s f pos g).out = s.out := rfl
@[simp] theorem modPkt_waiting (f pos : Nat) (g : Packet → Packet) : (modPkt s f pos g).waiting = s.waiting := rfl
@[simp] theorem modPkt_ramGen (f pos : Nat) (g : Packet → Packet) : (modPkt s f pos g).ramGen = s.ramGen := rfl
@[simp] theorem modPkt_hrelaxed (f pos : Nat) (g : Packet → Packet) : (modPkt s f pos g).hrelaxed = s.hrelaxed := rfl
@[simp] theorem modPkt_pcie (f pos : Nat) (g : Packet → Packet) : (modPkt s f pos g).pcie = s.pcie := rfl
@[simp] theorem modPkt_dispatched (f pos : Nat) (g : Packet → Packet) : (modPkt s f pos g).dispatched = s.dispatched := rfl

@[simp] theorem logX_pending (e o f : Nat) (d : List Byte) : (logX s e o f d).pending = s.pending := rfl
@[simp] theorem logX_clk (e o f : Nat) (d : List Byte) : (logX s e o f d).clk = s.clk := rfl
@[simp] theorem logX_regs (e o f : Nat) (d : List Byte) : (logX s e o f d).regs = s.regs := rfl
@[simp] theorem logX_force (e o f : Nat) (d : List Byte) : (logX s e o f d).force = s.force := rfl
@[simp] theorem logX_dirty (e o f : Nat) (d : List Byte) : (logX s e o f d).dirty = s.dirty := rfl
@[simp] theorem logX_hostLatch (e o f : Nat) (d : List Byte) : (logX s e o f d).hostLatch = s.hostLatch := rfl
@[simp] theorem logX_mgmtLatch (e o f : Nat) (d : List Byte) : (logX s e o f d).mgmtLatch = s.mgmtLatch := rfl
@[simp] theorem logX_ctr (e o f : Nat) (d : List Byte) : (logX s e o f d).ctr = s.ctr := rfl
@[simp] theorem logX_mem (e o f : Nat) (d : List Byte) : (logX s e o f d).mem = s.mem := rfl
@[simp] theorem logX_hmem (e o f : Nat) (d : List Byte) : (logX s e o f d).hmem = s.hmem := rfl
@[simp] theorem logX_freeCtr (e o f : Nat) (d : List Byte) : (logX s e o f d).freeCtr = s.freeCtr := rfl
@[simp] theorem logX_fns (e o f : Nat) (d : List Byte) : (logX s e o f d).fns = s.fns := rfl
@[simp] theorem logX_tt (e o f : Nat) (d : List Byte) : (logX s e o f d).tt = s.tt := rfl
@[simp] theorem logX_progs (e o f : Nat) (d : List Byte) : (logX s e o f d).progs = s.progs := rfl
@[simp] theorem logX_xl (e o f : Nat) (d : List Byte) : (logX s e o f d).xl = s.xl := rfl
@[simp] theorem logX_cache (e o f : Nat) (d : List Byte) : (logX s e o f d).cache = s.cache := rfl
@[simp] theorem logX_eng (e o f : Nat) (d : List Byte) : (logX s e o f d).eng = s.eng := rfl
@[simp] theorem logX_boot (e o f : Nat) (d : List Byte) : (logX s e o f d).boot = s.boot := rfl
@[simp] theorem logX_trace (e o f : Nat) (d : List Byte) : (logX s e o f d).trace = s.trace := rfl
@[simp] theorem logX_vfs (e o f : Nat) (d : List Byte) : (logX s e o f d).vfs = s.vfs := rfl
@[simp] theorem logX_priEn (e o f : Nat) (d : List Byte) : (logX s e o f d).priEn = s.priEn := rfl
@[simp] theorem logX_priAlloc (e o f : Nat) (d : List Byte) : (logX s e o f d).priAlloc = s.priAlloc := rfl
@[simp] theorem logX_islands (e o f : Nat) (d : List Byte) : (logX s e o f d).islands = s.islands := rfl
@[simp] theorem logX_link (e o f : Nat) (d : List Byte) : (logX s e o f d).link = s.link := rfl
@[simp] theorem logX_waves (e o f : Nat) (d : List Byte) : (logX s e o f d).waves = s.waves := rfl
@[simp] theorem logX_groups (e o f : Nat) (d : List Byte) : (logX s e o f d).groups = s.groups := rfl
@[simp] theorem logX_tmsgs (e o f : Nat) (d : List Byte) : (logX s e o f d).tmsgs = s.tmsgs := rfl
@[simp] theorem logX_shOps (e o f : Nat) (d : List Byte) : (logX s e o f d).shOps = s.shOps := rfl
@[simp] theorem logX_rend (e o f : Nat) (d : List Byte) : (logX s e o f d).rend = s.rend := rfl
@[simp] theorem logX_disp (e o f : Nat) (d : List Byte) : (logX s e o f d).disp = s.disp := rfl
@[simp] theorem logX_care (e o f : Nat) (d : List Byte) : (logX s e o f d).care = s.care := rfl
@[simp] theorem logX_mgmt (e o f : Nat) (d : List Byte) : (logX s e o f d).mgmt = s.mgmt := rfl
@[simp] theorem logX_rail (e o f : Nat) (d : List Byte) : (logX s e o f d).rail = s.rail := rfl
@[simp] theorem logX_clusters (e o f : Nat) (d : List Byte) : (logX s e o f d).clusters = s.clusters := rfl
@[simp] theorem logX_pwr (e o f : Nat) (d : List Byte) : (logX s e o f d).pwr = s.pwr := rfl
@[simp] theorem logX_jtag (e o f : Nat) (d : List Byte) : (logX s e o f d).jtag = s.jtag := rfl
@[simp] theorem logX_heldTlps (e o f : Nat) (d : List Byte) : (logX s e o f d).heldTlps = s.heldTlps := rfl
@[simp] theorem logX_out (e o f : Nat) (d : List Byte) : (logX s e o f d).out = s.out := rfl
@[simp] theorem logX_waiting (e o f : Nat) (d : List Byte) : (logX s e o f d).waiting = s.waiting := rfl
@[simp] theorem logX_ramGen (e o f : Nat) (d : List Byte) : (logX s e o f d).ramGen = s.ramGen := rfl
@[simp] theorem logX_hrelaxed (e o f : Nat) (d : List Byte) : (logX s e o f d).hrelaxed = s.hrelaxed := rfl
@[simp] theorem logX_pcie (e o f : Nat) (d : List Byte) : (logX s e o f d).pcie = s.pcie := rfl
@[simp] theorem logX_dispatched (e o f : Nat) (d : List Byte) : (logX s e o f d).dispatched = s.dispatched := rfl

@[simp] theorem logK_pending (e : Nat) (d : List Byte) : (logK s e d).pending = s.pending := rfl
@[simp] theorem logK_clk (e : Nat) (d : List Byte) : (logK s e d).clk = s.clk := rfl
@[simp] theorem logK_regs (e : Nat) (d : List Byte) : (logK s e d).regs = s.regs := rfl
@[simp] theorem logK_force (e : Nat) (d : List Byte) : (logK s e d).force = s.force := rfl
@[simp] theorem logK_dirty (e : Nat) (d : List Byte) : (logK s e d).dirty = s.dirty := rfl
@[simp] theorem logK_hostLatch (e : Nat) (d : List Byte) : (logK s e d).hostLatch = s.hostLatch := rfl
@[simp] theorem logK_mgmtLatch (e : Nat) (d : List Byte) : (logK s e d).mgmtLatch = s.mgmtLatch := rfl
@[simp] theorem logK_ctr (e : Nat) (d : List Byte) : (logK s e d).ctr = s.ctr := rfl
@[simp] theorem logK_mem (e : Nat) (d : List Byte) : (logK s e d).mem = s.mem := rfl
@[simp] theorem logK_hmem (e : Nat) (d : List Byte) : (logK s e d).hmem = s.hmem := rfl
@[simp] theorem logK_freeCtr (e : Nat) (d : List Byte) : (logK s e d).freeCtr = s.freeCtr := rfl
@[simp] theorem logK_fns (e : Nat) (d : List Byte) : (logK s e d).fns = s.fns := rfl
@[simp] theorem logK_tt (e : Nat) (d : List Byte) : (logK s e d).tt = s.tt := rfl
@[simp] theorem logK_progs (e : Nat) (d : List Byte) : (logK s e d).progs = s.progs := rfl
@[simp] theorem logK_xl (e : Nat) (d : List Byte) : (logK s e d).xl = s.xl := rfl
@[simp] theorem logK_cache (e : Nat) (d : List Byte) : (logK s e d).cache = s.cache := rfl
@[simp] theorem logK_eng (e : Nat) (d : List Byte) : (logK s e d).eng = s.eng := rfl
@[simp] theorem logK_boot (e : Nat) (d : List Byte) : (logK s e d).boot = s.boot := rfl
@[simp] theorem logK_trace (e : Nat) (d : List Byte) : (logK s e d).trace = s.trace := rfl
@[simp] theorem logK_vfs (e : Nat) (d : List Byte) : (logK s e d).vfs = s.vfs := rfl
@[simp] theorem logK_priEn (e : Nat) (d : List Byte) : (logK s e d).priEn = s.priEn := rfl
@[simp] theorem logK_priAlloc (e : Nat) (d : List Byte) : (logK s e d).priAlloc = s.priAlloc := rfl
@[simp] theorem logK_islands (e : Nat) (d : List Byte) : (logK s e d).islands = s.islands := rfl
@[simp] theorem logK_link (e : Nat) (d : List Byte) : (logK s e d).link = s.link := rfl
@[simp] theorem logK_waves (e : Nat) (d : List Byte) : (logK s e d).waves = s.waves := rfl
@[simp] theorem logK_groups (e : Nat) (d : List Byte) : (logK s e d).groups = s.groups := rfl
@[simp] theorem logK_tmsgs (e : Nat) (d : List Byte) : (logK s e d).tmsgs = s.tmsgs := rfl
@[simp] theorem logK_shOps (e : Nat) (d : List Byte) : (logK s e d).shOps = s.shOps := rfl
@[simp] theorem logK_rend (e : Nat) (d : List Byte) : (logK s e d).rend = s.rend := rfl
@[simp] theorem logK_disp (e : Nat) (d : List Byte) : (logK s e d).disp = s.disp := rfl
@[simp] theorem logK_care (e : Nat) (d : List Byte) : (logK s e d).care = s.care := rfl
@[simp] theorem logK_mgmt (e : Nat) (d : List Byte) : (logK s e d).mgmt = s.mgmt := rfl
@[simp] theorem logK_rail (e : Nat) (d : List Byte) : (logK s e d).rail = s.rail := rfl
@[simp] theorem logK_clusters (e : Nat) (d : List Byte) : (logK s e d).clusters = s.clusters := rfl
@[simp] theorem logK_pwr (e : Nat) (d : List Byte) : (logK s e d).pwr = s.pwr := rfl
@[simp] theorem logK_jtag (e : Nat) (d : List Byte) : (logK s e d).jtag = s.jtag := rfl
@[simp] theorem logK_heldTlps (e : Nat) (d : List Byte) : (logK s e d).heldTlps = s.heldTlps := rfl
@[simp] theorem logK_out (e : Nat) (d : List Byte) : (logK s e d).out = s.out := rfl
@[simp] theorem logK_waiting (e : Nat) (d : List Byte) : (logK s e d).waiting = s.waiting := rfl
@[simp] theorem logK_ramGen (e : Nat) (d : List Byte) : (logK s e d).ramGen = s.ramGen := rfl
@[simp] theorem logK_hrelaxed (e : Nat) (d : List Byte) : (logK s e d).hrelaxed = s.hrelaxed := rfl
@[simp] theorem logK_pcie (e : Nat) (d : List Byte) : (logK s e d).pcie = s.pcie := rfl
@[simp] theorem logK_dispatched (e : Nat) (d : List Byte) : (logK s e d).dispatched = s.dispatched := rfl

@[simp] theorem setPort_pending (p : Nat) (x : Port) : (setPort s p x).pending = s.pending := rfl
@[simp] theorem setPort_clk (p : Nat) (x : Port) : (setPort s p x).clk = s.clk := rfl
@[simp] theorem setPort_regs (p : Nat) (x : Port) : (setPort s p x).regs = s.regs := rfl
@[simp] theorem setPort_force (p : Nat) (x : Port) : (setPort s p x).force = s.force := rfl
@[simp] theorem setPort_dirty (p : Nat) (x : Port) : (setPort s p x).dirty = s.dirty := rfl
@[simp] theorem setPort_hostLatch (p : Nat) (x : Port) : (setPort s p x).hostLatch = s.hostLatch := rfl
@[simp] theorem setPort_mgmtLatch (p : Nat) (x : Port) : (setPort s p x).mgmtLatch = s.mgmtLatch := rfl
@[simp] theorem setPort_ctr (p : Nat) (x : Port) : (setPort s p x).ctr = s.ctr := rfl
@[simp] theorem setPort_mem (p : Nat) (x : Port) : (setPort s p x).mem = s.mem := rfl
@[simp] theorem setPort_hmem (p : Nat) (x : Port) : (setPort s p x).hmem = s.hmem := rfl
@[simp] theorem setPort_freeCtr (p : Nat) (x : Port) : (setPort s p x).freeCtr = s.freeCtr := rfl
@[simp] theorem setPort_fns (p : Nat) (x : Port) : (setPort s p x).fns = s.fns := rfl
@[simp] theorem setPort_tt (p : Nat) (x : Port) : (setPort s p x).tt = s.tt := rfl
@[simp] theorem setPort_progs (p : Nat) (x : Port) : (setPort s p x).progs = s.progs := rfl
@[simp] theorem setPort_xl (p : Nat) (x : Port) : (setPort s p x).xl = s.xl := rfl
@[simp] theorem setPort_cache (p : Nat) (x : Port) : (setPort s p x).cache = s.cache := rfl
@[simp] theorem setPort_eng (p : Nat) (x : Port) : (setPort s p x).eng = s.eng := rfl
@[simp] theorem setPort_boot (p : Nat) (x : Port) : (setPort s p x).boot = s.boot := rfl
@[simp] theorem setPort_log (p : Nat) (x : Port) : (setPort s p x).log = s.log := rfl
@[simp] theorem setPort_trace (p : Nat) (x : Port) : (setPort s p x).trace = s.trace := rfl
@[simp] theorem setPort_vfs (p : Nat) (x : Port) : (setPort s p x).vfs = s.vfs := rfl
@[simp] theorem setPort_priEn (p : Nat) (x : Port) : (setPort s p x).priEn = s.priEn := rfl
@[simp] theorem setPort_priAlloc (p : Nat) (x : Port) : (setPort s p x).priAlloc = s.priAlloc := rfl
@[simp] theorem setPort_islands (p : Nat) (x : Port) : (setPort s p x).islands = s.islands := rfl
@[simp] theorem setPort_waves (p : Nat) (x : Port) : (setPort s p x).waves = s.waves := rfl
@[simp] theorem setPort_groups (p : Nat) (x : Port) : (setPort s p x).groups = s.groups := rfl
@[simp] theorem setPort_tmsgs (p : Nat) (x : Port) : (setPort s p x).tmsgs = s.tmsgs := rfl
@[simp] theorem setPort_shOps (p : Nat) (x : Port) : (setPort s p x).shOps = s.shOps := rfl
@[simp] theorem setPort_rend (p : Nat) (x : Port) : (setPort s p x).rend = s.rend := rfl
@[simp] theorem setPort_disp (p : Nat) (x : Port) : (setPort s p x).disp = s.disp := rfl
@[simp] theorem setPort_care (p : Nat) (x : Port) : (setPort s p x).care = s.care := rfl
@[simp] theorem setPort_mgmt (p : Nat) (x : Port) : (setPort s p x).mgmt = s.mgmt := rfl
@[simp] theorem setPort_rail (p : Nat) (x : Port) : (setPort s p x).rail = s.rail := rfl
@[simp] theorem setPort_clusters (p : Nat) (x : Port) : (setPort s p x).clusters = s.clusters := rfl
@[simp] theorem setPort_pwr (p : Nat) (x : Port) : (setPort s p x).pwr = s.pwr := rfl
@[simp] theorem setPort_jtag (p : Nat) (x : Port) : (setPort s p x).jtag = s.jtag := rfl
@[simp] theorem setPort_heldTlps (p : Nat) (x : Port) : (setPort s p x).heldTlps = s.heldTlps := rfl
@[simp] theorem setPort_out (p : Nat) (x : Port) : (setPort s p x).out = s.out := rfl
@[simp] theorem setPort_waiting (p : Nat) (x : Port) : (setPort s p x).waiting = s.waiting := rfl
@[simp] theorem setPort_ramGen (p : Nat) (x : Port) : (setPort s p x).ramGen = s.ramGen := rfl
@[simp] theorem setPort_hrelaxed (p : Nat) (x : Port) : (setPort s p x).hrelaxed = s.hrelaxed := rfl
@[simp] theorem setPort_pcie (p : Nat) (x : Port) : (setPort s p x).pcie = s.pcie := rfl
@[simp] theorem setPort_dispatched (p : Nat) (x : Port) : (setPort s p x).dispatched = s.dispatched := rfl

@[simp] theorem modBoot_pending (g : Boot → Boot) : (modBoot s g).pending = s.pending := rfl
@[simp] theorem modBoot_clk (g : Boot → Boot) : (modBoot s g).clk = s.clk := rfl
@[simp] theorem modBoot_regs (g : Boot → Boot) : (modBoot s g).regs = s.regs := rfl
@[simp] theorem modBoot_force (g : Boot → Boot) : (modBoot s g).force = s.force := rfl
@[simp] theorem modBoot_dirty (g : Boot → Boot) : (modBoot s g).dirty = s.dirty := rfl
@[simp] theorem modBoot_hostLatch (g : Boot → Boot) : (modBoot s g).hostLatch = s.hostLatch := rfl
@[simp] theorem modBoot_mgmtLatch (g : Boot → Boot) : (modBoot s g).mgmtLatch = s.mgmtLatch := rfl
@[simp] theorem modBoot_ctr (g : Boot → Boot) : (modBoot s g).ctr = s.ctr := rfl
@[simp] theorem modBoot_mem (g : Boot → Boot) : (modBoot s g).mem = s.mem := rfl
@[simp] theorem modBoot_hmem (g : Boot → Boot) : (modBoot s g).hmem = s.hmem := rfl
@[simp] theorem modBoot_freeCtr (g : Boot → Boot) : (modBoot s g).freeCtr = s.freeCtr := rfl
@[simp] theorem modBoot_fns (g : Boot → Boot) : (modBoot s g).fns = s.fns := rfl
@[simp] theorem modBoot_tt (g : Boot → Boot) : (modBoot s g).tt = s.tt := rfl
@[simp] theorem modBoot_progs (g : Boot → Boot) : (modBoot s g).progs = s.progs := rfl
@[simp] theorem modBoot_xl (g : Boot → Boot) : (modBoot s g).xl = s.xl := rfl
@[simp] theorem modBoot_cache (g : Boot → Boot) : (modBoot s g).cache = s.cache := rfl
@[simp] theorem modBoot_eng (g : Boot → Boot) : (modBoot s g).eng = s.eng := rfl
@[simp] theorem modBoot_log (g : Boot → Boot) : (modBoot s g).log = s.log := rfl
@[simp] theorem modBoot_trace (g : Boot → Boot) : (modBoot s g).trace = s.trace := rfl
@[simp] theorem modBoot_vfs (g : Boot → Boot) : (modBoot s g).vfs = s.vfs := rfl
@[simp] theorem modBoot_priEn (g : Boot → Boot) : (modBoot s g).priEn = s.priEn := rfl
@[simp] theorem modBoot_priAlloc (g : Boot → Boot) : (modBoot s g).priAlloc = s.priAlloc := rfl
@[simp] theorem modBoot_islands (g : Boot → Boot) : (modBoot s g).islands = s.islands := rfl
@[simp] theorem modBoot_link (g : Boot → Boot) : (modBoot s g).link = s.link := rfl
@[simp] theorem modBoot_waves (g : Boot → Boot) : (modBoot s g).waves = s.waves := rfl
@[simp] theorem modBoot_groups (g : Boot → Boot) : (modBoot s g).groups = s.groups := rfl
@[simp] theorem modBoot_tmsgs (g : Boot → Boot) : (modBoot s g).tmsgs = s.tmsgs := rfl
@[simp] theorem modBoot_shOps (g : Boot → Boot) : (modBoot s g).shOps = s.shOps := rfl
@[simp] theorem modBoot_rend (g : Boot → Boot) : (modBoot s g).rend = s.rend := rfl
@[simp] theorem modBoot_disp (g : Boot → Boot) : (modBoot s g).disp = s.disp := rfl
@[simp] theorem modBoot_care (g : Boot → Boot) : (modBoot s g).care = s.care := rfl
@[simp] theorem modBoot_mgmt (g : Boot → Boot) : (modBoot s g).mgmt = s.mgmt := rfl
@[simp] theorem modBoot_rail (g : Boot → Boot) : (modBoot s g).rail = s.rail := rfl
@[simp] theorem modBoot_clusters (g : Boot → Boot) : (modBoot s g).clusters = s.clusters := rfl
@[simp] theorem modBoot_pwr (g : Boot → Boot) : (modBoot s g).pwr = s.pwr := rfl
@[simp] theorem modBoot_jtag (g : Boot → Boot) : (modBoot s g).jtag = s.jtag := rfl
@[simp] theorem modBoot_heldTlps (g : Boot → Boot) : (modBoot s g).heldTlps = s.heldTlps := rfl
@[simp] theorem modBoot_out (g : Boot → Boot) : (modBoot s g).out = s.out := rfl
@[simp] theorem modBoot_waiting (g : Boot → Boot) : (modBoot s g).waiting = s.waiting := rfl
@[simp] theorem modBoot_ramGen (g : Boot → Boot) : (modBoot s g).ramGen = s.ramGen := rfl
@[simp] theorem modBoot_hrelaxed (g : Boot → Boot) : (modBoot s g).hrelaxed = s.hrelaxed := rfl
@[simp] theorem modBoot_pcie (g : Boot → Boot) : (modBoot s g).pcie = s.pcie := rfl
@[simp] theorem modBoot_dispatched (g : Boot → Boot) : (modBoot s g).dispatched = s.dispatched := rfl

@[simp] theorem modRail_pending (g : Rail → Rail) : (modRail s g).pending = s.pending := rfl
@[simp] theorem modRail_clk (g : Rail → Rail) : (modRail s g).clk = s.clk := rfl
@[simp] theorem modRail_regs (g : Rail → Rail) : (modRail s g).regs = s.regs := rfl
@[simp] theorem modRail_force (g : Rail → Rail) : (modRail s g).force = s.force := rfl
@[simp] theorem modRail_dirty (g : Rail → Rail) : (modRail s g).dirty = s.dirty := rfl
@[simp] theorem modRail_hostLatch (g : Rail → Rail) : (modRail s g).hostLatch = s.hostLatch := rfl
@[simp] theorem modRail_mgmtLatch (g : Rail → Rail) : (modRail s g).mgmtLatch = s.mgmtLatch := rfl
@[simp] theorem modRail_ctr (g : Rail → Rail) : (modRail s g).ctr = s.ctr := rfl
@[simp] theorem modRail_mem (g : Rail → Rail) : (modRail s g).mem = s.mem := rfl
@[simp] theorem modRail_hmem (g : Rail → Rail) : (modRail s g).hmem = s.hmem := rfl
@[simp] theorem modRail_freeCtr (g : Rail → Rail) : (modRail s g).freeCtr = s.freeCtr := rfl
@[simp] theorem modRail_fns (g : Rail → Rail) : (modRail s g).fns = s.fns := rfl
@[simp] theorem modRail_tt (g : Rail → Rail) : (modRail s g).tt = s.tt := rfl
@[simp] theorem modRail_progs (g : Rail → Rail) : (modRail s g).progs = s.progs := rfl
@[simp] theorem modRail_xl (g : Rail → Rail) : (modRail s g).xl = s.xl := rfl
@[simp] theorem modRail_cache (g : Rail → Rail) : (modRail s g).cache = s.cache := rfl
@[simp] theorem modRail_eng (g : Rail → Rail) : (modRail s g).eng = s.eng := rfl
@[simp] theorem modRail_boot (g : Rail → Rail) : (modRail s g).boot = s.boot := rfl
@[simp] theorem modRail_log (g : Rail → Rail) : (modRail s g).log = s.log := rfl
@[simp] theorem modRail_trace (g : Rail → Rail) : (modRail s g).trace = s.trace := rfl
@[simp] theorem modRail_vfs (g : Rail → Rail) : (modRail s g).vfs = s.vfs := rfl
@[simp] theorem modRail_priEn (g : Rail → Rail) : (modRail s g).priEn = s.priEn := rfl
@[simp] theorem modRail_priAlloc (g : Rail → Rail) : (modRail s g).priAlloc = s.priAlloc := rfl
@[simp] theorem modRail_islands (g : Rail → Rail) : (modRail s g).islands = s.islands := rfl
@[simp] theorem modRail_link (g : Rail → Rail) : (modRail s g).link = s.link := rfl
@[simp] theorem modRail_waves (g : Rail → Rail) : (modRail s g).waves = s.waves := rfl
@[simp] theorem modRail_groups (g : Rail → Rail) : (modRail s g).groups = s.groups := rfl
@[simp] theorem modRail_tmsgs (g : Rail → Rail) : (modRail s g).tmsgs = s.tmsgs := rfl
@[simp] theorem modRail_shOps (g : Rail → Rail) : (modRail s g).shOps = s.shOps := rfl
@[simp] theorem modRail_rend (g : Rail → Rail) : (modRail s g).rend = s.rend := rfl
@[simp] theorem modRail_disp (g : Rail → Rail) : (modRail s g).disp = s.disp := rfl
@[simp] theorem modRail_care (g : Rail → Rail) : (modRail s g).care = s.care := rfl
@[simp] theorem modRail_mgmt (g : Rail → Rail) : (modRail s g).mgmt = s.mgmt := rfl
@[simp] theorem modRail_clusters (g : Rail → Rail) : (modRail s g).clusters = s.clusters := rfl
@[simp] theorem modRail_pwr (g : Rail → Rail) : (modRail s g).pwr = s.pwr := rfl
@[simp] theorem modRail_jtag (g : Rail → Rail) : (modRail s g).jtag = s.jtag := rfl
@[simp] theorem modRail_heldTlps (g : Rail → Rail) : (modRail s g).heldTlps = s.heldTlps := rfl
@[simp] theorem modRail_out (g : Rail → Rail) : (modRail s g).out = s.out := rfl
@[simp] theorem modRail_waiting (g : Rail → Rail) : (modRail s g).waiting = s.waiting := rfl
@[simp] theorem modRail_ramGen (g : Rail → Rail) : (modRail s g).ramGen = s.ramGen := rfl
@[simp] theorem modRail_hrelaxed (g : Rail → Rail) : (modRail s g).hrelaxed = s.hrelaxed := rfl
@[simp] theorem modRail_pcie (g : Rail → Rail) : (modRail s g).pcie = s.pcie := rfl
@[simp] theorem modRail_dispatched (g : Rail → Rail) : (modRail s g).dispatched = s.dispatched := rfl

@[simp] theorem modPwr_pending (g : Power → Power) : (modPwr s g).pending = s.pending := rfl
@[simp] theorem modPwr_clk (g : Power → Power) : (modPwr s g).clk = s.clk := rfl
@[simp] theorem modPwr_regs (g : Power → Power) : (modPwr s g).regs = s.regs := rfl
@[simp] theorem modPwr_force (g : Power → Power) : (modPwr s g).force = s.force := rfl
@[simp] theorem modPwr_dirty (g : Power → Power) : (modPwr s g).dirty = s.dirty := rfl
@[simp] theorem modPwr_hostLatch (g : Power → Power) : (modPwr s g).hostLatch = s.hostLatch := rfl
@[simp] theorem modPwr_mgmtLatch (g : Power → Power) : (modPwr s g).mgmtLatch = s.mgmtLatch := rfl
@[simp] theorem modPwr_ctr (g : Power → Power) : (modPwr s g).ctr = s.ctr := rfl
@[simp] theorem modPwr_mem (g : Power → Power) : (modPwr s g).mem = s.mem := rfl
@[simp] theorem modPwr_hmem (g : Power → Power) : (modPwr s g).hmem = s.hmem := rfl
@[simp] theorem modPwr_freeCtr (g : Power → Power) : (modPwr s g).freeCtr = s.freeCtr := rfl
@[simp] theorem modPwr_fns (g : Power → Power) : (modPwr s g).fns = s.fns := rfl
@[simp] theorem modPwr_tt (g : Power → Power) : (modPwr s g).tt = s.tt := rfl
@[simp] theorem modPwr_progs (g : Power → Power) : (modPwr s g).progs = s.progs := rfl
@[simp] theorem modPwr_xl (g : Power → Power) : (modPwr s g).xl = s.xl := rfl
@[simp] theorem modPwr_cache (g : Power → Power) : (modPwr s g).cache = s.cache := rfl
@[simp] theorem modPwr_eng (g : Power → Power) : (modPwr s g).eng = s.eng := rfl
@[simp] theorem modPwr_boot (g : Power → Power) : (modPwr s g).boot = s.boot := rfl
@[simp] theorem modPwr_log (g : Power → Power) : (modPwr s g).log = s.log := rfl
@[simp] theorem modPwr_trace (g : Power → Power) : (modPwr s g).trace = s.trace := rfl
@[simp] theorem modPwr_vfs (g : Power → Power) : (modPwr s g).vfs = s.vfs := rfl
@[simp] theorem modPwr_priEn (g : Power → Power) : (modPwr s g).priEn = s.priEn := rfl
@[simp] theorem modPwr_priAlloc (g : Power → Power) : (modPwr s g).priAlloc = s.priAlloc := rfl
@[simp] theorem modPwr_islands (g : Power → Power) : (modPwr s g).islands = s.islands := rfl
@[simp] theorem modPwr_link (g : Power → Power) : (modPwr s g).link = s.link := rfl
@[simp] theorem modPwr_waves (g : Power → Power) : (modPwr s g).waves = s.waves := rfl
@[simp] theorem modPwr_groups (g : Power → Power) : (modPwr s g).groups = s.groups := rfl
@[simp] theorem modPwr_tmsgs (g : Power → Power) : (modPwr s g).tmsgs = s.tmsgs := rfl
@[simp] theorem modPwr_shOps (g : Power → Power) : (modPwr s g).shOps = s.shOps := rfl
@[simp] theorem modPwr_rend (g : Power → Power) : (modPwr s g).rend = s.rend := rfl
@[simp] theorem modPwr_disp (g : Power → Power) : (modPwr s g).disp = s.disp := rfl
@[simp] theorem modPwr_care (g : Power → Power) : (modPwr s g).care = s.care := rfl
@[simp] theorem modPwr_mgmt (g : Power → Power) : (modPwr s g).mgmt = s.mgmt := rfl
@[simp] theorem modPwr_rail (g : Power → Power) : (modPwr s g).rail = s.rail := rfl
@[simp] theorem modPwr_clusters (g : Power → Power) : (modPwr s g).clusters = s.clusters := rfl
@[simp] theorem modPwr_jtag (g : Power → Power) : (modPwr s g).jtag = s.jtag := rfl
@[simp] theorem modPwr_heldTlps (g : Power → Power) : (modPwr s g).heldTlps = s.heldTlps := rfl
@[simp] theorem modPwr_out (g : Power → Power) : (modPwr s g).out = s.out := rfl
@[simp] theorem modPwr_waiting (g : Power → Power) : (modPwr s g).waiting = s.waiting := rfl
@[simp] theorem modPwr_ramGen (g : Power → Power) : (modPwr s g).ramGen = s.ramGen := rfl
@[simp] theorem modPwr_hrelaxed (g : Power → Power) : (modPwr s g).hrelaxed = s.hrelaxed := rfl
@[simp] theorem modPwr_pcie (g : Power → Power) : (modPwr s g).pcie = s.pcie := rfl
@[simp] theorem modPwr_dispatched (g : Power → Power) : (modPwr s g).dispatched = s.dispatched := rfl

@[simp] theorem modDisp_pending (g : Display → Display) : (modDisp s g).pending = s.pending := rfl
@[simp] theorem modDisp_clk (g : Display → Display) : (modDisp s g).clk = s.clk := rfl
@[simp] theorem modDisp_regs (g : Display → Display) : (modDisp s g).regs = s.regs := rfl
@[simp] theorem modDisp_force (g : Display → Display) : (modDisp s g).force = s.force := rfl
@[simp] theorem modDisp_dirty (g : Display → Display) : (modDisp s g).dirty = s.dirty := rfl
@[simp] theorem modDisp_hostLatch (g : Display → Display) : (modDisp s g).hostLatch = s.hostLatch := rfl
@[simp] theorem modDisp_mgmtLatch (g : Display → Display) : (modDisp s g).mgmtLatch = s.mgmtLatch := rfl
@[simp] theorem modDisp_ctr (g : Display → Display) : (modDisp s g).ctr = s.ctr := rfl
@[simp] theorem modDisp_mem (g : Display → Display) : (modDisp s g).mem = s.mem := rfl
@[simp] theorem modDisp_hmem (g : Display → Display) : (modDisp s g).hmem = s.hmem := rfl
@[simp] theorem modDisp_freeCtr (g : Display → Display) : (modDisp s g).freeCtr = s.freeCtr := rfl
@[simp] theorem modDisp_fns (g : Display → Display) : (modDisp s g).fns = s.fns := rfl
@[simp] theorem modDisp_tt (g : Display → Display) : (modDisp s g).tt = s.tt := rfl
@[simp] theorem modDisp_progs (g : Display → Display) : (modDisp s g).progs = s.progs := rfl
@[simp] theorem modDisp_xl (g : Display → Display) : (modDisp s g).xl = s.xl := rfl
@[simp] theorem modDisp_cache (g : Display → Display) : (modDisp s g).cache = s.cache := rfl
@[simp] theorem modDisp_eng (g : Display → Display) : (modDisp s g).eng = s.eng := rfl
@[simp] theorem modDisp_boot (g : Display → Display) : (modDisp s g).boot = s.boot := rfl
@[simp] theorem modDisp_log (g : Display → Display) : (modDisp s g).log = s.log := rfl
@[simp] theorem modDisp_trace (g : Display → Display) : (modDisp s g).trace = s.trace := rfl
@[simp] theorem modDisp_vfs (g : Display → Display) : (modDisp s g).vfs = s.vfs := rfl
@[simp] theorem modDisp_priEn (g : Display → Display) : (modDisp s g).priEn = s.priEn := rfl
@[simp] theorem modDisp_priAlloc (g : Display → Display) : (modDisp s g).priAlloc = s.priAlloc := rfl
@[simp] theorem modDisp_islands (g : Display → Display) : (modDisp s g).islands = s.islands := rfl
@[simp] theorem modDisp_link (g : Display → Display) : (modDisp s g).link = s.link := rfl
@[simp] theorem modDisp_waves (g : Display → Display) : (modDisp s g).waves = s.waves := rfl
@[simp] theorem modDisp_groups (g : Display → Display) : (modDisp s g).groups = s.groups := rfl
@[simp] theorem modDisp_tmsgs (g : Display → Display) : (modDisp s g).tmsgs = s.tmsgs := rfl
@[simp] theorem modDisp_shOps (g : Display → Display) : (modDisp s g).shOps = s.shOps := rfl
@[simp] theorem modDisp_rend (g : Display → Display) : (modDisp s g).rend = s.rend := rfl
@[simp] theorem modDisp_care (g : Display → Display) : (modDisp s g).care = s.care := rfl
@[simp] theorem modDisp_mgmt (g : Display → Display) : (modDisp s g).mgmt = s.mgmt := rfl
@[simp] theorem modDisp_rail (g : Display → Display) : (modDisp s g).rail = s.rail := rfl
@[simp] theorem modDisp_clusters (g : Display → Display) : (modDisp s g).clusters = s.clusters := rfl
@[simp] theorem modDisp_pwr (g : Display → Display) : (modDisp s g).pwr = s.pwr := rfl
@[simp] theorem modDisp_jtag (g : Display → Display) : (modDisp s g).jtag = s.jtag := rfl
@[simp] theorem modDisp_heldTlps (g : Display → Display) : (modDisp s g).heldTlps = s.heldTlps := rfl
@[simp] theorem modDisp_out (g : Display → Display) : (modDisp s g).out = s.out := rfl
@[simp] theorem modDisp_waiting (g : Display → Display) : (modDisp s g).waiting = s.waiting := rfl
@[simp] theorem modDisp_ramGen (g : Display → Display) : (modDisp s g).ramGen = s.ramGen := rfl
@[simp] theorem modDisp_hrelaxed (g : Display → Display) : (modDisp s g).hrelaxed = s.hrelaxed := rfl
@[simp] theorem modDisp_pcie (g : Display → Display) : (modDisp s g).pcie = s.pcie := rfl
@[simp] theorem modDisp_dispatched (g : Display → Display) : (modDisp s g).dispatched = s.dispatched := rfl

@[simp] theorem modMgmt_pending (g : Mgmt → Mgmt) : (modMgmt s g).pending = s.pending := rfl
@[simp] theorem modMgmt_clk (g : Mgmt → Mgmt) : (modMgmt s g).clk = s.clk := rfl
@[simp] theorem modMgmt_regs (g : Mgmt → Mgmt) : (modMgmt s g).regs = s.regs := rfl
@[simp] theorem modMgmt_force (g : Mgmt → Mgmt) : (modMgmt s g).force = s.force := rfl
@[simp] theorem modMgmt_dirty (g : Mgmt → Mgmt) : (modMgmt s g).dirty = s.dirty := rfl
@[simp] theorem modMgmt_hostLatch (g : Mgmt → Mgmt) : (modMgmt s g).hostLatch = s.hostLatch := rfl
@[simp] theorem modMgmt_mgmtLatch (g : Mgmt → Mgmt) : (modMgmt s g).mgmtLatch = s.mgmtLatch := rfl
@[simp] theorem modMgmt_ctr (g : Mgmt → Mgmt) : (modMgmt s g).ctr = s.ctr := rfl
@[simp] theorem modMgmt_mem (g : Mgmt → Mgmt) : (modMgmt s g).mem = s.mem := rfl
@[simp] theorem modMgmt_hmem (g : Mgmt → Mgmt) : (modMgmt s g).hmem = s.hmem := rfl
@[simp] theorem modMgmt_freeCtr (g : Mgmt → Mgmt) : (modMgmt s g).freeCtr = s.freeCtr := rfl
@[simp] theorem modMgmt_fns (g : Mgmt → Mgmt) : (modMgmt s g).fns = s.fns := rfl
@[simp] theorem modMgmt_tt (g : Mgmt → Mgmt) : (modMgmt s g).tt = s.tt := rfl
@[simp] theorem modMgmt_progs (g : Mgmt → Mgmt) : (modMgmt s g).progs = s.progs := rfl
@[simp] theorem modMgmt_xl (g : Mgmt → Mgmt) : (modMgmt s g).xl = s.xl := rfl
@[simp] theorem modMgmt_cache (g : Mgmt → Mgmt) : (modMgmt s g).cache = s.cache := rfl
@[simp] theorem modMgmt_eng (g : Mgmt → Mgmt) : (modMgmt s g).eng = s.eng := rfl
@[simp] theorem modMgmt_boot (g : Mgmt → Mgmt) : (modMgmt s g).boot = s.boot := rfl
@[simp] theorem modMgmt_log (g : Mgmt → Mgmt) : (modMgmt s g).log = s.log := rfl
@[simp] theorem modMgmt_trace (g : Mgmt → Mgmt) : (modMgmt s g).trace = s.trace := rfl
@[simp] theorem modMgmt_vfs (g : Mgmt → Mgmt) : (modMgmt s g).vfs = s.vfs := rfl
@[simp] theorem modMgmt_priEn (g : Mgmt → Mgmt) : (modMgmt s g).priEn = s.priEn := rfl
@[simp] theorem modMgmt_priAlloc (g : Mgmt → Mgmt) : (modMgmt s g).priAlloc = s.priAlloc := rfl
@[simp] theorem modMgmt_islands (g : Mgmt → Mgmt) : (modMgmt s g).islands = s.islands := rfl
@[simp] theorem modMgmt_link (g : Mgmt → Mgmt) : (modMgmt s g).link = s.link := rfl
@[simp] theorem modMgmt_waves (g : Mgmt → Mgmt) : (modMgmt s g).waves = s.waves := rfl
@[simp] theorem modMgmt_groups (g : Mgmt → Mgmt) : (modMgmt s g).groups = s.groups := rfl
@[simp] theorem modMgmt_tmsgs (g : Mgmt → Mgmt) : (modMgmt s g).tmsgs = s.tmsgs := rfl
@[simp] theorem modMgmt_shOps (g : Mgmt → Mgmt) : (modMgmt s g).shOps = s.shOps := rfl
@[simp] theorem modMgmt_rend (g : Mgmt → Mgmt) : (modMgmt s g).rend = s.rend := rfl
@[simp] theorem modMgmt_disp (g : Mgmt → Mgmt) : (modMgmt s g).disp = s.disp := rfl
@[simp] theorem modMgmt_care (g : Mgmt → Mgmt) : (modMgmt s g).care = s.care := rfl
@[simp] theorem modMgmt_rail (g : Mgmt → Mgmt) : (modMgmt s g).rail = s.rail := rfl
@[simp] theorem modMgmt_clusters (g : Mgmt → Mgmt) : (modMgmt s g).clusters = s.clusters := rfl
@[simp] theorem modMgmt_pwr (g : Mgmt → Mgmt) : (modMgmt s g).pwr = s.pwr := rfl
@[simp] theorem modMgmt_jtag (g : Mgmt → Mgmt) : (modMgmt s g).jtag = s.jtag := rfl
@[simp] theorem modMgmt_heldTlps (g : Mgmt → Mgmt) : (modMgmt s g).heldTlps = s.heldTlps := rfl
@[simp] theorem modMgmt_out (g : Mgmt → Mgmt) : (modMgmt s g).out = s.out := rfl
@[simp] theorem modMgmt_waiting (g : Mgmt → Mgmt) : (modMgmt s g).waiting = s.waiting := rfl
@[simp] theorem modMgmt_ramGen (g : Mgmt → Mgmt) : (modMgmt s g).ramGen = s.ramGen := rfl
@[simp] theorem modMgmt_hrelaxed (g : Mgmt → Mgmt) : (modMgmt s g).hrelaxed = s.hrelaxed := rfl
@[simp] theorem modMgmt_pcie (g : Mgmt → Mgmt) : (modMgmt s g).pcie = s.pcie := rfl
@[simp] theorem modMgmt_dispatched (g : Mgmt → Mgmt) : (modMgmt s g).dispatched = s.dispatched := rfl

@[simp] theorem modJob_pending (j : Job) (g : Job → Job) : (modJob s j g).pending = s.pending := rfl
@[simp] theorem modJob_clk (j : Job) (g : Job → Job) : (modJob s j g).clk = s.clk := rfl
@[simp] theorem modJob_regs (j : Job) (g : Job → Job) : (modJob s j g).regs = s.regs := rfl
@[simp] theorem modJob_force (j : Job) (g : Job → Job) : (modJob s j g).force = s.force := rfl
@[simp] theorem modJob_dirty (j : Job) (g : Job → Job) : (modJob s j g).dirty = s.dirty := rfl
@[simp] theorem modJob_hostLatch (j : Job) (g : Job → Job) : (modJob s j g).hostLatch = s.hostLatch := rfl
@[simp] theorem modJob_mgmtLatch (j : Job) (g : Job → Job) : (modJob s j g).mgmtLatch = s.mgmtLatch := rfl
@[simp] theorem modJob_ctr (j : Job) (g : Job → Job) : (modJob s j g).ctr = s.ctr := rfl
@[simp] theorem modJob_mem (j : Job) (g : Job → Job) : (modJob s j g).mem = s.mem := rfl
@[simp] theorem modJob_hmem (j : Job) (g : Job → Job) : (modJob s j g).hmem = s.hmem := rfl
@[simp] theorem modJob_freeCtr (j : Job) (g : Job → Job) : (modJob s j g).freeCtr = s.freeCtr := rfl
@[simp] theorem modJob_fns (j : Job) (g : Job → Job) : (modJob s j g).fns = s.fns := rfl
@[simp] theorem modJob_progs (j : Job) (g : Job → Job) : (modJob s j g).progs = s.progs := rfl
@[simp] theorem modJob_xl (j : Job) (g : Job → Job) : (modJob s j g).xl = s.xl := rfl
@[simp] theorem modJob_cache (j : Job) (g : Job → Job) : (modJob s j g).cache = s.cache := rfl
@[simp] theorem modJob_eng (j : Job) (g : Job → Job) : (modJob s j g).eng = s.eng := rfl
@[simp] theorem modJob_boot (j : Job) (g : Job → Job) : (modJob s j g).boot = s.boot := rfl
@[simp] theorem modJob_log (j : Job) (g : Job → Job) : (modJob s j g).log = s.log := rfl
@[simp] theorem modJob_trace (j : Job) (g : Job → Job) : (modJob s j g).trace = s.trace := rfl
@[simp] theorem modJob_vfs (j : Job) (g : Job → Job) : (modJob s j g).vfs = s.vfs := rfl
@[simp] theorem modJob_priEn (j : Job) (g : Job → Job) : (modJob s j g).priEn = s.priEn := rfl
@[simp] theorem modJob_priAlloc (j : Job) (g : Job → Job) : (modJob s j g).priAlloc = s.priAlloc := rfl
@[simp] theorem modJob_islands (j : Job) (g : Job → Job) : (modJob s j g).islands = s.islands := rfl
@[simp] theorem modJob_link (j : Job) (g : Job → Job) : (modJob s j g).link = s.link := rfl
@[simp] theorem modJob_waves (j : Job) (g : Job → Job) : (modJob s j g).waves = s.waves := rfl
@[simp] theorem modJob_groups (j : Job) (g : Job → Job) : (modJob s j g).groups = s.groups := rfl
@[simp] theorem modJob_tmsgs (j : Job) (g : Job → Job) : (modJob s j g).tmsgs = s.tmsgs := rfl
@[simp] theorem modJob_shOps (j : Job) (g : Job → Job) : (modJob s j g).shOps = s.shOps := rfl
@[simp] theorem modJob_rend (j : Job) (g : Job → Job) : (modJob s j g).rend = s.rend := rfl
@[simp] theorem modJob_disp (j : Job) (g : Job → Job) : (modJob s j g).disp = s.disp := rfl
@[simp] theorem modJob_care (j : Job) (g : Job → Job) : (modJob s j g).care = s.care := rfl
@[simp] theorem modJob_mgmt (j : Job) (g : Job → Job) : (modJob s j g).mgmt = s.mgmt := rfl
@[simp] theorem modJob_rail (j : Job) (g : Job → Job) : (modJob s j g).rail = s.rail := rfl
@[simp] theorem modJob_clusters (j : Job) (g : Job → Job) : (modJob s j g).clusters = s.clusters := rfl
@[simp] theorem modJob_pwr (j : Job) (g : Job → Job) : (modJob s j g).pwr = s.pwr := rfl
@[simp] theorem modJob_jtag (j : Job) (g : Job → Job) : (modJob s j g).jtag = s.jtag := rfl
@[simp] theorem modJob_heldTlps (j : Job) (g : Job → Job) : (modJob s j g).heldTlps = s.heldTlps := rfl
@[simp] theorem modJob_out (j : Job) (g : Job → Job) : (modJob s j g).out = s.out := rfl
@[simp] theorem modJob_waiting (j : Job) (g : Job → Job) : (modJob s j g).waiting = s.waiting := rfl
@[simp] theorem modJob_ramGen (j : Job) (g : Job → Job) : (modJob s j g).ramGen = s.ramGen := rfl
@[simp] theorem modJob_hrelaxed (j : Job) (g : Job → Job) : (modJob s j g).hrelaxed = s.hrelaxed := rfl
@[simp] theorem modJob_pcie (j : Job) (g : Job → Job) : (modJob s j g).pcie = s.pcie := rfl
@[simp] theorem modJob_dispatched (j : Job) (g : Job → Job) : (modJob s j g).dispatched = s.dispatched := rfl

/-! ### The field that changes -/

@[simp] theorem modBoot_boot (g : Boot → Boot) : (modBoot s g).boot = g s.boot := rfl
@[simp] theorem modRail_rail (g : Rail → Rail) : (modRail s g).rail = g s.rail := rfl
@[simp] theorem modPwr_pwr (g : Power → Power) : (modPwr s g).pwr = g s.pwr := rfl
@[simp] theorem modDisp_disp (g : Display → Display) : (modDisp s g).disp = g s.disp := rfl
@[simp] theorem modMgmt_mgmt (g : Mgmt → Mgmt) : (modMgmt s g).mgmt = g s.mgmt := rfl

end Sys2Proof.Machine
end

