-- ==== Sys2Proof/Laws/Tab.lean ====
section
/-! SUPPORT. Sparse tables: what a read gives after a write, and that a write keeps the canonical form. -/

namespace Sys2Proof.Machine

theorem Tab.find_erase_self {α : Type} (t : Tab α) (i : Nat) : Tab.find (Tab.erase t i) i = none := by
  induction t with
  | nil => rfl
  | cons e t ih =>
    obtain ⟨k, v⟩ := e
    by_cases h : k = i <;> simp [Tab.erase, Tab.find, h, ih]

theorem Tab.find_erase_ne {α : Type} (t : Tab α) {i j : Nat} (hij : j ≠ i) : Tab.find (Tab.erase t i) j = Tab.find t j := by
  induction t with
  | nil => rfl
  | cons e t ih =>
    obtain ⟨k, v⟩ := e
    by_cases h : k = i
    · subst h; simp [Tab.erase, Tab.find, ih, Ne.symm hij]
    · simp only [Tab.erase, if_neg h, Tab.find, ih]

theorem Tab.find_insert_self {α : Type} (t : Tab α) (i : Nat) (x : α) : Tab.find (Tab.insert t i x) i = some x := by
  induction t with
  | nil => simp [Tab.insert, Tab.find]
  | cons e t ih =>
    obtain ⟨k, v⟩ := e
    simp only [Tab.insert]
    split
    · simp [Tab.find]
    · split
      · simp [Tab.find]
      · rename_i h; simp [Tab.find, h, ih]

theorem Tab.find_insert_ne {α : Type} (t : Tab α) {i j : Nat} (x : α) (hij : j ≠ i) :
    Tab.find (Tab.insert t i x) j = Tab.find t j := by
  induction t with
  | nil => simp [Tab.insert, Tab.find, Ne.symm hij]
  | cons e t ih =>
    obtain ⟨k, v⟩ := e
    simp only [Tab.insert]
    split
    · simp [Tab.find, Ne.symm hij]
    · split
      · rename_i h; subst h; simp [Tab.find, Ne.symm hij]
      · simp only [Tab.find, ih]

/-- Reading the key just written gives the value written. -/
theorem Tab.get_set_self {α : Type} [DecidableEq α] (d : α) (t : Tab α) (i : Nat) (x : α) :
    Tab.get d (Tab.set d t i x) i = x := by
  unfold Tab.get Tab.set
  split
  · rename_i h; simp [Tab.find_erase_self, h]
  · simp [Tab.find_insert_self]

/-- Another key reads as before. -/
theorem Tab.get_set_ne {α : Type} [DecidableEq α] (d : α) (t : Tab α) {i j : Nat} (x : α) (hij : j ≠ i) :
    Tab.get d (Tab.set d t i x) j = Tab.get d t j := by
  unfold Tab.get Tab.set
  split
  · rw [Tab.find_erase_ne t hij]
  · rw [Tab.find_insert_ne t x hij]

/-- Both at once. -/
theorem Tab.get_set {α : Type} [DecidableEq α] (d : α) (t : Tab α) (i j : Nat) (x : α) :
    Tab.get d (Tab.set d t i x) j = if j = i then x else Tab.get d t j := by
  by_cases h : j = i
  · subst h; simp [Tab.get_set_self]
  · simp [h, Tab.get_set_ne d t x h]

/-! ### The canonical form -/

theorem Tab.sortedFrom_mono {α : Type} {lo lo' : Nat} (h : lo' ≤ lo) (t : Tab α) (ht : Tab.sortedFrom lo t = true) :
    Tab.sortedFrom lo' t = true := by
  cases t with
  | nil => rfl
  | cons e t =>
    obtain ⟨k, v⟩ := e
    simp only [Tab.sortedFrom, Bool.and_eq_true, decide_eq_true_eq] at ht ⊢
    exact ⟨le_trans h ht.1, ht.2⟩

theorem Tab.sortedFrom_erase {α : Type} (t : Tab α) (i lo : Nat) (ht : Tab.sortedFrom lo t = true) :
    Tab.sortedFrom lo (Tab.erase t i) = true := by
  induction t generalizing lo with
  | nil => rfl
  | cons e t ih =>
    obtain ⟨k, v⟩ := e
    simp only [Tab.sortedFrom, Bool.and_eq_true, decide_eq_true_eq] at ht
    simp only [Tab.erase]
    split
    · exact ih lo (Tab.sortedFrom_mono (by omega) t ht.2)
    · simp only [Tab.sortedFrom, Bool.and_eq_true, decide_eq_true_eq]
      exact ⟨ht.1, ih _ ht.2⟩

theorem Tab.sortedFrom_insert {α : Type} (t : Tab α) (i lo : Nat) (x : α) (hlo : lo ≤ i) (ht : Tab.sortedFrom lo t = true) :
    Tab.sortedFrom lo (Tab.insert t i x) = true := by
  induction t generalizing lo with
  | nil => simp [Tab.insert, Tab.sortedFrom, hlo]
  | cons e t ih =>
    obtain ⟨k, v⟩ := e
    simp only [Tab.sortedFrom, Bool.and_eq_true, decide_eq_true_eq] at ht
    simp only [Tab.insert]
    split
    · simp only [Tab.sortedFrom, Bool.and_eq_true, decide_eq_true_eq]
      exact ⟨hlo, by omega, ht.2⟩
    · split
      · rename_i h; subst h
        simp only [Tab.sortedFrom, Bool.and_eq_true, decide_eq_true_eq]
        exact ⟨hlo, ht.2⟩
      · simp only [Tab.sortedFrom, Bool.and_eq_true, decide_eq_true_eq]
        exact ⟨ht.1, ih _ (by omega) ht.2⟩

theorem Tab.all_erase {α : Type} (p : Nat × α → Bool) (t : Tab α) (i : Nat) (ht : t.all p = true) :
    (Tab.erase t i).all p = true := by
  induction t with
  | nil => rfl
  | cons e t ih =>
    obtain ⟨k, v⟩ := e
    simp only [List.all_cons, Bool.and_eq_true] at ht
    simp only [Tab.erase]
    split
    · exact ih ht.2
    · simp only [List.all_cons, Bool.and_eq_true]; exact ⟨ht.1, ih ht.2⟩

theorem Tab.all_insert {α : Type} (p : Nat × α → Bool) (t : Tab α) (i : Nat) (x : α) (hx : p (i, x) = true)
    (ht : t.all p = true) : (Tab.insert t i x).all p = true := by
  induction t with
  | nil => simp [Tab.insert, hx]
  | cons e t ih =>
    obtain ⟨k, v⟩ := e
    simp only [List.all_cons, Bool.and_eq_true] at ht
    simp only [Tab.insert]
    split
    · simp [hx, ht.1, ht.2]
    · split
      · simp [hx, ht.2]
      · simp only [List.all_cons, Bool.and_eq_true]; exact ⟨ht.1, ih ht.2⟩

/-- A write keeps the canonical form. -/
theorem Tab.wf_set {α : Type} [DecidableEq α] (d : α) (t : Tab α) (i : Nat) (x : α) (ht : Tab.wf d t = true) :
    Tab.wf d (Tab.set d t i x) = true := by
  unfold Tab.wf at *
  simp only [Bool.and_eq_true] at ht ⊢
  unfold Tab.set
  split
  · exact ⟨Tab.sortedFrom_erase t i 0 ht.1, Tab.all_erase _ t i ht.2⟩
  · rename_i h
    exact ⟨Tab.sortedFrom_insert t i 0 x (Nat.zero_le _) ht.1, Tab.all_insert _ t i x (by simp [h]) ht.2⟩

/-- So does a change at a key. -/
theorem Tab.wf_modify {α : Type} [DecidableEq α] (d : α) (t : Tab α) (i : Nat) (g : α → α) (ht : Tab.wf d t = true) :
    Tab.wf d (Tab.modify d t i g) = true := Tab.wf_set d t i _ ht

end Sys2Proof.Machine
end

