-- ==== Sys2Proof/Laws/Ops.lean ====
section
/-! SUPPORT. What each shared operation over registers, counters and memories can do, said once. -/

namespace Sys2Proof.Machine

/-! ### Registers -/

/-- A register reads as it was last written; every other reads as before. -/
theorem rd_wr (s : State) (k j : Nat) (v : W32) : rd (wr s k v) j = if j = k then v else rd s j := by
  unfold rd wr
  by_cases hv : v = regReset k <;> by_cases hj : j = k
  · subst hj; simp [hv, Tab.find_erase_self]
  · simp [hv, hj, Tab.find_erase_ne _ hj]
  · subst hj; simp [hv, Tab.find_insert_self]
  · simp [hv, hj, Tab.find_insert_ne _ _ hj]

@[simp] theorem rd_wr_self (s : State) (k : Nat) (v : W32) : rd (wr s k v) k = v := by simp [rd_wr]

theorem rd_wr_ne (s : State) {k j : Nat} (v : W32) (h : j ≠ k) : rd (wr s k v) j = rd s j := by simp [rd_wr, h]

theorem rd_sf_self (s : State) (k : Nat) (fd : Fld) (v : Nat) : rd (sf s k fd v) k = setFld (rd s k) fd.1 fd.2 v := by
  simp [sf]

theorem rd_sf_ne (s : State) {k j : Nat} (fd : Fld) (v : Nat) (h : j ≠ k) : rd (sf s k fd v) j = rd s j := by simp [sf, rd_wr, h]

theorem rf_sf_ne (s : State) {k j : Nat} (fd fe : Fld) (v : Nat) (h : j ≠ k) : rf (sf s k fd v) j fe = rf s j fe := by
  simp [rf, rd_sf_ne s fd v h]

/-! ### Counters -/

/-- A counter counts, up to its largest value; every other stands. -/
theorem ctrGet_bumpBy (s : State) (k n j : Nat) :
    ctrGet (bumpBy s k n) j = if j = k then satAdd top64 (ctrGet s k) n else ctrGet s j := by
  unfold ctrGet bumpBy
  simp only [Tab.get_set]
  rfl

theorem ctrGet_bump (s : State) (k j : Nat) : ctrGet (bump s k) j = if j = k then satAdd top64 (ctrGet s k) 1 else ctrGet s j :=
  ctrGet_bumpBy s k 1 j

theorem satAdd_le (top a n : Nat) : satAdd top a n ≤ top := by unfold satAdd; split <;> omega

/-! ### Memories -/

theorem lget_lset (s : State) (a b : Nat) (x : Byte) : lget (lset s a x) b = if b = a then x else lget s b := by
  unfold lget lset
  by_cases h : b = a
  · subst h; simp [Tab.find_insert_self]
  · simp [h, Tab.find_insert_ne _ _ h]

/-- A write of bytes: the bytes written, and every other byte as before. -/
theorem lget_writeL (bs : List Byte) (s : State) (a b : Nat) :
    lget (writeL s a bs) b = if a ≤ b ∧ b < a + bs.length then (bs[b - a]?).getD 0 else lget s b := by
  induction bs generalizing s a with
  | nil => simp [writeL]
  | cons x xs ih =>
    rw [writeL, ih]
    by_cases hb : b = a
    · subst hb
      have h1 : ¬ (b + 1 ≤ b ∧ b < b + 1 + xs.length) := by omega
      rw [if_neg h1]
      simp [lget_lset]
    · by_cases hin : a + 1 ≤ b ∧ b < a + 1 + xs.length
      · have h2 : a ≤ b ∧ b < a + (x :: xs).length := by simp only [List.length_cons]; omega
        rw [if_pos hin, if_pos h2]
        have : b - a = (b - (a + 1)) + 1 := by omega
        rw [this]; simp
      · have h2 : ¬ (a ≤ b ∧ b < a + (x :: xs).length) := by simp only [List.length_cons]; omega
        rw [if_neg hin, if_neg h2, lget_lset, if_neg hb]

/-- A write of bytes changes local memory alone. -/
theorem writeL_eq (bs : List Byte) (s : State) (a : Nat) : writeL s a bs = { s with mem := (writeL s a bs).mem } := by
  induction bs generalizing s a with
  | nil => rfl
  | cons x xs ih => rw [writeL, ih]; rfl

@[simp] theorem readL_length (s : State) (a n : Nat) : (readL s a n).length = n := by
  induction n generalizing a with
  | zero => rfl
  | succ n ih => simp [readL, ih]

theorem readL_get (s : State) (a n i : Nat) (h : i < n) : (readL s a n)[i]? = some (lget s (a + i)) := by
  induction n generalizing a i with
  | zero => omega
  | succ n ih =>
    cases i with
    | zero => simp [readL]
    | succ i =>
      rw [readL, List.getElem?_cons_succ, ih (a + 1) i (by omega)]
      congr 2; omega

/-! ### Canonical forms -/

theorem Memory.wf_lset (s : State) (a : Nat) (x : Byte) (h : Memory.wf s.mem = true) : Memory.wf (lset s a x).mem = true :=
  Tab.sortedFrom_insert s.mem a 0 x (Nat.zero_le _) h

theorem Memory.wf_writeL (bs : List Byte) (s : State) (a : Nat) (h : Memory.wf s.mem = true) :
    Memory.wf (writeL s a bs).mem = true := by
  induction bs generalizing s a with
  | nil => exact h
  | cons x xs ih => exact ih _ _ (Memory.wf_lset s a x h)

theorem Regs.wf_wr (s : State) (k : Nat) (v : W32) (h : Regs.wf s.regs = true) : Regs.wf (wr s k v).regs = true := by
  unfold Regs.wf at *
  simp only [Bool.and_eq_true] at h ⊢
  unfold wr
  dsimp only
  split
  · exact ⟨Tab.sortedFrom_erase _ k 0 h.1, Tab.all_erase _ _ k h.2⟩
  · rename_i hv
    exact ⟨Tab.sortedFrom_insert _ k 0 v (Nat.zero_le _) h.1, Tab.all_insert _ _ k v (by simp [hv]) h.2⟩

/-! ### What the operations leave -/

/-- `t` differs from `s` in ways that keep every canonical form, the queue and the straps. -/
structure Keeps (s t : State) : Prop where
  pending : t.pending = s.pending
  boot : t.boot = s.boot
  mem : Memory.wf s.mem = true → Memory.wf t.mem = true
  regs : Regs.wf s.regs = true → Regs.wf t.regs = true
  ctr : Tab.wf 0 s.ctr = true → Tab.wf 0 t.ctr = true
  counts : (∀ k, ctrGet s k ≤ top64) → ∀ k, ctrGet t k ≤ top64

theorem Keeps.refl (s : State) : Keeps s s := ⟨rfl, rfl, id, id, id, id⟩

theorem Keeps.trans {s t u : State} (h : Keeps s t) (g : Keeps t u) : Keeps s u :=
  ⟨g.pending.trans h.pending, g.boot.trans h.boot, fun x => g.mem (h.mem x), fun x => g.regs (h.regs x), fun x => g.ctr (h.ctr x),
    fun x => g.counts (h.counts x)⟩

/-- A fold keeps what each of its steps keeps. -/
theorem Keeps.foldl {α : Type} (g : State → α → State) (hg : ∀ s a, Keeps s (g s a)) (l : List α) (s : State) :
    Keeps s (l.foldl g s) := by
  induction l generalizing s with
  | nil => exact Keeps.refl s
  | cons a l ih => exact (hg s a).trans (ih _)

/-- A change of other fields than the queue, the boot record, memory, registers and counters. -/
theorem Keeps.of_eq {s t : State} (h1 : t.pending = s.pending) (h2 : t.boot = s.boot) (h3 : t.mem = s.mem) (h4 : t.regs = s.regs)
    (h5 : t.ctr = s.ctr) : Keeps s t :=
  ⟨h1, h2, by rw [h3]; exact id, by rw [h4]; exact id, by rw [h5]; exact id, fun h k => by unfold ctrGet; rw [h5]; exact h k⟩

theorem Keeps.wr (s : State) (k : Nat) (v : W32) : Keeps s (wr s k v) := ⟨rfl, rfl, id, Regs.wf_wr s k v, id, fun h => h⟩

theorem Keeps.sf (s : State) (k : Nat) (fd : Fld) (v : Nat) : Keeps s (sf s k fd v) := Keeps.wr s k _

theorem Keeps.bumpBy (s : State) (k n : Nat) : Keeps s (bumpBy s k n) :=
  ⟨rfl, rfl, id, id, Tab.wf_set 0 s.ctr k _, fun h j => by
    rw [ctrGet_bumpBy]; split
    · exact satAdd_le _ _ _
    · exact h j⟩

theorem Keeps.bump (s : State) (k : Nat) : Keeps s (bump s k) := Keeps.bumpBy s k 1

theorem Keeps.writeL (s : State) (a : Nat) (bs : List Byte) : Keeps s (writeL s a bs) := by
  rw [writeL_eq]
  exact ⟨rfl, rfl, Memory.wf_writeL bs s a, id, id, fun h => h⟩

theorem Keeps.logX (s : State) (e o f : Nat) (d : List Byte) : Keeps s (logX s e o f d) := Keeps.of_eq rfl rfl rfl rfl rfl

theorem Keeps.setFn (s : State) (f : Nat) (x : Fn) : Keeps s (setFn s f x) := Keeps.of_eq rfl rfl rfl rfl rfl

theorem Keeps.modPkt (s : State) (f pos : Nat) (g : Packet → Packet) : Keeps s (modPkt s f pos g) := Keeps.of_eq rfl rfl rfl rfl rfl

/-! ### The shared cache -/

/-- The directory and its counters alone have changed. -/
structure CacheOnly (s t : State) : Prop where
  eq : t = { s with cache := t.cache, ctr := t.ctr }
  ctrs : ∀ k, k ∉ cacheCtrs → ctrGet t k = ctrGet s k
  wf : Tab.wf 0 s.ctr = true → Tab.wf 0 t.ctr = true
  counts : (∀ k, ctrGet s k ≤ top64) → ∀ k, ctrGet t k ≤ top64

theorem CacheOnly.refl (s : State) : CacheOnly s s := ⟨rfl, fun _ _ => rfl, id, id⟩

theorem CacheOnly.trans {s t u : State} (h : CacheOnly s t) (g : CacheOnly t u) : CacheOnly s u := by
  refine ⟨?_, fun k hk => (g.ctrs k hk).trans (h.ctrs k hk), fun x => g.wf (h.wf x), fun x => g.counts (h.counts x)⟩
  have h1 := g.eq
  rw [h.eq] at h1
  exact h1

theorem CacheOnly.foldl {α : Type} (g : State → α → State) (hg : ∀ s a, CacheOnly s (g s a)) (l : List α) (s : State) :
    CacheOnly s (l.foldl g s) := by
  induction l generalizing s with
  | nil => exact CacheOnly.refl s
  | cons a l ih => exact (hg s a).trans (ih _)

theorem CacheOnly.dir (s : State) (c : Cache) : CacheOnly s { s with cache := c } := ⟨rfl, fun _ _ => rfl, id, fun h => h⟩

theorem CacheOnly.bump (s : State) {k : Nat} (h : k ∈ cacheCtrs) : CacheOnly s (bump s k) :=
  ⟨rfl, fun j hj => by rw [ctrGet_bump, if_neg (fun e : j = k => hj (by rw [e]; exact h))], Tab.wf_set 0 s.ctr k _, fun x j => by
    rw [ctrGet_bump]; split
    · exact satAdd_le _ _ _
    · exact x j⟩

theorem CacheOnly.setLineErr (s : State) (l : Nat) (v : Bool) : CacheOnly s (setLineErr s l v) := by
  unfold Machine.setLineErr; split
  · exact CacheOnly.dir s _
  · exact CacheOnly.refl s

theorem CacheOnly.dirSet (s : State) (slice set way : Nat) (x : Option Way) : CacheOnly s (dirSet s slice set way x) := CacheOnly.dir s _

theorem CacheOnly.rankMove (s : State) (slice set way rank : Nat) : CacheOnly s (rankMove s slice set way rank) := CacheOnly.dir s _

/-- A line takes a way, and the way its rank. -/
theorem CacheOnly.place (s : State) (slice set way rank : Nat) (x : Option Way) :
    CacheOnly s (Machine.rankMove (Machine.dirSet s slice set way x) slice set way rank) :=
  (CacheOnly.dirSet s slice set way x).trans (CacheOnly.rankMove _ slice set way rank)

/-- An event of the cache, counted or not. -/
theorem CacheOnly.bumpIf (s : State) {k : Nat} (c : Bool) (h : k ∈ cacheCtrs) : CacheOnly s (if c then Machine.bump s k else s) := by
  cases c
  · exact CacheOnly.refl s
  · exact CacheOnly.bump s h

theorem CacheOnly.fill (s : State) (l : Nat) (d p : Bool) : CacheOnly s (cacheFill s l d p) := by
  have h1 := CacheOnly.dir s { s.cache with lfsr := Tab.set (lineSlice l + 1) s.cache.lfsr (lineSlice l) (cacheLfsrNext (cacheLfsr s (lineSlice l))) }
  revert h1
  unfold Machine.cacheFill
  dsimp only
  generalize hs : ({ s with cache := { s.cache with lfsr := Tab.set (lineSlice l + 1) s.cache.lfsr (lineSlice l) (cacheLfsrNext (cacheLfsr s (lineSlice l))) } } : State) = u
  intro h1
  refine h1.trans ?_
  clear hs h1
  split
  · exact CacheOnly.refl u
  · rename_i w _
    cases hx : dirGet u (lineSlice l) (lineSet l) w with
    | none => exact CacheOnly.place u _ _ _ _ _
    | some x => exact (CacheOnly.bumpIf u x.dirty (k := 0x400110) (by decide)).trans (CacheOnly.place _ _ _ _ _ _)

/-- A demand access that hits. -/
theorem CacheOnly.hit (s : State) (slice set way : Nat) (x y : Way) :
    CacheOnly s (Machine.rankMove (Machine.dirSet
      (let s := Machine.bump s 0x400100
       if x.prefetched then Machine.bump s 0x400128 else s) slice set way (some y)) slice set way 1) :=
  (CacheOnly.bump s (k := 0x400100) (by decide)).trans
    ((CacheOnly.bumpIf _ x.prefetched (k := 0x400128) (by decide)).trans (CacheOnly.place _ _ _ _ _ _))

/-- A demand access: the directory, ranks and counters of the cache, and what is known of errors. -/
theorem CacheOnly.access (s : State) (al : Bool) (t : Touch) (l : Nat) : CacheOnly s (cacheAccess s al t l) := by
  have h1 : CacheOnly s (if t = Touch.whole then Machine.setLineErr s l false else s) := by
    split
    · exact CacheOnly.setLineErr s l false
    · exact CacheOnly.refl s
  revert h1
  unfold Machine.cacheAccess
  dsimp only
  generalize (if t = Touch.whole then Machine.setLineErr s l false else s) = u
  intro h1
  refine h1.trans ?_
  clear h1
  cases hx : dirFind u l with
  | some p => exact CacheOnly.hit u _ _ p.1 p.2 _
  | none =>
    dsimp only
    generalize (al && !(cacheWays u (lineSlice l)).isEmpty) = fl
    have h2 : CacheOnly u (Machine.bump u (if fl = true then 0x400108 else 0x400118)) := by
      cases fl
      · exact CacheOnly.bump u (by decide)
      · exact CacheOnly.bump u (by decide)
    refine h2.trans ?_
    generalize Machine.bump u (if fl = true then 0x400108 else 0x400118) = v
    clear h2
    split
    · exact (CacheOnly.setLineErr v l true).trans (CacheOnly.dir _ _)
    · cases fl
      · exact CacheOnly.refl v
      · exact CacheOnly.fill v l _ _

/-- A write's part in the cache. -/
theorem CacheOnly.touchWrite (s : State) (al : Bool) (a n : Nat) : CacheOnly s (touchWrite s al a n) :=
  CacheOnly.foldl _ (fun s _ => CacheOnly.access s al _ _) _ s

theorem CacheOnly.keeps {s t : State} (h : CacheOnly s t) : Keeps s t :=
  ⟨by rw [h.eq], by rw [h.eq], by rw [h.eq]; exact id, by rw [h.eq]; exact id, h.wf, h.counts⟩

theorem Keeps.tracePut (s : State) (r : List Byte) : Keeps s (tracePut s r) := by
  unfold Machine.tracePut
  dsimp only
  split
  · exact Keeps.bump _ _
  · exact (CacheOnly.touchWrite s true _ 32).keeps.trans
      ((Keeps.writeL _ _ _).trans ((Keeps.wr _ _ _).trans (Keeps.bump _ _)))

theorem Keeps.traceEv (s : State) (point origin fn : Nat) (tag : Option Nat) (pencil : Bool) (data : List Byte) :
    Keeps s (traceEv s point origin fn tag pencil data) := by
  unfold Machine.traceEv
  split
  · exact Keeps.refl s
  · exact Keeps.trans (t := { s with trace := { s.trace with seq := (s.trace.seq + 1) % 2 ^ 32 } })
      (Keeps.of_eq rfl rfl rfl rfl rfl) (Keeps.tracePut _ _)

theorem Keeps.sendMsix (s : State) (f vec : Nat) : Keeps s (sendMsix s f vec) :=
  Keeps.trans (t := { s with out := s.out ++ [.msix f vec (Tab.get Vector.reset (getFn s f).msix vec).addr (Tab.get Vector.reset (getFn s f).msix vec).data] })
    (Keeps.of_eq rfl rfl rfl rfl rfl) (Keeps.traceEv _ _ _ _ _ _ _)

theorem Keeps.raiseVec (s : State) (f vec : Nat) : Keeps s (raiseVec s f vec) := by
  unfold Machine.raiseVec
  dsimp only
  split
  · exact Keeps.refl s
  · split
    · exact Keeps.setFn s f _
    · exact Keeps.sendMsix s f vec

theorem Keeps.raiseEvent (s : State) (f : Nat) (vec en : Fld) : Keeps s (raiseEvent s f vec en) := by
  unfold Machine.raiseEvent
  split
  · exact Keeps.raiseVec _ _ _
  · exact Keeps.refl s

theorem Keeps.raiseCtrl (s : State) (k : Nat) : Keeps s (raiseCtrl s k) := by
  unfold Machine.raiseCtrl
  split
  · exact Keeps.raiseVec _ _ _
  · exact Keeps.refl s

/-! ### The trace unit, and what a trace record leaves -/

/-- What the trace unit writes through: registers, counters, local memory and the cache. -/
def TraceSides (s t : State) : Prop := t = { s with regs := t.regs, ctr := t.ctr, mem := t.mem, cache := t.cache }

theorem TraceSides.trans {s t u : State} (h : TraceSides s t) (g : TraceSides t u) : TraceSides s u := by
  unfold TraceSides at *
  rw [h] at g
  exact g

theorem TraceSides.writeL (s : State) (a : Nat) (bs : List Byte) : TraceSides s (writeL s a bs) := by
  unfold TraceSides
  conv_lhs => rw [writeL_eq]
  conv_rhs => rw [writeL_eq]

theorem TraceSides.cache {s t : State} (h : CacheOnly s t) : TraceSides s t := by
  have g := h.eq
  unfold TraceSides
  rw [g]

/-- The trace unit's write of a record, step by step. -/
theorem TraceSides.put (s u : State) (h : CacheOnly s u) (a : Nat) (r : List Byte) (v : W32) :
    TraceSides s (bump (wr (Machine.writeL u a r) R.FL_TRACE_WRITTEN v) 0xF00438) :=
  (TraceSides.cache h).trans ((TraceSides.writeL u a r).trans rfl)

theorem tracePut_eq (s : State) (r : List Byte) : TraceSides s (tracePut s r) := by
  unfold tracePut
  dsimp only
  split
  · rfl
  · exact TraceSides.put s _ (CacheOnly.touchWrite s true _ 32) _ r _

theorem rd_writeL (s : State) (a k : Nat) (bs : List Byte) : rd (writeL s a bs) k = rd s k := by rw [writeL_eq]; rfl

theorem ctrGet_writeL (s : State) (a k : Nat) (bs : List Byte) : ctrGet (writeL s a bs) k = ctrGet s k := by rw [writeL_eq]; rfl

theorem CacheOnly.rd {s t : State} (h : CacheOnly s t) (k : Nat) : Machine.rd t k = Machine.rd s k := by rw [h.eq]; rfl

theorem rd_tracePut (s : State) (r : List Byte) {k : Nat} (h : k ≠ R.FL_TRACE_WRITTEN) : rd (tracePut s r) k = rd s k := by
  unfold tracePut
  dsimp only
  split
  · rfl
  · refine Eq.trans (rd_wr_ne _ _ h) ?_
    rw [rd_writeL, (CacheOnly.touchWrite s true _ 32).rd]

theorem ctrGet_tracePut (s : State) (r : List Byte) {k : Nat} (h1 : k ≠ 0xF00438) (h2 : k ≠ 0xF00440) (h3 : k ∉ cacheCtrs) :
    ctrGet (tracePut s r) k = ctrGet s k := by
  unfold tracePut
  dsimp only
  split
  · rw [ctrGet_bump, if_neg h2]
  · rw [ctrGet_bump, if_neg h1]
    refine Eq.trans (ctrGet_writeL _ _ k r) ((CacheOnly.touchWrite s true _ 32).ctrs k h3)

/-- A trace record changes the trace unit's register, counters, state and buffer, and the cache that it goes through, and nothing
else. -/
theorem traceEv_eq (s : State) (point origin fn : Nat) (tag : Option Nat) (pencil : Bool) (data : List Byte) :
    traceEv s point origin fn tag pencil data =
      { s with regs := (traceEv s point origin fn tag pencil data).regs, ctr := (traceEv s point origin fn tag pencil data).ctr
               mem := (traceEv s point origin fn tag pencil data).mem, cache := (traceEv s point origin fn tag pencil data).cache
               trace := (traceEv s point origin fn tag pencil data).trace } := by
  unfold traceEv
  split
  · rfl
  · generalize ([BitVec.ofNat 8 (point % 64 + b2n pencil * 64), BitVec.ofNat 8 origin, BitVec.ofNat 8 fn, 0] ++ _ ++ _ ++ _ ++ _ ++ _) = r
    have h := tracePut_eq { s with trace := { s.trace with seq := (s.trace.seq + 1) % 2 ^ 32 } } r
    unfold TraceSides at h
    generalize tracePut { s with trace := { s.trace with seq := (s.trace.seq + 1) % 2 ^ 32 } } r = t at h ⊢
    rw [h]

/-- It writes one register at most. -/
theorem rd_traceEv (s : State) (point origin fn : Nat) (tag : Option Nat) (pencil : Bool) (data : List Byte) {k : Nat}
    (h : k ≠ R.FL_TRACE_WRITTEN) : rd (traceEv s point origin fn tag pencil data) k = rd s k := by
  unfold traceEv
  split
  · rfl
  · rw [rd_tracePut _ _ h]; rfl

/-- It counts in its own counters. -/
theorem ctrGet_traceEv (s : State) (point origin fn : Nat) (tag : Option Nat) (pencil : Bool) (data : List Byte) {k : Nat}
    (h1 : k ≠ 0xF00438) (h2 : k ≠ 0xF00440) (h3 : k ∉ cacheCtrs) :
    ctrGet (traceEv s point origin fn tag pencil data) k = ctrGet s k := by
  unfold traceEv
  split
  · rfl
  · rw [ctrGet_tracePut _ _ h1 h2 h3]; rfl

/-- With the trace unit off it does nothing. -/
theorem traceEv_off (s : State) (point origin fn : Nat) (tag : Option Nat) (pencil : Bool) (data : List Byte)
    (h : rb s R.FL_TRACE_CTRL F.FL_TRACE_CTRL.EN = false) : traceEv s point origin fn tag pencil data = s := by
  unfold traceEv traceTakes; simp [h]

/-! ### Host accesses and wakes in Run, with no roll call on -/

theorem latchWake_run (s : State) (src : Nat) (h : s.pwr.phase = .awake) (hr : s.pwr.round = none) : latchWake s src = s := by
  unfold latchWake; simp [h, hr]

theorem held_run (s : State) (h : s.pwr.phase = .awake) : held s = false := by unfold held; simp [h]

/-- With every island running, every access is reachable. -/
theorem reachable_run (s : State) (i : Instr) (h : s.islands = []) : reachable s i = true := by
  unfold reachable islandRun; simp [h, Tab.get, Tab.find]

/-- A host access acts at once. -/
theorem tlp_run (s : State) (i : Instr) (k : State → State) (hc : s.boot.cfgReady = true) (h : s.pwr.phase = .awake)
    (hr : s.pwr.round = none) (hi : s.islands = []) : tlp s i k = k s := by
  unfold tlp; simp [hc, latchWake_run s 0 h hr, held_run s h, reachable_run s i hi]

/-- After start-up every block takes its writes. -/
theorem gate_done (s : State) (k : Nat) (g : State → State) (h : bootDone s = true) : gate k g s = g s := by
  unfold gate; simp [h]

end Sys2Proof.Machine
end

