-- ==== Sys2Proof/Laws/Shader.lean ====
section
/-! SUPPORT. Lanes and vector registers of a wave: which lanes a mask names, and what a write in some lanes leaves. -/

namespace Sys2Proof.Machine

theorem nbit_eq (v i : Nat) : nbit v i = v.testBit i := by
  unfold nbit; rw [Nat.testBit_eq_decide_div_mod_eq]; rfl

theorem mem_lanes (m l : Nat) : l ∈ lanes m ↔ l < 32 ∧ nbit m l = true := by
  simp [lanes, List.mem_filter, List.mem_range]

/-- A write of one register in some lanes: those lanes hold the new values, everything else stands. -/
theorem fold_setV (ls : List Nat) (hl : ∀ l ∈ ls, l < 32) (w : Wave) (d : Nat) (h : Nat → W32) :
    (ls.foldl (fun x l => x.setV d l (h l)) w) = { w with vregs := (ls.foldl (fun x l => x.setV d l (h l)) w).vregs } ∧
    ∀ r l, l < 32 → (ls.foldl (fun x l => x.setV d l (h l)) w).v r l = if r = d ∧ l ∈ ls then h l else w.v r l := by
  induction ls generalizing w with
  | nil => simp
  | cons a ls ih =>
    obtain ⟨h1, h2⟩ := ih (fun l hh => hl l (List.mem_cons_of_mem _ hh)) (w.setV d a (h a))
    refine ⟨?_, ?_⟩
    · simp only [List.foldl_cons]; rw [h1]; rfl
    · intro r l hl'
      simp only [List.foldl_cons]
      rw [h2 r l hl']
      have ha : a < 32 := hl a (List.mem_cons_self ..)
      simp only [Wave.v, Wave.setV, Tab.get_set, List.mem_cons]
      by_cases hr : r = d
      · subst hr
        by_cases hm : l ∈ ls
        · simp [hm]
        · by_cases hla : l = a
          · subst hla; simp [hm]
          · have : ¬ (32 * r + l = 32 * r + a) := by omega
            simp [hm, hla]
      · have : ¬ (32 * r + l = 32 * d + a) := by omega
        simp [hr, this]

theorem waveCtx_core {s : State} {k w : Nat} {x : WaveCtx} (h : waveCtx s k w = some x) : x.w.core = k ∧ x.w.slot = w := by
  unfold waveCtx at h
  split at h
  · cases h
  · rename_i w0 hw
    split at h
    · cases h
    · split at h
      · have := List.find?_some hw
        cases h
        simpa using this
      · cases h

end Sys2Proof.Machine
end

