-- ==== Sys2Proof/Machine/Flags.lean ====
section
/-! DEFINITION. The status flags of a function's ring (Table 3.9) and of the device, read by name. -/

namespace Sys2Proof.Machine

/-- `STOPPED`, `REPLY_FULL`, `DOORBELL_ERR` and `ENABLE_ERR` of a function (Table 3.9). -/
def fnStopped (s : State) (f : Nat) : Bool := rb s (R.HI_FN_STATUS f) F.HI_FN_STATUS.STOPPED
def fnReplyFull (s : State) (f : Nat) : Bool := rb s (R.HI_FN_STATUS f) F.HI_FN_STATUS.REPLY_FULL
def fnDoorbellErr (s : State) (f : Nat) : Bool := rb s (R.HI_FN_STATUS f) F.HI_FN_STATUS.DOORBELL_ERR
def fnEnableErr (s : State) (f : Nat) : Bool := rb s (R.HI_FN_STATUS f) F.HI_FN_STATUS.ENABLE_ERR

/-- An attention source of the management bus stands (Table 16.5). -/
def attentionBit (s : State) (bit : Nat) : Bool := nbit (rd s R.MB_ATTENTION).toNat bit

end Sys2Proof.Machine
end

