-- ==== Sys2Proof/Tests/Slice0.lean ====
section
/-! SUPPORT. Tests of one step each, ill-formed commands that WellFormed refuses, and for every statement with hypotheses a state and
operands that meet them. -/

namespace Sys2Proof.Tests

open Sys2Proof.Machine Sys2Proof.Machine.Say

/-! ### Ill-formed commands -/

theorem test_wf_function : Instr.wf (.ringEn 128 true) = false := by decide
theorem test_wf_count : Instr.wf (.packetDispatch 0 (2 ^ 32)) = false := by decide
theorem test_wf_port : Instr.wf (.retrain 3) = false := by decide
theorem test_wf_core : Instr.wf (.shIadd 64 0) = false := by decide
theorem test_wf_slot : Instr.wf (.shIadd 0 8) = false := by decide
theorem test_wf_cluster : Instr.wf (.clusterStart 16) = false := by decide
theorem test_wf_phase : Instr.wf (.phaseOpen 8) = false := by decide
theorem test_wf_stage : Instr.wf (.opConv 0 0 64) = false := by decide
theorem test_wf_engine : Instr.wf (.transferEnd 4) = false := by decide
theorem test_wf_vector : Instr.wf (.msixUnmask 0 16) = false := by decide
theorem test_wf_island : Instr.wf (.islandStartOnEntry 24) = false := by decide
theorem test_wf_well : Instr.wf (.ringEn 127 true) = true := by decide

/-! ### Memory without errors -/

/-- Without inline ECC no memory line is known to hold an error. -/
theorem noLine {s : State} (he : s.boot.ecc = false) : ∀ l, lineErr s l = false := fun l => by simp [lineErr, he]

theorem sound {s : State} (he : s.boot.ecc = false) (hm : s.cache.met = none) : noErrors s := ⟨hm, noLine he⟩

/-! ### Shader waves -/

/-- A program of function 0 with shader code and one SHADER operator: one group of one wave, 1 KiB of local area. -/
def tProg (code : List W64) : Prog :=
  { fn := 0, id := 0, imgAddr := 0, imgLen := 0, c := 1, slate := 0, scratch := 0, pencil := 0, seqSlots := 0, stepBatch := 0
    runBatch := 0, nominal := 0, stateAddr := 0, stateBytes := 0, operands := [], residents := [], regions := [], stages := []
    ops := [[0, 0, 0, 0, 0, 0, 0, 0, 0, 0, 0, 0, 0x10001, 0x110001, 1, 7]], code := code, blocks := [], pblocks := [], est := 0
    tLast := 0, seqs := [], rgn := [] }

/-- An element of packet 0, and its running job. -/
def tElem : Elem :=
  { pos := 0, idx := 0, binds := [], seed := 0, prov := false, preds := [], stages := [], sub := 0, tEntry := 0, deadline := 0
    passed := false, sat := false }

def tJob : Job :=
  { fn := 0, prog := 0, order := 0, step := false, batch := false, elems := [tElem], submitted := 0, cls := 0, startCls := 0
    budget := 0, deadline := 0, tEntry := 0, tPromo := 0, passed := false, charge := 0, regionBind := [], selected := true
    running := true, tStart := 0, clusters := [0], stages := [], owner := [], cut := none }

/-- A wave at its first instruction: v1 is 5 in every lane, v2 is 3. -/
def tWave : Wave :=
  { core := 0, slot := 0, fn := 0, pos := 0, stage := 0, op := 0, elem := 0, group := 0, num := 0, pc := 0, active := 3
    vregs := [(32, 5), (33, 5), (64, 3), (65, 4)], sregs := [], preds := [], masks := [], calls := [], bars := 0, atBar := false }

/-- One wave of one group of the program at work. -/
def shState (code : List W64) (w : Wave) : State :=
  { State.reset with
    progs := [tProg code], tt := { State.reset.tt with jobs := [tJob] }, waves := [w]
    groups := [⟨0, 0, 0, 0, 0, 0, 0, [(0, 7), (1, 1)]⟩] }

/-- Format V and I words: opcode, D, A, B. -/
def vWord (opc d a b : Nat) : W64 := BitVec.ofNat 64 (opc + d * 2 ^ 16 + a * 2 ^ 23 + b * 2 ^ 30)

/-- The wave stands at a word, with an END after it. -/
def at1 (i : W64) (w : Wave) : State := shState [i, 0x307C] w

theorem wit_ShaderIntegerResults :
    ∃ x, Ready (at1 (vWord 0x01 3 1 2) tWave) 0 0 0x01 x ∧ x.w.pc + 1 < x.code.length := ⟨_, ⟨sound rfl rfl, rfl, rfl, by decide, by decide⟩, by decide⟩

theorem wit_ShaderFloatResults :
    ∃ x, Ready (at1 (vWord 0x20 3 1 2) tWave) 0 0 0x20 x ∧ x.w.pc + 1 < x.code.length := ⟨_, ⟨sound rfl rfl, rfl, rfl, by decide, by decide⟩, by decide⟩

/-- ICMP less, combined by and (SUB 5, SUB2 2 are the ends of the ranges), and PCOMB xor. -/
theorem wit_ShaderCompareResults :
    (∃ x, Ready (at1 (vWord 0x40 0 1 2 + BitVec.ofNat 64 (5 * 2 ^ 47 + 2 * 2 ^ 51 + 1 * 2 ^ 57)) tWave) 0 0 0x40 x ∧ x.w.pc + 1 < x.code.length ∧
      iSub x.i ≤ 5 ∧ iSub2 x.i ≤ 2) ∧
    (∃ x, Ready (at1 (vWord 0x43 0 1 2 + BitVec.ofNat 64 (2 * 2 ^ 47)) tWave) 0 0 0x43 x ∧ x.w.pc + 1 < x.code.length ∧ iSub x.i ≤ 2) :=
  ⟨⟨_, ⟨sound rfl rfl, rfl, rfl, by decide, by decide⟩, by decide, by decide, by decide⟩, ⟨_, ⟨sound rfl rfl, rfl, rfl, by decide, by decide⟩, by decide, by decide⟩⟩

theorem wit_ShaderMoveResults :
    (∃ x, Ready (at1 (vWord 0x44 3 1 2) tWave) 0 0 0x44 x ∧ x.w.pc + 1 < x.code.length ∧
      (iU x.i = false ∨ x.w.p (iC x.i % 8) = allLanes ∨ x.w.p (iC x.i % 8) = 0)) ∧
    (∃ x, Ready (at1 (vWord 0x53 3 1 0 + 0x8000) tWave) 0 0 0x53 x ∧ x.w.pc + 1 < x.code.length ∧ iU x.i = true) ∧
    (∃ x, Ready (at1 (vWord 0x51 3 0 0 + BitVec.ofNat 64 (13 * 2 ^ 32) + 0x1000) tWave) 0 0 0x51 x ∧ x.w.pc + 1 < x.code.length ∧
      iImm x.i ≤ 13) ∧
    (∃ x, Ready (at1 (vWord 0x48 3 1 0) tWave) 0 0 0x48 x ∧ x.w.pc + 1 < x.code.length) :=
  ⟨⟨_, ⟨sound rfl rfl, rfl, rfl, by decide, by decide⟩, by decide, Or.inl (by decide)⟩, ⟨_, ⟨sound rfl rfl, rfl, rfl, by decide, by decide⟩, by decide, by decide⟩,
   ⟨_, ⟨sound rfl rfl, rfl, rfl, by decide, by decide⟩, by decide, by decide⟩, ⟨_, ⟨sound rfl rfl, rfl, rfl, by decide, by decide⟩, by decide⟩⟩

theorem wit_GroupCoordinates :
    ∃ x, waveCtx (at1 (vWord 0x51 3 0 0 + BitVec.ofNat 64 (4 * 2 ^ 32) + 0x1000) tWave) 0 0 = some x ∧ wf x.c.w 12 15 0 = 1 ∧
      wf x.c.w 12 31 16 = 1 ∧ x.w.group < 2 ^ 24 ∧ iImm x.i = 4 := ⟨_, rfl, by decide, by decide, by decide, by decide⟩

/-- NOP, a BRA taken by every active lane and one taken by none, IF at 15 entries, ELSE, RET, and a TRAP not taken. -/
theorem wit_ShaderControlFlow :
    (∃ x, Ready (at1 0x3070 tWave) 0 0 0x70 x) ∧
    (∃ x, Ready (at1 0x13071 tWave) 0 0 0x71 x ∧ taken x = x.w.active ∧ iTarget x.i < x.code.length) ∧
    (∃ x, Ready (at1 0x13871 tWave) 0 0 0x71 x ∧ taken x = 0 ∧ x.w.active ≠ 0) ∧
    (∃ x, Ready (at1 0x13072 { tWave with masks := List.replicate 15 ⟨true, 3, 0⟩ }) 0 0 0x72 x ∧ x.w.masks.length < 16) ∧
    (∃ x, Ready (at1 0x13073 { tWave with masks := [⟨false, 3, 1⟩] }) 0 0 0x73 x ∧ x.w.masks = ⟨false, 3, 1⟩ :: []) ∧
    (∃ x, Ready (at1 0x307A { tWave with calls := [(1, 0)] }) 0 0 0x7A x ∧ x.w.calls = (1, x.w.masks.length) :: []) ∧
    (∃ x, Ready (at1 0x387D tWave) 0 0 0x7D x ∧ taken x = 0) :=
  ⟨⟨_, sound rfl rfl, rfl, rfl, by decide, by decide⟩, ⟨_, ⟨sound rfl rfl, rfl, rfl, by decide, by decide⟩, by decide, by decide⟩,
   ⟨_, ⟨sound rfl rfl, rfl, rfl, by decide, by decide⟩, by decide, by decide⟩, ⟨_, ⟨sound rfl rfl, rfl, rfl, by decide, by decide⟩, by decide⟩,
   ⟨_, ⟨sound rfl rfl, rfl, rfl, by decide, by decide⟩, rfl⟩, ⟨_, ⟨sound rfl rfl, rfl, rfl, by decide, by decide⟩, rfl⟩,
   ⟨_, ⟨sound rfl rfl, rfl, rfl, by decide, by decide⟩, by decide⟩⟩

/-- A tensor message of 1 × 1 × 1 S8 elements: A at 0, B at 256, OUT at 512. -/
def tMsgWave : Wave := { tWave with sregs := [(0, 0x1000), (1, 0x1002), (2, 0x11)] }

theorem wit_ShaderGroupFlow :
    (∃ x, Ready (at1 0x307B tWave) 0 0 0x7B x ∧ x.w.pc + 1 < x.code.length) ∧
    (∃ x, Ready { at1 0x307C tWave with waves := [tWave, { tWave with slot := 1, num := 1 }] } 0 0 0x7C x ∧
      { tWave with slot := 1, num := 1 }.sameGroup x.w = true) ∧
    (∃ x, Ready (at1 0x307E tMsgWave) 0 0 0x7E x ∧
      msgOk ((List.range 4).map (fun n => x.w.s (iImm16 x.i + n))) (wf x.c.w 14 8 0 * 1024) = true) ∧
    (∃ x, Ready (at1 0x307F tWave) 0 0 0x7F x ∧ 0 ≤ iImm16 x.i) ∧
    ([(⟨5, 0, 0, 0, 0, 0, 0, 0, []⟩ : TMsg)].find? (fun m => m.core / 4 == 1)).isSome = true :=
  ⟨⟨_, ⟨sound rfl rfl, rfl, rfl, by decide, by decide⟩, by decide⟩, ⟨_, ⟨sound rfl rfl, rfl, rfl, by decide, by decide⟩, by decide⟩,
   ⟨_, ⟨sound rfl rfl, rfl, rfl, by decide, by decide⟩, by decide⟩, ⟨_, ⟨sound rfl rfl, rfl, rfl, by decide, by decide⟩, by decide⟩, by decide⟩

/-- LD, ST and ATOM words of 4 bytes in LOCAL: D v3, address v4 (0 in every lane), opcode given. -/
def mWord (opc : Nat) : W64 := BitVec.ofNat 64 (opc + 0x2000 + 3 * 2 ^ 16 + 4 * 2 ^ 23 + 1 * 2 ^ 31 + 2 * 2 ^ 34)

theorem wit_ShaderLocalMemory :
    (∃ x, Ready (at1 (mWord 0x60) tWave) 0 0 0x60 x ∧ iSpace x.i = 1 ∧ iSize x.i ≤ 4 ∧ ∀ l ∈ accLanes x, localOk x l) ∧
    (∃ x, Ready (at1 (mWord 0x61) tWave) 0 0 0x61 x ∧ iSpace x.i = 1 ∧ iU x.i = false ∧ ∀ l ∈ accLanes x, localOk x l) ∧
    (∃ x, Ready (at1 (mWord 0x62) tWave) 0 0 0x62 x ∧ iSpace x.i = 1 ∧ iSize x.i = 2 ∧ iAop x.i ≤ 9 ∧ (∀ l ∈ accLanes x, localOk x l) ∧
      ∃ g ∈ (at1 (mWord 0x62) tWave).groups, g.of x.w = true) :=
  ⟨⟨_, ⟨sound rfl rfl, rfl, rfl, by decide, by decide⟩, by decide, by decide, by unfold localOk; decide⟩,
   ⟨_, ⟨sound rfl rfl, rfl, rfl, by decide, by decide⟩, by decide, by decide, by unfold localOk; decide⟩,
   ⟨_, ⟨sound rfl rfl, rfl, rfl, by decide, by decide⟩, by decide, by decide, by decide, by unfold localOk; decide, by decide⟩⟩

/-- A load and a store of 4 bytes at offset 0 of a program's scratch. -/
def scrState (opc : Nat) : State :=
  { at1 (BitVec.ofNat 64 (opc + 0x2000 + 3 * 2 ^ 16 + 4 * 2 ^ 23 + 2 * 2 ^ 31 + 2 * 2 ^ 34)) tWave with
    progs := [{ tProg [BitVec.ofNat 64 (opc + 0x2000 + 3 * 2 ^ 16 + 4 * 2 ^ 23 + 2 * 2 ^ 31 + 2 * 2 ^ 34), 0x307C] with
      scratch := 1, blocks := [0], ops := [[0, 0, 0, 0, 0, 0, 0, 0, 0, 0, 0, 0, 0x10001, 0x110001, 0x20001, 7]] }] }

theorem wit_ShaderSpaceMemory :
    (∃ x, Ready (scrState 0x60) 0 0 0x60 x ∧ iSpace x.i ≠ 1 ∧ iSize x.i ≤ 4 ∧
      (∀ l ∈ accLanes x, accTrap (scrState 0x60) x false false l = none) ∧
      blockRanges (scrState 0x60) x.c.who x.w.fn (accRanges x (accLanes x) false) = .none) ∧
    (∃ x, Ready (scrState 0x61) 0 0 0x61 x ∧ iSpace x.i ≠ 1 ∧ iSize x.i ≤ 4 ∧ iU x.i = false ∧ x.c.early = false ∧
      (∀ l ∈ accLanes x, accTrap (scrState 0x61) x true false l = none) ∧
      blockRanges (scrState 0x61) x.c.who x.w.fn (accRanges x (accLanes x) true) = .none) :=
  ⟨⟨_, ⟨sound rfl rfl, rfl, rfl, by decide, by decide⟩, by decide, by decide, by decide, by decide⟩,
   ⟨_, ⟨sound rfl rfl, rfl, rfl, by decide, by decide⟩, by decide, by decide, by decide, by decide, by decide, by decide⟩⟩

/-- A load beyond 1 KiB, a divergent BRA, a RET with no call, and a TRAP. -/
theorem wit_ShaderTraps :
    (∃ x, Ready (at1 (mWord 0x60) { tWave with vregs := [(128, 1021)] }) 0 0 0x60 x ∧ iSpace x.i = 1 ∧ iU x.i = false ∧
      lowest (x.w.acts x.i) 0 ∧ ((wf x.c.w 14 8 0 * 1024 : Nat) : Int) < x.w.addr x.i 0 + (accBytes x.i : Nat) ∧ x.c.early = false) ∧
    (∃ x, Ready (at1 0x13171 { tWave with preds := [(1, 1)] }) 0 0 0x71 x ∧ taken x ≠ x.w.active ∧ taken x ≠ 0 ∧ lowest x.w.active 0) ∧
    (∃ x, Ready (at1 0x307A tWave) 0 0 0x7A x ∧ x.w.calls = []) ∧
    (∃ x, Ready (at1 0x307D tWave) 0 0 0x7D x ∧ lowest (taken x) 0) :=
  ⟨⟨_, ⟨sound rfl rfl, rfl, rfl, by decide, by decide⟩, by decide, by decide, ⟨by decide, by decide, by omega⟩, by decide, by decide⟩,
   ⟨_, ⟨sound rfl rfl, rfl, rfl, by decide, by decide⟩, by decide, by decide, ⟨by decide, by decide, by omega⟩⟩,
   ⟨_, ⟨sound rfl rfl, rfl, rfl, by decide, by decide⟩, rfl⟩,
   ⟨_, ⟨sound rfl rfl, rfl, rfl, by decide, by decide⟩, ⟨by decide, by decide, by omega⟩⟩⟩

/-- Example of 12.11: FFMA v10 := v4 × s2 + v10 under p1 encodes as 0x0000_2140_820A_0123. -/
theorem test_ffma_fields : iOpc 0x00002140820A0123 = 0x23 ∧ iPred 0x00002140820A0123 = 1 ∧ iD 0x00002140820A0123 = 10 ∧
    iA 0x00002140820A0123 = 4 ∧ iB 0x00002140820A0123 = 2 ∧ iBS 0x00002140820A0123 = true ∧ iC 0x00002140820A0123 = 10 := by decide

/-- Example of 12.11: ST of 4 bytes from v10 at v6 + 16 encodes as 0x0100_0008_030A_2061. -/
theorem test_st_fields : iOpc 0x01000008030A2061 = 0x61 ∧ iFmt 0x01000008030A2061 = 2 ∧ iD 0x01000008030A2061 = 10 ∧
    iA 0x01000008030A2061 = 6 ∧ iSize 0x01000008030A2061 = 2 ∧ iOff 0x01000008030A2061 = 16 := by decide

/-! ### Registers, start-up and islands -/

/-- A device in Run whose start-up is done, with configuration space ready: what follows a start on reset. -/
def upState : State :=
  { State.reset with
    regs := [(R.CP_BOOT_STATUS, 1)]
    boot := { State.reset.boot with supplies := true, cfgReady := true, trained := true, perst := false, imgPhase := .settled } }

/-- The same before DONE. -/
def earlyState : State := { upState with regs := [] }

theorem wit_RegisterWriteByAccessCode :
    regFields R.SC_CARVE ≠ [] ∧ (∀ r ∈ regFields 0x4000F0, ¬(r.lo ≤ 31 ∧ 31 ≤ r.hi)) ∧ R.SC_CARVE ≠ 0x4000F0 := by decide

theorem wit_RegisterWriteServed :
    hostOpen upState ∧ bootDone upState = true ∧ plainKey 0x500000 ∧ plainKey (0x500000 + 4) ∧ hostOpen earlyState ∧
    bootDone earlyState = false := by unfold hostOpen plainKey; decide

theorem wit_CounterReadLatches :
    hostOpen upState ∧ isCounter 0xF00400 = true ∧ isCounter (0xF00400 + 4) = true ∧ isCounter 0x1008 = true := by unfold hostOpen; decide

theorem wit_HostAccessHeldOutsideRun :
    let s : State := { upState with pwr := { Power.reset with phase := .asleep 2 false } }
    s.boot.cfgReady = true ∧ s.pwr.phase = .asleep 2 false ∧ s.pwr.phase ≠ .awake := by decide

theorem wit_SuppliesStartAfresh :
    State.reset.boot.supplies = false ∧ State.reset.care.alive = true ∧ upState.boot.supplies = true ∧ upState.boot.otpBusy = false ∧
    { upState.boot with otpBusy := true }.otpBusy = true ∧ { Care.reset with alive := false }.alive = false := by
  decide

theorem wit_RestartKeepsCaretaker : upState.boot.supplies = true ∧ upState.boot.otpBusy = false ∧ upState.pwr.round = none := by decide

theorem wit_StartupReachesDone :
    let s : State := { State.reset with boot := { State.reset.boot with supplies := true } }
    s.boot.supplies = true ∧ s.boot.cfgReady = false ∧ s.boot.trained = false ∧ s.boot.imgPhase = .none ∧ s.boot.otpUnknown = false ∧
      { s.boot with otpUnknown := true }.otpUnknown = true ∧ imgWord (bytesLE 4 0x4854524B) 0 = 0x4854524B ∧ imgWord [] 0 ≠ 0x4854524B ∧
      upState.boot.supplies = true ∧ upState.boot.cfgReady = true ∧ upState.boot.trained = true ∧ upState.boot.imgPhase ≠ .none := by
  decide

/-- The smallest image: a header of 64 bytes, no record but END. -/
def tImage (ver : Nat) : List Byte :=
  bytesLE 4 0x4854524B ++ bytesLE 4 ver ++ bytesLE 4 68 ++ bytesLE 4 1 ++ List.replicate 48 0 ++ bytesLE 4 0xFF

/-- It waits for its checks. -/
def imgState (img : List Byte) : State :=
  { upState with boot := { upState.boot with img := img, imgPhase := .loaded } }

theorem wit_FlashImageChecks :
    (imageLoaded (imgState []) ∧ ¬ lengthOk (imgState []).boot.img) ∧
    (imageLoaded (imgState (tImage 0x20000)) ∧ lengthOk (tImage 0x20000) ∧ ¬ knownVersion (tImage 0x20000)) ∧
    (imageLoaded (imgState (tImage 0x10001)) ∧ lengthOk (tImage 0x10001) ∧ knownVersion (tImage 0x10001) ∧
      (imgState (tImage 0x10001)).boot.otpLocked = false ∧ structureOk (tImage 0x10001) = true) ∧
    (let img := (tImage 0x10001).take 64 ++ bytesLE 4 0x77;
      lengthOk img ∧ knownVersion img ∧ structureOk img = false) ∧
    (let s : State := { imgState (tImage 0x10001) with boot := { (imgState (tImage 0x10001)).boot with otpLocked := true, otp := [] } };
      imageLoaded s ∧ s.boot.otpLocked = true ∧ Sha.digest (s.boot.img.take (imgWord s.boot.img 8)) ≠ s.boot.otp) := by
  unfold imageLoaded lengthOk knownVersion
  refine ⟨by decide, by decide, by decide, by decide, by decide, by decide, fun h => ?_⟩
  have := congrArg List.length h
  simp [Sha.digest, Sha.bigEndian, bytesLE] at this

theorem wit_OtpReadErrorFaults : (imgState []).boot.imgPhase = .loaded ∧ (imgState []).boot.imgHost = false := by decide

/-- One record at the cursor. -/
def recState (ws : List Nat) : State :=
  { upState with boot := { upState.boot with img := (ws.map (bytesLE 4)).flatten, imgPhase := .applying } }

theorem wit_ImageRecordsApply :
    (recordAt (recState [0x0201, 0x500000, 7]) 0x01 ∧ presetPlain (recordWord (recState [0x0201, 0x500000, 7]) 0)) ∧
    (recordAt (recState [0x0302, 0x500000, 1, 1]) 0x02 ∧ recordWord (recState [0x0302, 0x500000, 1, 1]) 1 < 2 ^ 32) ∧
    (recordAt (recState [0x0303, 0x500000, 1, 1]) 0x03 ∧ presetPlain (recordWord (recState [0x0303, 0x500000, 1, 1]) 0 + 4)) ∧
    recordAt (recState [0x0110, 0x00010203]) 0x10 ∧ recordAt (recState [0x0211, 0x00010000, 0x41]) 0x11 ∧
    (recordAt (recState [0xFF]) 0xFF ∧ (recState [0xFF]).boot.imgHost = false) := by
  unfold recordAt presetPlain plainKey; decide

theorem wit_OtpProgramming :
    hostOpen upState ∧ bootDone upState = true ∧ (0x0A5C0001 : W32).getLsbD 0 = true ∧ fld (0x0A5C0001 : W32) 31 16 = 0x0A5C ∧
    fld (0x00000001 : W32) 31 16 ≠ 0x0A5C ∧ upState.boot.otpLocked = false ∧ upState.boot.otpBusy = false ∧
    { upState.boot with otpBusy := true }.otpBusy = true ∧ { upState.boot with otpLocked := true }.otpLocked = true ∧
    (0 : W32).getLsbD 0 = false ∧ hostOpen earlyState ∧ bootDone earlyState = false := by unfold hostOpen; decide

/-- The staging buffer is open. -/
def stagedState : State := { upState with regs := [(R.CP_BOOT_STATUS, 1), (R.CP_STAGE_CTRL, 1)] }

theorem wit_ApertureAndStaging :
    (hostOpen upState ∧ bootDone upState = true ∧ upState.boot.applyPos = none ∧
      rb upState R.CP_STAGE_CTRL F.CP_STAGE_CTRL.STAGE_EN = false ∧ rb stagedState R.CP_STAGE_CTRL F.CP_STAGE_CTRL.STAGE_EN = true) ∧
    (let s : State := { stagedState with boot := { stagedState.boot with applyPos := some 0 } };
      hostOpen s ∧ bootDone s = true ∧ s.boot.applyPos ≠ none ∧ bar2Staged s 0 4) ∧
    (hostOpen earlyState ∧ bootDone earlyState = false ∧ earlyState.cache.met = none) ∧
    wedgedNow { upState with regs := upState.regs ++ [(R.FL_DEVICE_FAULT, 0x10)] } = true ∧
    (bar2Open upState ∧ bar2Local upState 0x3FFFFC0 64) ∧ (bar2Open stagedState ∧ bar2Local stagedState 0x100000 8) ∧ bar2Staged stagedState 0xFFFFC 4 ∧
    (let s : State := { upState with regs := [(R.HI_APERTURE_BASE_HI, 4), (R.CP_BOOT_STATUS, 1)] }; bar2Open s ∧ bar2Beyond s 0) := by
  unfold bar2Open bar2Local bar2Staged bar2Beyond hostOpen
  dsimp only
  repeat' apply And.intro
  all_goals first | decide | exact noLine rfl

theorem wit_NoticeboardStarts :
    upState.boot.supplies = true ∧ upState.boot.imgPhase = .settled ∧ upState.disp.nbStarted = false ∧ upState.disp.cfg.source = 0 ∧
    { upState.disp with nbStarted := true }.nbStarted = true := by
  decide

theorem wit_IslandsStartAndRestart :
    (islandRun { upState with islands := [(3, .stopped)] } 3 = .stopped ∧ upState.pwr.phase = .awake) ∧
    (clusterSt { upState with tt := { upState.tt with jobs := [tJob] } } 0 = .stopped ∧
      clusterBusy { upState with tt := { upState.tt with jobs := [tJob] } } 0 = true) ∧
    (islandRun upState 3 ≠ .stopped ∧ clusterBusy upState 0 = false) ∧
    (upState.boot.supplies = true ∧ clocked upState 3 = true ∧ clocked { upState with islands := [(3, .stopped)] } 3 = false) ∧
    islandRestarting upState = false ∧ (islandRestarting { upState with islands := [(3, .starting)] } = true ∧
      wedgedNow { upState with islands := [(3, .starting)] } = false) := by decide

theorem wit_TraceEnableChecksRing :
    hostOpen upState ∧ bootDone upState = true ∧ rb upState R.FL_TRACE_CTRL F.FL_TRACE_CTRL.EN = false ∧ traceRingOk upState = true ∧
    traceRingOk { upState with regs := [(R.CP_BOOT_STATUS, 1), (R.FL_TRACE_BASE_HI, 0xFFFF)] } = false := by unfold hostOpen; decide

theorem wit_JtagInstructions :
    ((Instr.jtagHighz, 4) ∈ tapRows ∧ (Instr.jtagBypass, 0) ∈ tapRows ∧ 2 ≤ (withIr upState 3).jtag.ir ∧ (withIr upState 3).boot.supplies = true) ∧
    State.reset.jtag.ir < 2 ∧ State.reset.boot.perst = true ∧ upState.boot.perst = false ∧ upState.boot.supplies = true := by decide

/-! ### Host interface -/

/-- A packet of words, fetched. -/
def tPkt (pos : Nat) (ws : List W32) : Packet :=
  { pos := pos, words := ws ++ List.replicate (16 - ws.length) 0, phase := .fetched, status := 0, result := 0, tDispatch := 0, tStart := none
    noFence := false, held := false, replied := false, discarded := false, remoteWait := false, loadRefused := false, order := 0 }

/-- The PF with some packets, in a device in Run. -/
def pfState (ps : List Packet) : State := { upState with fns := [(0, { Fn.dflt 0 with packets := ps })] }

/-- Bytes at an address. -/
def cells (a : Nat) (bs : List Byte) : List Host.Cell := (List.range bs.length).zipWith (fun i b => (a + i, b)) bs

/-- Local memory with page tables at 0 and a page that begins with some bytes. -/
def pageMem (bs : List Byte) : List Host.Cell := cells 0 (bytesLE 16 0x1001) ++ cells 0x1000 (bytesLE 24 0x40001F) ++ cells 0x400000 bs

/-- Page tables in local memory at 0: virtual 0 to 2 MiB is local 0x400000, pinned, read and write. The page begins with zeros. -/
def mapState (s : State) : State :=
  { s with regs := Tab.insert s.regs (R.MT_ROOT_f_CTRL 0) 0x91, mem := pageMem (bytesLE 128 0) }

/-- The PF's ring enabled, with its tail at n and the packets given, all its objects mapped. -/
def ringState (n : W32) (ps : List Packet) : State :=
  mapState { pfState ps with regs := [(R.HI_RING_TAIL 0, n), (R.HI_FN_CTRL 0, 1), (R.HI_FN_STATUS 0, 9), (R.CP_BOOT_STATUS, 1)] }

theorem wit_RingEnableChecks :
    hostOpen upState ∧ fnExists upState 0 = true ∧ fnEnabled upState 0 = false ∧
    ringShapeOk { upState with regs := [(R.HI_RING_SIZE 0, 3)] } 0 = false ∧ ringShapeOk upState 0 = true ∧ ringMapsOk upState 0 = false ∧
    (hostOpen (mapState upState) ∧ fnEnabled (mapState upState) 0 = false ∧ ringMapsOk (mapState upState) 0 = true) ∧
    (fnEnabled (ringState 0 []) 0 = true ∧ isSet (ringState 0 []) (R.HI_FN_CTRL 0) F.HI_FN_CTRL.RING_EN ∧ fnIdle (ringState 0 []) 0 = true) ∧
    (fnIdle (ringState 1 []) 0 = false ∧ fnHalted (ringState 1 []) 0 = false) := by unfold hostOpen isSet; decide

theorem wit_RingStopAndReset :
    hostOpen upState ∧ fnExists upState 0 = true ∧ fnIdle upState 0 = true ∧ discarding upState 0 = false ∧
    rb { upState with regs := [(R.HI_FN_CTRL 0, 2)] } (R.HI_FN_CTRL 0) F.HI_FN_CTRL.STOP = true ∧ (∀ p ∈ (getFn upState 0).packets, p.phase = .complete) ∧
    (∃ p ∈ (getFn (pfState [tPkt 0 []]) 0).packets, p.phase ≠ .complete) ∧
    (let s : State := { upState with fns := [(0, { Fn.dflt 0 with discard := some ⟨0, 0, 0, false, false, false⟩ })] };
      hostOpen s ∧ fnIdle s 0 = true ∧ discarding s 0 = true) ∧
    (hostOpen (ringState 1 []) ∧ fnHalted (ringState 1 []) 0 = false ∧ fnIdle (ringState 1 []) 0 = false) := by
  unfold hostOpen
  decide

theorem wit_DoorbellJudged :
    hostOpen (ringState 0 []) ∧ fnEnabled (ringState 0 []) 0 = true ∧ fnHalted (ringState 0 []) 0 = false ∧
    sub32 (64 : W32).toNat (ringHead (ringState 0 []) 0) ≤ 2 ^ ringLog2 (ringState 0 []) 0 ∧
    2 ^ ringLog2 (ringState 0 []) 0 < sub32 (65 : W32).toNat (ringHead (ringState 0 []) 0) := by unfold hostOpen; decide

set_option maxRecDepth 20000 in
theorem wit_PacketFetchParses :
    noErrors (ringState 1 []) ∧ mayFetch (ringState 1 []) 0 = true ∧ groupCovered (ringState 1 []) 0 0 ∧ parseFails (ringState 1 []) 0 (asFetched (ringState 1 []) 0 0) = none ∧
    parseFails (ringState 1 []) 0 (tPkt 0 [0x99]) = some St.BAD_OPCODE ∧ mayFetch (ringState 0 []) 0 = false ∧
    (let s : State := { ringState 1 [] with mem := (ringState 1 []).mem.map (fun c => if c.1 = 0x400006 then (c.1, 1) else c) };
      mayFetch s 0 = true ∧ rangeIssue s 20 0 (slotVa s 0 (ringHead s 0)) 64 false false = none ∧
      sub32 (ringTail s 0) (ringHead s 0) < 1 + fld ((slotWords s 0 (ringHead s 0))[1]?.getD 0) 31 16) ∧
    (let s : State := { ringState 1 [] with mem := cells 0 (bytesLE 8 0) };
      mayFetch s 0 = true ∧ rangeIssue s 20 0 (slotVa s 0 (ringHead s 0)) 64 false false = some (0, .bad)) ∧
    (let s : State := { ringState 1 [] with mem := cells 0 (bytesLE 8 0x1001) ++ cells 0x1000 (bytesLE 8 0x40003F)
                                            fns := [(0, { Fn.dflt 0 with atsEn := true })] };
      mayFetch s 0 = true ∧ rangeIssue s 20 0 (slotVa s 0 (ringHead s 0)) 64 false false = some (0, .ats 0x400000) ∧ s.xl.reqs = []) := by
  unfold groupCovered
  exact ⟨sound rfl rfl, by decide⟩

/-- A completed packet. -/
def donePkt (w0 : W32) : Packet := { tPkt 0 [w0] with phase := .complete }

theorem wit_ReportsWritten :
    (reportable (ringState 1 [donePkt 0]) 0 0 (donePkt 0) ∧ (donePkt 0).fReply = false ∧ (donePkt 0).fences = false) ∧
    (let s : State := { ringState 1 [donePkt 0x800] with regs := Tab.insert (ringState 1 []).regs (R.HI_REPLY_TAIL 0) 64 };
      reportable s 0 0 (donePkt 0x800) ∧ (donePkt 0x800).fReply = true ∧ (donePkt 0x800).replied = false ∧ replyRoom s 0 = false) ∧
    (let s := ringState 1 [donePkt 0x800];
      reportable s 0 0 (donePkt 0x800) ∧ replyRoom s 0 = true ∧ piecesOf (replyBase s 0) 32 = [(replyBase s 0, 32)] ∧
      xlate s 20 0 (replyBase s 0) false true = .loc 0x400000) ∧
    (let s := ringState 1 [donePkt 0x400];
      reportable s 0 0 (donePkt 0x400) ∧ (donePkt 0x400).fences = true ∧ s.link.watches = [] ∧ piecesOf (fenceBase s 0) 8 = [(fenceBase s 0, 8)] ∧
      xlate s 20 0 (fenceBase s 0) false true = .loc 0x400000) ∧
    (let s : State := { ringState 1 [] with regs := Tab.insert (ringState 1 []).regs (R.HI_REPLY_TAIL 0) 64 };
      hostOpen s ∧ fnExists s 0 = true ∧ sub32 (rd s (R.HI_REPLY_TAIL 0)).toNat (5 : W32).toNat ≤ 2 ^ replyLog2 s 0 ∧
      2 ^ replyLog2 s 0 < sub32 (rd s (R.HI_REPLY_TAIL 0)).toNat (65 : W32).toNat) := by
  unfold hostOpen
  unfold reportable
  repeat' apply And.intro
  all_goals first | decide | exact noLine rfl

theorem wit_FunctionsResetAndConfigure :
    (upState.pwr.phase = .awake ∧ upState.tt.passDue = false ∧ upState.cache.met = none ∧ upState.rend.queue = [] ∧ (∀ e, e < 4 → getEng upState e = Engine.reset)) ∧
    (upState.pcie.ctoDisable = false ∧ ({ upState.pcie with ctoDisable := true } : Pcie).ctoDisable = true ∧ fnEnabled upState 0 = false ∧
      flipReads upState 0 7 = false ∧ ringHead upState 0 = 0 ∧ State.reset.boot.cfgReady = false) ∧
    fnExists { upState with vfs := 3 } 3 = true ∧ upState.vfs ≤ 127 ∧ upState.boot.cfgReady = true ∧ upState.vfs = 0 ∧ (getFn upState 0).pba = 0 ∧
    (fnEnabled (ringState 1 [tPkt 0 []]) 0 = true ∧ (getPkt (ringState 1 [tPkt 0 []]) 0 0).isSome = true) ∧
    (let s : State := { ringState 0 [] with fns := [(0, { Fn.dflt 0 with discard := some ⟨0, 0, 0, false, false, false⟩ })] };
      (getFn s 0).discard.isSome = true ∧ mayReport s 0 = true ∧ (getFn s 0).packets = [] ∧ (getFn s 0).resetWaiting = false ∧
      ({ getFn s 0 with resetWaiting := true } : Fn).resetWaiting = true ∧
      rb s (R.HI_FN_STATUS 0) F.HI_FN_STATUS.REPLY_FULL = false) := by decide

/-! ### Command packets -/

/-- A packet by opcode and body words 4 on. -/
def opPkt (pos op : Nat) (body : List W32) : Packet := tPkt pos ([BitVec.ofNat 32 op, 0, 0, 0] ++ body)

/-- A program image of one plain stage and one SHADER operator whose code is END (Tables 10.1, 10.8, 11.1). -/
def tProgImage : List Nat :=
  [0x47504B48, 0x00010000, 768, 1, 1024, 0, 0, 0, 0, 1, 0, 0, 0, 0, 1, 1, 0, 0, 0, 0, 0, 0, 256, 320, 576, 8] ++ List.replicate 38 0 ++
  List.replicate 16 0 ++ [0x20, 0, 0, 0, 0, 0, 0, 0, 0, 0, 0, 0, 0x10001, 0x110001, 1] ++ List.replicate 49 0 ++ [0x307C] ++ List.replicate 47 0

/-- The image stands at virtual 0 of the PF, with a LOAD_PROGRAM of it fetched. -/
def loadState : State :=
  { ringState 1 [opPkt 0 0x10 [3, 0, 0, 768]] with mem := pageMem (tProgImage.map (bytesLE 4)).flatten }

/-- The program it declares. -/
def tLoaded : Prog := progOf 0 3 0 768 (tProgImage.map (BitVec.ofNat 32))

theorem find_below {t u : List Host.Cell} {n k : Nat} (h : ∀ e ∈ t, e.1 < n) (hk : n ≤ k) : Tab.find (t ++ u) k = Tab.find u k := by
  induction t with
  | nil => rfl
  | cons e t ih =>
    have := h e (by simp)
    rw [List.cons_append, Tab.find, if_neg (by omega), ih (fun x hx => h x (by simp [hx]))]

theorem find_cells (a : Nat) (bs : List Byte) (i : Nat) : Tab.find (cells a bs) (a + i) = bs[i]? := by
  have key : ∀ (bs : List Byte) (k j : Nat), Tab.find ((List.range' k bs.length).zipWith (fun i b => (a + i, b)) bs) (a + (k + j)) = bs[j]? := by
    intro bs
    induction bs with
    | nil => intro k j; rfl
    | cons b bs ih =>
      intro k j
      rw [List.length_cons, List.range'_succ, List.zipWith_cons_cons, Tab.find]
      cases j with
      | zero => simp
      | succ j => rw [if_neg (by omega), show k + (j + 1) = k + 1 + j by omega, ih]; simp
  have := key bs 0 i
  rwa [← List.range_eq_range', Nat.zero_add] at this

/-- The packet, the bytes of the image, and the state in which they are read. -/
def tLoad : Packet := opPkt 0 0x10 [3, 0, 0, 768]
def tBytes : List Byte := (tProgImage.map (bytesLE 4)).flatten
def tTouched : State := touchPages (begun loadState 0 0) 0 (tLoad.addr 5) (tLoad.dw 7).toNat
def tRead : List Byte := (List.range (tLoad.dw 7).toNat).map (fun i => vaByte tTouched 20 0 (tLoad.addr 5 + i))

theorem tBytes_length : tBytes.length = 768 := by decide +kernel

theorem tTouched_xlate : ∀ i, i < 768 → xlate tTouched 20 0 (tLoad.addr 5 + i) true false = .loc (0x400000 + i) := by decide +kernel

set_option maxRecDepth 20000 in
theorem tRead_eq : tRead = tBytes := by
  have hl : (tLoad.dw 7).toNat = 768 := by decide
  have hm : tTouched.mem = pageMem tBytes := rfl
  refine List.ext_getElem? fun i => ?_
  by_cases h : i < 768
  · simp only [tRead, hl, List.getElem?_map, List.getElem?_range h, Option.map_some, vaByte, tTouched_xlate i h, lget, hm, pageMem]
    rw [find_below (n := 0x400000) (by decide) (by omega), find_cells, List.getElem?_eq_getElem (by rw [tBytes_length]; exact h)]
    rfl
  · rw [List.getElem?_eq_none (by simp only [tRead, List.length_map, List.length_range]; omega),
      List.getElem?_eq_none (by rw [tBytes_length]; omega)]

theorem tRead_words : wordsOf ((tLoad.dw 7).toNat / 4) tRead = tProgImage.map (BitVec.ofNat 32) := by rw [tRead_eq]; decide +kernel

theorem tLoaded_admitted :
    let s := forgetRemote (touchVA tTouched 20 0 (tLoad.addr 5) (tLoad.dw 7).toNat true false) 20 0 [⟨tLoad.addr 5, (tLoad.dw 7).toNat, false⟩]
    extentsPinned s 0 (residentExtents tLoaded) = true ∧ admits s 0 tLoaded = true := by decide +kernel

theorem wit_JobPackets_load : ready loadState 0 0 0x10 tLoad ∧ loadsWell (begun loadState 0 0) 0 tLoad tLoaded := by
  refine ⟨⟨by decide +kernel, by decide, by decide, by decide, sound rfl rfl⟩, ?_⟩
  unfold loadsWell alone
  refine ⟨by decide, by decide, by decide +kernel, by decide, by decide, by decide, by decide, by decide, by decide +kernel, by decide +kernel, ?_, ?_,
    tLoaded_admitted.1, tLoaded_admitted.2⟩
  · show tLoaded = progOf 0 3 0 768 (wordsOf ((tLoad.dw 7).toNat / 4) tRead)
    rw [tRead_words]
    rfl
  · show imageChecks (wordsOf ((tLoad.dw 7).toNat / 4) tRead) tLoaded 768 = true
    rw [tRead_words]
    decide +kernel

/-- The PF with one packet and a loaded program 0. -/
def progState (p : Packet) (g : Prog) : State := { ringState 1 [p] with progs := [g] }

set_option maxRecDepth 20000 in
theorem wit_DispatchByOpcode :
    (getPkt (ringState 1 [opPkt 0 0 []]) 0 0 = some (opPkt 0 0 []) ∧ rowOf 0 0 (opPkt 0 0 []).opcode = some (.pktNop 0 0)) ∧
    (opPkt 0 1 []).opcode = 0x01 ∧ (opPkt 0 0x11 []).opcode = 0x11 ∧ (opPkt 0 0x15 []).opcode = 0x15 ∧
    dispatchable (getFn (ringState 1 [donePkt 0]) 0) (donePkt 0) = false ∧
    (ready (ringState 1 [opPkt 0 0x60 [1]]) 0 0 0x60 (opPkt 0 0x60 [1]) ∧
      resultPlace (begun (ringState 1 [opPkt 0 0x60 [1]]) 0 0) 0 0 0 32 0x400000) ∧
    (ready (ringState 1 [opPkt 0 0x61 []]) 0 0 0x61 (opPkt 0 0x61 []) ∧
      resultPlace (begun (ringState 1 [opPkt 0 0x61 []]) 0 0) 0 0 0 144 0x400000) := by
  unfold ready resultPlace
  repeat' apply And.intro
  all_goals first | decide | exact noLine rfl

/-- A program with sequence slot 0 joined. -/
def seqProg : Prog := { tProg [] with seqSlots := 1, seqs := [(0, ⟨true, [], 3, none⟩)] }

set_option maxRecDepth 20000 in
theorem wit_WaitingPackets :
    ready (ringState 1 [opPkt 0 0 []]) 0 0 0 (opPkt 0 0 []) ∧
    (ready (ringState 1 [opPkt 0 1 []]) 0 0 1 (opPkt 0 1 []) ∧ alone (ringState 1 [opPkt 0 1 []]) 0 0) ∧
    (let b : Packet := { opPkt 1 1 [1] with phase := .dispatched };
      let q := opPkt 3 1 [];
      let s := ringState 4 [b, opPkt 2 0 [], { q with words := q.words.set 0 0x10001 }];
      posApart s 0 ∧ ∃ p, ready s 0 3 0x01 p ∧ p.bits 4 0 0 = 0 ∧ ∃ q ∈ earlier (getFn s 0) 3, q.phase = .fetched) ∧
    (ready (progState (opPkt 0 0x11 []) (tProg [])) 0 0 0x11 (opPkt 0 0x11 []) ∧ alone (progState (opPkt 0 0x11 []) (tProg [])) 0 0 ∧
      usableProg (progState (opPkt 0 0x11 []) (tProg [])) 0 (opPkt 0 0x11 []) 0 = some (tProg [])) ∧
    usableProg (progState (opPkt 0 0x11 [1]) (tProg [])) 0 (opPkt 0 0x11 [1]) 1 = none ∧
    (ready (progState (opPkt 0 0x15 []) seqProg) 0 0 0x15 (opPkt 0 0x15 []) ∧ alone (progState (opPkt 0 0x15 []) seqProg) 0 0 ∧
      usableProg (progState (opPkt 0 0x15 []) seqProg) 0 (opPkt 0 0x15 []) 0 = some seqProg ∧
      (Tab.get Seq.reset seqProg.seqs 0).joined = true ∧ (Tab.get Seq.reset seqProg.seqs 0).leaving = none ∧
      (Tab.get Seq.reset seqProg.seqs 0).steps = [] ∧ (Tab.get Seq.reset (tProg []).seqs 0).joined = false) := by
  unfold ready alone posApart
  refine ⟨?_, ?_, ⟨?_, _, ⟨rfl, ?_, ?_, ?_, sound rfl rfl⟩, ?_, opPkt 2 0 [], ?_, rfl⟩, ?_, ?_, ?_⟩
  all_goals repeat' apply And.intro
  all_goals first | decide | exact noLine rfl

/-- A peer at port 0: pod 1. -/
def peerState (p : Packet) : State := { ringState 1 [p] with regs := Tab.insert (ringState 1 []).regs (R.BL_LINK_n_STATE 0) 0x23 }

set_option maxRecDepth 20000 in
theorem wit_FencePackets :
    (ready (ringState 1 [opPkt 0 2 []]) 0 0 2 (opPkt 0 2 []) ∧ (opPkt 0 2 []).fFence = false) ∧
    (let p := tPkt 0 [0x402];
      ready (ringState 1 [p]) 0 0 2 p ∧ p.fFence = true ∧ p.bits 4 0 0 = 0) ∧
    (let p := tPkt 0 [0x402, 0, 0, 0, 1];
      ready (ringState 1 [p]) 0 0 2 p ∧ p.fFence = true ∧ p.bits 4 0 0 ≠ 0 ∧ p.bits 4 2 1 = (ringState 1 [p]).boot.podId) ∧
    (let p := tPkt 0 [0x402, 0, 0, 0, 3];
      ready (ringState 1 [p]) 0 0 2 p ∧ p.bits 4 2 1 ≠ (ringState 1 [p]).boot.podId ∧ hasRoute (ringState 1 [p]) (p.bits 4 2 1) = false ∧
      ready (peerState p) 0 0 2 p ∧ hasRoute (peerState p) (p.bits 4 2 1) = true) ∧
    (let p := opPkt 0 3 [0, 1];
      ready (ringState 1 [p]) 0 0 3 p ∧ p.bits 5 15 0 ≠ 0 ∧ p.bits 4 0 0 = 0 ∧ fenceMeets 0 p.value (p.bits 4 19 19 == 1) = true) ∧
    (let p := opPkt 0 3 [0, 1, 5];
      ready (ringState 1 [p]) 0 0 3 p ∧ fenceMeets 0 p.value (p.bits 4 19 19 == 1) = false) ∧
    (let p := opPkt 0 3 [];
      ready (ringState 1 [p]) 0 0 3 p ∧ p.bits 5 15 0 = 0) ∧
    (let p := opPkt 0 3 [3, 1];
      ready (peerState p) 0 0 3 p ∧ p.bits 4 0 0 = 1 ∧ p.bits 4 2 1 ≠ (peerState p).boot.podId ∧ hasRoute (peerState p) (p.bits 4 2 1) = true) ∧
    (let p : Packet := { opPkt 0 3 [0, 1] with phase := .dispatched };
      getPkt (ringState 1 [p]) 0 0 = some p ∧ p.opcode = 0x03 ∧ p.phase = .dispatched) ∧
    (let p := opPkt 0 0x50 [1];
      ready (peerState p) 0 0 0x50 p ∧ p.bits 4 1 0 ≠ (peerState p).boot.podId ∧ hasRoute (peerState p) 1 = true ∧
      hasRoute (ringState 1 [p]) 1 = false) := by
  unfold ready
  repeat' apply And.intro
  all_goals first | decide | exact noLine rfl

set_option maxRecDepth 20000 in
theorem wit_JobPackets :
    (let p := opPkt 0 0x10 [];
      ready (progState p (tProg [])) 0 0 0x10 p ∧ (getProg (progState p (tProg [])) 0 0).isSome = true) ∧
    (let p := opPkt 0 0x12 [];
      ready (progState p (tProg [])) 0 0 0x12 p ∧ jobChecks (begun (progState p (tProg [])) 0 0) 0 (asTaken (progState p (tProg [])) p) = none ∧
      entryTest (touchBinds (begun (progState p (tProg [])) 0 0) 0 1 (bindingsOf p)) 0 p.cls (tProg []).c (p.bits 6 23 0) 0 = none) ∧
    (let p := opPkt 0 0x13 [0, 0, 0, 0, 0x10000];
      let g : Prog := { tProg [] with runBatch := 1 };
      ready (progState p g) 0 0 0x13 p ∧ jobChecks (begun (progState p g) 0 0) 0 (asTaken (progState p g) p) = none ∧
      entryTest (touchBinds (begun (progState p g) 0 0) 0 1 (bindingsOf p)) 0 p.cls g.c (p.bits 6 23 0) 0 = none) ∧
    (let p := opPkt 0 0x12 [1];
      ready (progState p (tProg [])) 0 0 0x12 p ∧
      jobChecks (begun (progState p (tProg [])) 0 0) 0 (asTaken (progState p (tProg [])) p) = some St.BAD_PARAM) ∧
    (let p := opPkt 0 0x14 [];
      ready (progState p seqProg) 0 0 0x14 p ∧ jobChecks (begun (progState p seqProg) 0 0) 0 (asTaken (progState p seqProg) p) = none ∧
      entryTest (touchBinds (begun (progState p seqProg) 0 0) 0 1 (bindingsOf p)) 0 p.cls seqProg.c (p.bits 6 23 0) 0 = none) ∧
    (let p := opPkt 0 0x16 [7];
      ready (ringState 1 [p]) 0 0 0x16 p ∧ p.fBarrier = false ∧ getJob (ringState 1 [p]) 0 7 = none ∧ (ringState 1 [p]).tt.steps = []) ∧
    (tPkt 0 [0x1016]).fBarrier = true ∧
    (let p := opPkt 0 0x16 [7];
      let g : Prog := { tProg [] with stages := [⟨true, true, false, 0, 0, 0, 0, []⟩] };
      let w : StepWait := ⟨0, 0, 0, 7, 0, 0, 0, 0, 0, tElem⟩;
      let s : State := { progState p g with tt := { State.reset.tt with steps := [w] } };
      ready s 0 0 0x16 p ∧ getJob s 0 7 = none ∧ s.tt.steps.find? (fun w => w.fn == 0 && w.pos == 7) = some w ∧ getProg s 0 w.prog = some g ∧
      hostResolved g 0 = true ∧ Tab.get none w.elem.preds 0 = none) ∧
    (let p := opPkt 0 0x72 [0, 16, 1, 1, 1, 0xFFFFFFFF, 0, 50];
      ready (ringState 1 [p]) 0 0 0x72 p ∧ quotaFits (ringState 1 [p]) p) ∧
    ¬ quotaFits (ringState 1 [opPkt 0 0x72 []]) (opPkt 0 0x72 []) := by
  unfold ready quotaFits
  repeat' apply And.intro
  all_goals first | decide | exact noLine rfl

set_option maxRecDepth 20000 in
theorem wit_EnginePackets :
    (let p := opPkt 0 0x20 [4, 0, 0, 0x100];
      ready (ringState 1 [p]) 0 0 0x20 p ∧ copyBad (ringState 1 [p]) 0 p = false ∧ pickEngine (ringState 1 [p]) p = some 0) ∧
    copyBad (ringState 1 [opPkt 0 0x20 []]) 0 (opPkt 0 0x20 []) = true ∧
    (let p := opPkt 0 0x20 [0, 0, 0, 0x100];
      let s : State := { ringState 1 [p] with eng := [(0, ⟨List.replicate 64 (0, 9), none, []⟩)] };
      ready s 0 0 0x20 p ∧ copyBad s 0 p = false ∧ pickEngine s p = none) ∧
    (let p := opPkt 0 0x23 [0, 0, 0, 0, 0, 16];
      let g : Prog := { tProg [] with regions := [⟨0, 0, 16⟩] };
      let g' : Prog := { g with rgn := [(0, ⟨0, some 8, some 9⟩)] };
      let s' : State := { progState p g' with fns := [(0, { Fn.dflt 0 with packets := [{ opPkt 9 0x23 [] with phase := .dispatched }, p] })] 
                                              eng := [(0, ⟨[(0, 8)], none, []⟩)] };
      ready (progState p g) 0 0 0x23 p ∧ copyBad (progState p g) 0 p = false ∧ (getRgn g 0).pend = none ∧
      ready s' 0 0 0x23 p ∧ copyBad s' 0 p = false ∧ (getRgn g' 0).pend = some 9 ∧ (getRgn g' 0).running = some 8 ∧
      atEngine s' 0 8 = true ∧ (getPkt s' 0 9).isSome = true) ∧
    (let p := opPkt 0 0x30 [0, 0, 32, 0, 0, 0, 0, 0, 0, 0, 0x100000];
      ready (ringState 1 [p]) 0 0 0x30 p ∧ (ringState 1 [p]).rend.queue.length < 16 ∧ dlShapeOk (opPkt 0 0x30 []) = false) ∧
    (let p := opPkt 0 0x40 [0, 0x100];
      ready (ringState 1 [p]) 0 0 0x40 p ∧ (opPkt 0 0x40 [0, 1]).addr 5 % 256 ≠ 0 ∧ p.addr 5 % 256 = 0 ∧ p.addr 7 = 0 ∧ p.dw 10 = 0 ∧
      (p.dw 9).toNat % 64 = 0) ∧
    (let p := opPkt 0 0x41 [];
      ready (ringState 1 [p]) 0 0 0x41 p ∧ (cfgOf p).source = 0 ∧ (cfgOf (opPkt 0 0x41 [3])).source = 3) ∧
    (let p := opPkt 0 0x70 [];
      let s : State := { ringState 1 [p] with regs := Tab.insert (ringState 1 []).regs R.CP_STAGE_CTRL 1 };
      ready s 0 0 0x70 p ∧ rb s R.CP_STAGE_CTRL F.CP_STAGE_CTRL.STAGE_EN = true) ∧
    (let p := opPkt 0 0x71 [];
      ready (ringState 1 [p]) 0 0 0x71 p ∧ p.bits 4 2 0 < 2 ∧ 3 < (opPkt 0 0x71 [4]).bits 4 2 0 ∧ (opPkt 0 0x71 [2]).bits 4 2 0 = 2) := by
  unfold ready
  repeat' apply And.intro
  all_goals first | decide | exact noLine rfl

set_option maxRecDepth 20000 in
theorem wit_EnginePackets_draw :
    (let p := opPkt 0 0x30 [0, 0, 64, 0, 0, 0x200020, 256, 1, 0, 0, 4096];
      let s := ringState 1 [p];
      ready s 0 0 0x30 p ∧ dlShapeOk p = true ∧ pinned s 0 (dlList p) (dlLen p) false = true ∧ pinned s 0 (dlTarget p) (dlExtent p) true = true ∧
      pinned s 0 (dlBin p) (dlBinLen p) true = true) ∧
    (let p := opPkt 0 0x40 [0, 0x100];
      let s : State := { ringState 1 [p] with regs := Tab.insert (ringState 1 [p]).regs (R.DC_LAYER_n_CTRL 0) 0x10 };
      ready s 0 0 0x40 p ∧ (flipExtents (rd s) 0 (flipOf 0 p)).all (fun e => pinned s 0 e.1 e.2 false) = true ∧
      lfld (inForce s) (R.DC_LAYER_n_CTRL 0) F.DC_LAYER_n_CTRL.OWNER = 0 ∧ twoPlanes (layFmt (rd s) 0) = false ∧ r0b (rd s) 0 ≤ (p.dw 9).toNat) := by
  unfold ready
  repeat' apply And.intro
  all_goals first | decide | exact noLine rfl

/-- A packet that nothing holds, in a device without inline ECC. -/
theorem ready_of {s : State} {f pos op : Nat} {p : Packet} (he : s.boot.ecc = false) (hm : s.cache.met = none)
    (h : getPkt s f pos = some p ∧ p.opcode = op ∧ dispatchable (getFn s f) p = true ∧ p.loadRefused = false) : ready s f pos op p :=
  ⟨h.1, h.2.1, h.2.2.1, h.2.2.2, sound he hm⟩

/-- One packet in flight at position 0, by opcode and body. -/
def one (op : Nat) (body : List W32) : State := ringState 1 [opPkt 0 op body]

theorem one_ready {op : Nat} {body : List W32} (h : (opPkt 0 op body).opcode = op ∧ dispatchable (getFn (one op body) 0) (opPkt 0 op body) = true) :
    ready (one op body) 0 0 op (opPkt 0 op body) := ready_of rfl rfl ⟨rfl, h.1, h.2, rfl⟩

set_option maxRecDepth 20000 in
theorem wit_ready_programs_and_copies : ∀ x ∈ ([(0x02, []), (0x03, []), (0x11, [1]), (0x15, []), (0x20, []), (0x21, [0x20, 0, 0, 0x100, 0, 4, 16]), (0x22, [0, 0, 0, 0x100, 0, 4, 16]), (0x24, [])] : List (Nat × List W32)), ready (one x.1 x.2) 0 0 x.1 (opPkt 0 x.1 x.2) := by
  simp only [List.forall_mem_cons]
  exact ⟨one_ready (by decide), one_ready (by decide), one_ready (by decide), one_ready (by decide), one_ready (by decide), one_ready (by decide), one_ready (by decide), one_ready (by decide), by simp⟩

set_option maxRecDepth 20000 in
theorem wit_ready_lists_and_flips : ∀ x ∈ ([(0x30, []), (0x30, [0x400000, 0, 64, 0, 0, 0x200020, 256, 1, 0, 0, 4096]), (0x40, [0, 1]), (0x41, [2]), (0x41, [3]), (0x41, [1])] : List (Nat × List W32)), ready (one x.1 x.2) 0 0 x.1 (opPkt 0 x.1 x.2) := by
  simp only [List.forall_mem_cons]
  exact ⟨one_ready (by decide), one_ready (by decide), one_ready (by decide), one_ready (by decide), one_ready (by decide), one_ready (by decide), by simp⟩

set_option maxRecDepth 20000 in
theorem wit_ready_the_rest : ∀ x ∈ ([(0x50, [1]), (0x70, []), (0x71, [2]), (0x71, [3]), (0x71, [4]), (0x72, [])] : List (Nat × List W32)), ready (one x.1 x.2) 0 0 x.1 (opPkt 0 x.1 x.2) := by
  simp only [List.forall_mem_cons]
  exact ⟨one_ready (by decide), one_ready (by decide), one_ready (by decide), one_ready (by decide), one_ready (by decide), one_ready (by decide), by simp⟩

/-- A DISPLAY_CONFIG of 64 by 64 pixels with its enables and its write-back base. -/
def tConfig (en base : W32) : List W32 := [en, 25200, 0x800040, 0x10040, 0x460040, 0x10040, 6, base, 0, 256]

set_option maxRecDepth 20000 in
theorem wit_ready_configurations : ∀ x ∈ ([(1, 0), (5, 0), (5, 0x400000)] : List (W32 × W32)),
    ready (one 0x41 (tConfig x.1 x.2)) 0 0 0x41 (opPkt 0 0x41 (tConfig x.1 x.2)) := by
  simp only [List.forall_mem_cons]
  exact ⟨one_ready (by decide), one_ready (by decide), one_ready (by decide), by simp⟩

set_option maxRecDepth 20000 in
theorem wit_DispatchByOpcode_refused :
    let p : Packet := { opPkt 0 0x12 [] with loadRefused := true }
    noErrors (ringState 1 [p]) ∧ getPkt (ringState 1 [p]) 0 0 = some p ∧ dispatchable (getFn (ringState 1 [p]) 0) p = true ∧ p.loadRefused = true ∧
      rowOf 0 0 p.opcode = some (.pktRunJob 0 0) := by
  exact ⟨sound rfl rfl, by decide⟩

set_option maxRecDepth 20000 in
theorem wit_WaitingPackets_refused :
    usableProg (one 0x11 [1]) 0 (opPkt 0 0x11 [1]) 1 = none ∧
    (ready (progState (opPkt 0 0x15 []) (tProg [])) 0 0 0x15 (opPkt 0 0x15 []) ∧
      usableProg (progState (opPkt 0 0x15 []) (tProg [])) 0 (opPkt 0 0x15 []) 0 = some (tProg []) ∧
      (Tab.get Seq.reset (tProg []).seqs ((opPkt 0 0x15 []).bits 5 9 0)).joined = false) := by
  exact ⟨by decide, ready_of rfl rfl (by decide), by decide⟩

/-- The fence slot 0 holds a word. -/
def slotState (p : Packet) (w : Nat) : State :=
  { ringState 1 [p] with fns := [(0, { Fn.dflt 0 with packets := [p], shadow := [(0, w)] })] }

set_option maxRecDepth 20000 in
theorem wit_FencePackets_errors :
    (∀ e ∈ ([0, 0x80000] : List W32), let p := opPkt 0 3 [e, 1];
      let s := slotState p (2 ^ 63 + 5);
      ready s 0 0 3 p ∧ p.bits 5 15 0 ≠ 0 ∧ p.bits 4 0 0 = 0 ∧ nbit (Tab.get 0 (getFn s 0).shadow (p.bits 4 18 10)) 63 = true ∧
        p.bits 4 19 19 = (if e = 0 then 0 else 1) ∧ fenceMeets (Tab.get 0 (getFn s 0).shadow (p.bits 4 18 10)) p.value (p.bits 4 19 19 == 1) = true) ∧
    (hasRoute (one 0x50 [1]) 1 = false ∧ (opPkt 0 0x50 [1]).bits 4 1 0 ≠ (one 0x50 [1]).boot.podId) ∧ getPkt State.reset 0 0 = none := by
  refine ⟨?_, by decide, by decide⟩
  simp only [List.forall_mem_cons]
  exact ⟨⟨ready_of rfl rfl ⟨rfl, by decide, by decide, rfl⟩, by decide, by decide, by decide, by decide, by decide⟩,
    ⟨ready_of rfl rfl ⟨rfl, by decide, by decide, rfl⟩, by decide, by decide, by decide, by decide, by decide⟩, by simp⟩

/-- The PF with a quota that gives class 0 a limit. -/
def limited (n : W32) (p : Packet) (g : Prog) : State :=
  { progState p g with fns := [(0, { Fn.dflt 0 with packets := [p], quota := { Quota.pf with classLimit := n } })] }

set_option maxRecDepth 20000 in
theorem wit_JobPackets_refused :
    (let p := opPkt 0 0x10 []; (progState p (tProg [])).cache.transition = none) ∧
    (∀ x ∈ [(0x12, Instr.pktRunJob 0 0), (0x13, .pktRunBatch 0 0), (0x14, .pktStepJoin 0 0)], let p := opPkt 0 x.1 [1];
      (x.1, x.2) ∈ [(0x12, Instr.pktRunJob 0 0), (0x13, .pktRunBatch 0 0), (0x14, .pktStepJoin 0 0)] ∧
      ready (progState p (tProg [])) 0 0 x.1 p ∧
      jobChecks (begun (progState p (tProg [])) 0 0) 0 (asTaken (progState p (tProg [])) p) = some St.BAD_PARAM) ∧
    (let p := opPkt 0 0x14 [];
      let g : Prog := { seqProg with seqs := [(0, ⟨true, [5, 6, 7, 8], 3, none⟩)] };
      ready (progState p g) 0 0 0x14 p ∧ jobChecks (begun (progState p g) 0 0) 0 (asTaken (progState p g) p) = some St.REFUSED_RESOURCES) ∧
    (∀ op ∈ [0x12, 0x13], let p := opPkt 0 op [0, 0, 0, 0, 0x10000];
      let g : Prog := { tProg [] with runBatch := 1 };
      let s := limited 0 p g;
      ready s 0 0 op p ∧ jobChecks (begun s 0 0) 0 (asTaken s p) = none ∧ getProg s 0 0 = some g ∧
      entryTest (touchBinds (begun s 0 0) 0 1 (bindingsOf p)) 0 p.cls g.c (p.bits 6 23 0) 0 = some St.REFUSED_RESERVATION) ∧
    (let p := tPkt 0 [0x1016]; ready (ringState 1 [p]) 0 0 0x16 p ∧ p.fBarrier = true) ∧
    (∀ x ∈ [(false, none), (true, none), (true, some true)], let p := opPkt 0 0x16 [7];
      let g : Prog := { tProg [] with stages := [⟨true, x.1, false, 0, 0, 0, 0, []⟩] };
      let j : Job := { tJob with elems := [{ tElem with pos := 7, preds := [(0, x.2)] }] };
      let s : State := { progState p g with tt := { State.reset.tt with jobs := [j] } };
      ready s 0 0 0x16 p ∧ p.fBarrier = false ∧ getJob s 0 7 = some j ∧ j.cut = none ∧ getProg s 0 j.prog = some g ∧ hostResolved g 0 = x.1 ∧
        j.elems.map (fun e => (e.pos, Tab.get none e.preds 0)) = [(7, x.2)]) := by
  refine ⟨by decide, fun x h => ⟨h, ready_of ?_ ?_ ?_, ?_⟩, ⟨ready_of rfl rfl (by decide), by decide⟩, fun op h => ⟨ready_of ?_ ?_ ?_, ?_⟩,
    ⟨ready_of rfl rfl (by decide), by decide⟩, fun x h => ⟨ready_of ?_ ?_ ?_, ?_⟩⟩
  all_goals first | rfl | (revert x; decide) | (revert op; decide)

set_option maxRecDepth 20000 in
theorem wit_EnginePackets_more :
    (copyBad (one 0x20 []) 0 (opPkt 0 0x20 []) = true ∧
      ∀ x ∈ ([(0x21, [0x20, 0, 0, 0x100, 0, 4, 16]), (0x22, [0, 0, 0, 0x100, 0, 4, 16]), (0x24, [])] : List (Nat × List W32)),
        copyBad (one x.1 x.2) 0 (opPkt 0 x.1 x.2) = false ∧ (pickEngine (one x.1 x.2) (opPkt 0 x.1 x.2)).isSome = true) ∧
    (dlShapeOk (opPkt 0 0x30 []) = false ∧
      (let p := opPkt 0 0x30 [0x400000, 0, 64, 0, 0, 0x200020, 256, 1, 0, 0, 4096];
        dlShapeOk p = true ∧ pinned (one 0x30 [0x400000, 0, 64, 0, 0, 0x200020, 256, 1, 0, 0, 4096]) 0 (dlList p) (dlLen p) false = false)) ∧
    (let s : State := { one 0x30 [] with rend := ⟨List.replicate 16 (0, 9), none⟩ };
      ready s 0 0 0x30 (opPkt 0 0x30 []) ∧ 16 ≤ s.rend.queue.length) ∧
    ((opPkt 0 0x40 [0, 1]).addr 5 % 256 ≠ 0 ∧ (cfgOf (opPkt 0 0x41 [2])).source = 2 ∧ (cfgOf (opPkt 0 0x41 [3])).source = 3) ∧
    ((cfgOf (opPkt 0 0x41 [1])).source = 1 ∧ cfgRangeOk (cfgOf (opPkt 0 0x41 [1])) = false) ∧
    ((∀ x ∈ ([(1, 0), (5, 0), (5, 0x400000)] : List (W32 × W32)), let c := cfgOf (opPkt 0 0x41 (tConfig x.1 x.2));
        c.source = 1 ∧ cfgRangeOk c = true ∧ cfgFits c = true ∧ c.wbEn = (x.1 == 5) ∧ c.wbBase = x.2.toNat ∧
        wbBuffers (one 0x41 (tConfig x.1 x.2)) * slotBytes c = 16640) ∧
      pinned (one 0x41 (tConfig 5 0)) 0 0 16640 true = true ∧ pinned (one 0x41 (tConfig 5 0x400000)) 0 0x400000 16640 true = false) ∧
    rb (one 0x70 []) R.CP_STAGE_CTRL F.CP_STAGE_CTRL.STAGE_EN = false ∧
    ((opPkt 0 0x71 [2]).bits 4 2 0 = 2 ∧ (opPkt 0 0x71 [3]).bits 4 2 0 = 3 ∧ 3 < (opPkt 0 0x71 [4]).bits 4 2 0) ∧
    ¬ quotaFits (one 0x72 []) (opPkt 0 0x72 []) := by
  unfold quotaFits
  refine ⟨by decide, by decide, ⟨ready_of rfl rfl (by decide), by decide⟩, by decide, by decide, ⟨fun x h => ?_, by decide, by decide⟩, by decide, by decide, by decide⟩
  simp only [List.mem_cons, List.not_mem_nil, or_false] at h
  rcases h with rfl | rfl | rfl <;> exact ⟨by decide, by decide, by decide, by decide, by decide, by decide⟩

/-! ### Timetable, translation, cache, copy engines -/

/-- A job of packet 0 at program 0, on cluster 0. -/
def jobState (j : Job) (g : Prog) (cl : Tab ClusterSt) : State :=
  { ringState 1 [{ opPkt 0 0x12 [] with phase := .dispatched }] with
    tt := { State.reset.tt with jobs := [j] }, progs := [g], clusters := cl }

/-- One plain stage, and the program image in the page that is mapped. -/
def stgProg (prov : Bool) : Prog := { tProg [] with stages := [⟨prov, true, false, 0, 0, 0, 0, []⟩], imgLen := 256 }

set_option maxRecDepth 20000 in
theorem wit_JobsStartAndEnd :
    (let j : Job := { tJob with running := false };
      let s := jobState j (stgProg false) [(0, .idle)];
      duePass s = s ∧ getJob s 0 0 = some j ∧ j.selected = true ∧ j.running = false ∧ (∀ n ∈ j.clusters, clusterSt s n = .idle) ∧
      getProg s 0 0 = some (stgProg false) ∧ extentsPinned s 0 (startExtents (stgProg false) j) = true ∧ j.step = false ∧ j.submitted ≤ 3 ∧
      j.passed = false) ∧
    (let s := jobState tJob (tProg []) []; s.tt.passDue = false ∧ getJob s 0 0 = some tJob ∧ tJob.running = true) ∧
    (∀ j ∈ [{ tJob with stages := [(0, { StageRun.reset with phase := .ended })] }, { tJob with cut := some St.PENCIL_UNRESOLVED }, { tJob with cut := some 0, step := true }],
      let s : State := { jobState j (stgProg false) [] with fns := [(0, { (getFn (jobState j (stgProg false) []) 0) with quota := { Quota.pf with share := 1 } })] };
      getJob s 0 0 = some j ∧ sameJob s j = j ∧ j.running = true ∧ (stagesEnded s j = true ∨ j.cut.isSome = true) ∧ remotePending s j = false ∧
      getProg s 0 0 = some (stgProg false) ∧ j.elems = [tElem] ∧ (getPkt s 0 0).isSome = true ∧ ((getPkt s 0 0).map (·.phase)) = some .dispatched ∧
      shareOf s 0 ≠ 0) ∧
    (let s := jobState tJob (stgProg true) [];
      getJob s 0 0 = some tJob ∧ stagesEnded s tJob = false ∧ tJob.cut = none ∧ stuckOnPredicate s tJob = true ∧ remotePending s tJob = false ∧
      stuckOnPredicate (jobState tJob (stgProg false) []) tJob = false) ∧
    (let s : State := { jobState tJob (stgProg true) [] with link := { State.reset.link with reqs := [⟨1, 0, 2, .job, 0, 0, 0, 0, 16, 0, [], true, 0⟩] } };
      getJob s 0 0 = some tJob ∧ stuckOnPredicate s tJob = true) := by decide

theorem wit_WaitingJobsAgeAndClustersStart :
    (let s : State := { upState with clusters := [(0, .starting)], rail := { Rail.reset with ackMv := 2000 } };
      clusterSt s 0 = .starting ∧ railReady s 0 = true) ∧
    (let s : State := { upState with clusters := [(0, .starting)] };
      clusterSt s 0 = .starting ∧ railReady s 0 = false) ∧
    (let s := jobState { tJob with clusters := (List.range 16).drop 2 } (tProg []) [(0, .stopped), (1, .stopped)];
      let s : State := { s with force := Tab.insert s.force R.TT_STANDBY 4 };
      clusterSt s 0 = .stopped ∧ (freeClusters s).length ≤ standby s ∧
      ((freeClusters s).filter (fun m => clusterSt s m == .idle)).length < standby s) ∧
    (let s : State := { upState with clusters := [(0, .idle)] };
      clusterSt s 0 = .idle ∧ clusterBusy s 0 = false ∧ standby s < (freeClusters s).length) ∧
    (let s : State := { upState with clusters := [(0, .stopped)] }; clusterSt s 0 = .stopped ∧ standby s < (freeClusters s).length) ∧
    clusterBusy (jobState tJob (tProg []) []) 0 = true := by decide

/-- A COPY running at engine 0. -/
def tXfer (ph : XferPhase) : Xfer := ⟨0, 0, ph, 0, false, [], [], [], 0, 0⟩
def xferState (x : Xfer) (xl : Xlate) : State :=
  { ringState 1 [{ opPkt 0 0x20 [0, 0, 0, 0x100] with phase := .dispatched }] with eng := [(0, ⟨[], some x, []⟩)], xl := xl }

set_option maxRecDepth 20000 in
theorem wit_TranslationsComeAndGo :
    (hostOpen upState ∧ bootDone upState = true ∧ upState.xl.inval = none) ∧
    (let s : State := { upState with xl := { upState.xl with inval := some (0, true, 0, 0) } };
      s.xl.inval = some (0, true, 0, 0) ∧ hostOpen s ∧ bootDone s = true ∧ invalHeld s (0, true, 0, 0) = false ∧ invalBusy s (0, true, 0, 0) = false ∧
      invalHeld { jobState tJob (stgProg false) [] with xl := s.xl } (0, true, 0, 0) = true) ∧
    (upState.xl.invals.length < 32 ∧ atsUsers upState 0 0 4096 = []) ∧
    (let s := jobState tJob (stgProg false) [];
      let s : State := { s with mem := Tab.insert s.mem 0x1000 0x3F };
      s.xl.invals.length < 32 ∧ atsUsers s 0 0x400000 4096 = [0]) ∧
    32 ≤ (List.replicate 32 (⟨0, 0, 12, 5, false, []⟩ : AtsInval)).length ∧
    (let s := jobState tJob (stgProg false) [];
      let s : State := { s with mem := Tab.insert s.mem 0x1000 0x3F, fns := [(0, { (getFn s 0) with atsEn := true })] };
      let s : State := { s with xl := { s.xl with invals := [⟨0, 0x400000, 12, 5, true, [0]⟩] } };
      xlate s 16 0 0 false false = .hold ∧ atsInUse s ⟨0, 0x400000, 12, 5, true, [0]⟩ = true ∧
      s.xl.invals.find? (fun q => q.tag == 5) = some ⟨0, 0x400000, 12, 5, true, [0]⟩) ∧
    (let s : State := { upState with xl := { upState.xl with invals := [⟨0, 0, 12, 5, false, []⟩], reqs := [⟨0, 0, 4096, [0], 6, 0, 0, false⟩] } };
      noErrors s ∧ s.xl.invals.find? (fun q => q.tag == 5) = some ⟨0, 0, 12, 5, false, []⟩ ∧ atsInUse s ⟨0, 0, 12, 5, true, [0]⟩ = false ∧
      (∃ q ∈ s.xl.reqs, q.awaits 0 100 = true) ∧ enginesIdle s ∧ (∀ q ∈ s.xl.reqs, q.awaits 0 4096 = false) ∧
      s.xl.reqs = [⟨0, 0, 4096, [0], 6, 0, 0, false⟩] ∧ s.pcie.ctoDisable = false ∧
      ({ s.pcie with ctoDisable := true } : Pcie).ctoDisable = true) ∧
    (let s := xferState (tXfer .waitAts) { upState.xl with reqs := [⟨0, 0, 4096, [0], 0, 0, 0, false⟩] };
      findXfer s 0 0 0 = some (tXfer .waitAts) ∧ (tXfer .waitAts).phase ≠ .failed ∧ (getPkt s 0 0).isSome = true) ∧
    findGroup upState 3 = none ∧
    (let g : PrgGroup := ⟨3, 0, 0, 0, [0], 0, false, [], false⟩;
      let s := xferState (tXfer .heldPri) { upState.xl with groups := [g] };
      findGroup s 3 = some g ∧ g.dead = false ∧ g.more = [] ∧ findXfer s 0 0 0 = some (tXfer .heldPri) ∧ (getPkt s 0 0).isSome = true) ∧
    (let g : PrgGroup := ⟨3, 0, 0, 0, [0], 0, false, [], true⟩;
      findGroup { upState with xl := { upState.xl with groups := [g] } } 3 = some g ∧ g.dead = true) := by
  unfold hostOpen
  dsimp only
  repeat' apply And.intro
  all_goals first | decide | exact noLine rfl | exact fun (e : Nat) => ⟨rfl, rfl⟩

set_option maxRecDepth 20000 in
theorem wit_CacheAndTransferEvents :
    (hostOpen upState ∧ bootDone upState = true ∧ carveBusy upState = false) ∧
    (let s : State := { upState with progs := [{ tProg [] with scratch := 64 }] }; hostOpen s ∧ bootDone s = true ∧ carveBusy s = true) ∧
    { upState.cache with transition := some (2, 1) }.transition = some (2, 1) ∧
    (let s : State := { upState with cache := { upState.cache with dir := [(0, some ⟨0, false, false⟩), (1, some ⟨0, true, false⟩)], wS := 0 } };
      dirGet s 0 0 2 = none ∧ dirGet s 0 0 0 = some ⟨0, false, false⟩ ∧ dirGet s 0 0 1 = some ⟨0, true, false⟩ ∧ s.cache.wS ≤ 0 ∧
      ({ s.cache with wS := 1 } : Cache).wS > 0) ∧
    (let s : State := { upState with boot := { upState.boot with ecc := true } };
      s.boot.ecc = true ∧ 0 < capBytes s ∧ upState.boot.ecc = false) ∧
    (∀ ph ∈ [XferPhase.failed, XferPhase.done], let s := xferState (tXfer ph) upState.xl;
      (getEng s 0).running = some (tXfer ph) ∧ xferSettled s 0 (tXfer ph) = true ∧
      (getPkt s 0 0).map (fun p => (p.opcode, p.phase)) = some (0x20, .dispatched)) ∧
    noErrors (xferState (tXfer .done) upState.xl) ∧
    (let x : Xfer := { tXfer .trialDone with data := [1, 2] };
      let s (len cap : W32) : State := { xferState x upState.xl with fns := [(0, { Fn.dflt 0 with packets := [opPkt 0 0x21 [0x20, 0, 0, 0, 0, len, cap]] })] };
      noErrors (s 1 9) ∧ (getEng (s 1 9) 0).running = some x ∧ (∃ p, getPkt (s 1 9) 0 0 = some p ∧ srcLen p ≤ x.data.length) ∧
      (∃ p, getPkt (s 3 1) 0 0 = some p ∧ x.data.length < srcLen p ∧ (p.dw 10).toNat < x.data.length) ∧
      (∃ p, getPkt (s 3 9) 0 0 = some p ∧ x.data.length < srcLen p ∧ x.data.length ≤ (p.dw 10).toNat)) := by
  unfold hostOpen
  dsimp only
  repeat' apply And.intro
  all_goals first | decide | exact noLine rfl

/-! ### Hypotheses of the statements of chapters 9 to 11 -/

theorem wit_NumbersKeepTheirRules :
    (0x38 < 2 ^ codeBits 4 ∧ decodeNum 4 0x38 ≠ .nan) ∧ (3 < 2 ^ codeBits 10 ∧ decodeNum 10 3 ≠ .nan) := by decide

/-- A descriptor of an operator family whose input at word 28 is a row of 16 FP8 elements of the sequence state, or absent. -/
def tOp (fam : Nat) (input : Bool) : List W32 :=
  [BitVec.ofNat 32 fam] ++ List.replicate 27 0 ++
  (if input then [5, 0, 0, 0x10010, 0x10001, 16, 16, 16] else List.replicate 8 0) ++ List.replicate 28 0

/-- One stage with that operator; the sequence state is at a virtual address. -/
def opProg (fam : Nat) (input prov : Bool) (stateAt : Nat) : Prog :=
  { stgProg prov with ops := [tOp fam input], seqSlots := 1, stateAddr := stateAt, stateBytes := 4096, pblocks := [0] }

/-- Its job runs. -/
def opState (fam : Nat) (input : Bool) (stateAt : Nat) : State := jobState tJob (opProg fam input false stateAt) []

/-- The page is host memory that a Translation Request must be sent for. -/
def hostPaged (s : State) : State :=
  { s with fns := s.fns.map (fun e => (e.1, { e.2 with atsEn := true })), mem := Tab.insert s.mem 0x1000 0x3F }

/-- It has an operator to run. -/
theorem opNext_of {s : State} {f pos st op : Nat} {j : Job} {g : Prog} (he : s.boot.ecc = false) (hm : s.cache.met = none)
    (h : getJob s f pos = some j ∧ j.running = true ∧ j.cut = none ∧ getProg s f j.prog = some g ∧ settleStages s j g = s ∧ sameJob s j = j ∧
      stageRuns j g st = true ∧ nextOp j g st = some op) : opNext s f pos st j g op := ⟨sound he hm, h⟩

set_option maxRecDepth 20000 in
theorem wit_OperatorsRun :
    (∀ fam ∈ [0x01, 0x02, 0x03, 0x10, 0x11, 0x12, 0x13, 0x14, 0x15], (opRow 0 0 0 fam).isSome = true ∧
      opNext (opState fam false 0) 0 0 0 tJob (opProg fam false false 0) 0 ∧ opFamily (opWords (opProg fam false false 0) 0) = fam) ∧
    (∀ x ∈ [false, true], opNext (opState 0x11 x 0) 0 0 0 tJob (opProg 0x11 x false 0) 0 ∧
      blockRanges (opState 0x11 x 0) 0 0 (opRanges tJob (opProg 0x11 x false 0) 0 0) = .none ∧
      ((opCtxs tJob (opProg 0x11 x false 0) 0 0).map (fun c => (c.1, c.2.early))) = [(0, false)] ∧
      tJob.elems.length ≤ 1 ∧ rb (opState 0x11 x 0) R.FL_TRACE_CTRL F.FL_TRACE_CTRL.EN = false) ∧
    (opNext (opState 0x11 true 0x400000) 0 0 0 tJob (opProg 0x11 true false 0x400000) 0 ∧
      blockRanges (opState 0x11 true 0x400000) 0 0 (opRanges tJob (opProg 0x11 true false 0x400000) 0 0) =
        .fails St.UNPINNED_OPERAND 0x400000 false) ∧
    (opNext (hostPaged (opState 0x11 true 0)) 0 0 0 tJob (opProg 0x11 true false 0) 0 ∧
      blockRanges (hostPaged (opState 0x11 true 0)) 0 0 (opRanges tJob (opProg 0x11 true false 0) 0 0) = .waits) ∧
    (opNext (opState 0x20 false 0) 0 0 0 tJob (opProg 0x20 false false 0) 0 ∧ opFamily (opWords (opProg 0x20 false false 0) 0) = 0x20 ∧
      shOpsOf (opState 0x20 false 0) tJob 0 0 = [] ∧ (opState 0x20 false 0).shOps = [] ∧
      (opCtxs tJob (opProg 0x20 false false 0) 0 0).length = 1) ∧
    (let j : Job := { tJob with elems := [], stages := [(0, { StageRun.reset with phase := .firm })] };
      opCtxs j (opProg 0x20 false false 0) 0 0 = []) := by
  refine ⟨fun fam h => ⟨?_, opNext_of rfl rfl ?_, ?_⟩, fun x h => ⟨opNext_of rfl rfl ?_, ?_⟩, ⟨opNext_of rfl rfl ?_, ?_⟩,
    ⟨opNext_of rfl rfl ?_, ?_⟩, ⟨opNext_of rfl rfl ?_, ?_⟩, ?_⟩
  · revert fam; decide
  · revert fam; decide
  · revert fam; decide
  · revert x; decide
  · revert x; decide
  all_goals decide

set_option maxRecDepth 20000 in
/-- An early stage of one operator, and a SHADER operator that launches its first group. -/
theorem wit_OperatorsRun_launch :
    (let j : Job := { tJob with stages := [(0, { StageRun.reset with phase := .early, clusters := [0] })], elems := [{ tElem with prov := true, preds := [(0, none)] }] };
      let g : Prog := { opProg 0x11 false true 0 with stages := [⟨true, true, false, 0, 0, 1, 0x7F, []⟩] };
      let s := jobState j g [];
      opNext s 0 0 0 j g 0 ∧ (opCtxs j g 0 0).map (fun c => (c.1, c.2.early)) = [(0, true)]) ∧
    (let g : Prog := { tProg [0x307C] with stages := [⟨false, true, false, 0, 0, 0, 0, []⟩], ops := (tProg []).ops.map (fun w => 0x20 :: w.drop 1) };
      let s : State := { shState [0x307C] tWave with progs := [g], waves := [], groups := [] };
      opNext s 0 0 0 tJob g 0 ∧ opFamily (opWords g 0) = 0x20 ∧ shOpsOf s tJob 0 0 = [] ∧ s.shOps = [] ∧ (opCtxs tJob g 0 0).length = 1 ∧
      (opClusters tJob 0).head? = some 0 ∧ (∀ q ∈ s.groups, q.core / 4 ≠ 0) ∧ (∀ w ∈ s.waves, w.core / 4 ≠ 0) ∧
      1 ≤ shGroups (opWords g 0) ∧ 1 ≤ groupsPerCore (opWords g 0) ∧ wf (opWords g 0) 13 19 16 ≤ 8 ∧
      (∀ x ∈ opCtxs tJob g 0 0, getJob s 0 x.2.e.pos = some tJob)) := by
  refine ⟨⟨opNext_of rfl rfl ?_, ?_⟩, ⟨opNext_of rfl rfl ?_, ?_⟩⟩
  all_goals decide

/-- A job of one element in a program whose only stage is provisional on predicate 0; the stage stands as said, the predicate too. -/
def pencilJob (r : StageRun) (p : Option Bool) : Job :=
  { tJob with clusters := [0, 1, 2], elems := [{ tElem with prov := true, preds := [(0, p)] }], stages := [(0, r)] }
def pencilProg : Prog := { opProg 0x11 false true 0 with stages := [⟨true, true, false, 0, 0, 1, 0x7F, []⟩] }
def pencilState (r : StageRun) (p : Option Bool) : State := jobState (pencilJob r p) pencilProg []

def inPhase (ph : StagePhase) (n : Nat) : StageRun := { StageRun.reset with phase := ph, nextOp := n }

set_option maxRecDepth 20000 in
theorem wit_StagesAndPencil_ends :
    (let j := pencilJob (inPhase .firm 1) (some true);
      let s := pencilState (inPhase .firm 1) (some true);
      noErrors s ∧ getJob s 0 0 = some j ∧ j.live = true ∧ getProg s 0 j.prog = some pencilProg ∧ 0 < pencilProg.stages.length ∧
      opsDone pencilProg j 0 = true ∧ lowerEnded j 0 = true ∧ (stageDecl pencilProg 0).prov = true ∧ (stageRun j 0).phase = .firm) ∧
    (∀ ph ∈ [StagePhase.waiting, .ended], let j : Job := { tJob with stages := [(0, inPhase ph 1)] };
      let g := opProg 0x11 false false 0;
      let s := jobState j g [];
      getJob s 0 0 = some j ∧ j.live = true ∧ getProg s 0 j.prog = some g ∧ opsDone g j 0 = true ∧ lowerEnded j 0 = true ∧
      (stageDecl g 0).prov = false ∧ (stageRun j 0).phase = ph ∧ (stageDecl g 0).resolves = false ∧ (∀ d ∈ g.stages, d.prov = false) ∧
      s.shOps = []) ∧
    (let j := pencilJob (inPhase .earlyDone 1) none;
      let s := pencilState (inPhase .earlyDone 1) none;
      getJob s 0 0 = some j ∧ opsDone pencilProg j 0 = true ∧ lowerEnded j 0 = true ∧ (stageRun j 0).phase ≠ .firm) ∧
    (let j : Job := { tJob with stages := [(0, inPhase .waiting 1)] };
      let g (a : Nat) : Prog := { opProg 0x11 false false a with stages := [⟨false, false, true, 0, 0, 0, 0, [5, 0]⟩] };
      let s (a : Nat) := jobState j (g a) [];
      (stageDecl (g 0) 0).resolves = true ∧ opsDone (g 0) j 0 = true ∧ sameJob (s 0) j = j ∧
      rb (s 0) R.FL_TRACE_CTRL F.FL_TRACE_CTRL.EN = false ∧ Tab.get none tElem.preds (stageDecl (g 0) 0).resolvePred = none ∧
      blockRanges (s 0) 0 0 (resolveRanges j (g 0) 0) = .none ∧
      blockRanges (s 0x400000) 0 0 (resolveRanges j (g 0x400000) 0) = .fails St.UNPINNED_OPERAND 0x400000 false ∧
      blockRanges (hostPaged (s 0)) 0 0 (resolveRanges j (g 0) 0) = .waits) ∧
    (let s := pencilState (inPhase .firm 0) none;
      getJob s 0 0 = some (pencilJob (inPhase .firm 0) none) ∧ opsDone pencilProg (pencilJob (inPhase .firm 0) none) 0 = false) := by
  refine ⟨⟨sound rfl rfl, ?_⟩, ?_, ?_, ?_, ?_⟩ <;> decide

set_option maxRecDepth 20000 in
theorem wit_StagesAndPencil_early :
    (let j := pencilJob StageRun.reset none;
      let s := pencilState StageRun.reset none;
      getJob s 0 0 = some j ∧ getProg s 0 j.prog = some pencilProg ∧ mayStartEarly j pencilProg 0 = true ∧ earlierClaim s j 0 = false ∧
      j.elems.length * stagePencil pencilProg 0 / 4096 ≤ 1 ∧ (stageRun j 0).claimWaiting = false ∧
      (∀ e ∈ j.elems, predOf pencilProg e 0 = none ∧ parentErased pencilProg e 0 = false)) ∧
    (let j : Job := { pencilJob StageRun.reset none with elems := [{ tElem with prov := true, preds := [(0, none)] },
        { tElem with prov := true, idx := 1, preds := [(0, some true)] }, { tElem with prov := true, idx := 2, preds := [(0, some false)] }] };
      mayStartEarly j pencilProg 0 = true ∧ j.elems.map (fun e => (predOf pencilProg e 0, parentErased pencilProg e 0)) =
        [(none, false), (some true, false), (some false, false)]) ∧
    (let j := pencilJob { StageRun.reset with claimWaiting := true } none;
      mayStartEarly j pencilProg 0 = true ∧ (stageRun j 0).claimWaiting = true) ∧
    mayStartEarly (pencilJob StageRun.reset (some true)) pencilProg 0 = false ∧
    (let k : Job := { pencilJob { StageRun.reset with claimWaiting := true } none with order := 1, elems := [] };
      let j : Job := { pencilJob StageRun.reset none with order := 2 };
      let s : State := { jobState j pencilProg [] with tt := { State.reset.tt with jobs := [k, j] } };
      getJob s 0 0 = some j ∧ mayStartEarly j pencilProg 0 = true ∧ earlierClaim s j 0 = true) ∧
    (let j := pencilJob (inPhase .early 1) none;
      let s := pencilState (inPhase .early 1) none;
      getJob s 0 0 = some j ∧ j.live = true ∧ (stageRun j 0).phase = .early ∧ opsDone pencilProg j 0 = true) := by
  refine ⟨?_, ?_, ?_, ?_, ?_, ?_⟩ <;> decide

/-- The stage wrote one byte in pencil. -/
def inkJob (a : Nat) : Job :=
  { pencilJob (inPhase .earlyDone 1) (some true) with
    elems := [{ tElem with prov := true, preds := [(0, some true)], stages := [(0, { StageElem.reset with pva := [(a, some (0, 7))] })] }] }

set_option maxRecDepth 20000 in
theorem wit_StagesAndPencil_inks :
    (∀ a ∈ [0, 0x400000], let j := inkJob a;
      let s := jobState j pencilProg [];
      s.boot.ecc = false ∧ s.cache.met = none ∧
      getJob s 0 0 = some j ∧ j.live = true ∧ (stageRun j 0).phase = .earlyDone ∧ sameJob s j = j ∧
      (∀ e ∈ j.elems, inkReady pencilProg e 0 = true ∧ (stageCtx j pencilProg e 0).inkBytes = [(Place.va a, 7)])) ∧
    (blockRanges (jobState (inkJob 0) pencilProg []) 0 0 (inkRanges [(Place.va 0, 7)]) = .none ∧
      blockRanges (jobState (inkJob 0x400000) pencilProg []) 0 0 (inkRanges [(Place.va 0x400000, 7)]) = .fails St.UNPINNED_OPERAND 0x400000 true ∧
      blockRanges (hostPaged (jobState (inkJob 0) pencilProg [])) 0 0 (inkRanges [(Place.va 0, 7)]) = .waits) ∧
    (let s := pencilState (inPhase .firm 1) none;
      getJob s 0 0 = some (pencilJob (inPhase .firm 1) none) ∧ (stageRun (pencilJob (inPhase .firm 1) none) 0).phase ≠ .earlyDone) := by
  refine ⟨?_, ?_, ?_⟩ <;> decide

set_option maxRecDepth 20000 in
theorem wit_StagesAndPencil_settle :
    (∀ ph ∈ [StagePhase.early, .earlyDone, .waiting],
      onlyProv (pencilState (inPhase ph 1) (some false)) (pencilJob (inPhase ph 1) (some false)) pencilProg 0 ∧
      (∀ e ∈ (pencilJob (inPhase ph 1) (some false)).elems, predOf pencilProg e 0 = some false ∧ parentErased pencilProg e 0 = false)) ∧
    lowerEnded (pencilJob (inPhase .waiting 1) (some true)) 0 = true ∧ (pencilJob (inPhase .waiting 1) (some true)).elems ≠ [] ∧
    (pencilState (inPhase .waiting 1) (some true)).shOps = [] ∧
    (∀ p ∈ [some true, none], onlyProv (pencilState StageRun.reset p) (pencilJob StageRun.reset p) pencilProg 0) := by
  have only : ∀ n, (stageDecl pencilProg n).prov = true ↔ n = 0 := by
    intro n
    cases n with
    | zero => decide
    | succ m => simp [stageDecl, pencilProg, firmStage]
  refine ⟨?_, by decide, by decide, rfl, ?_⟩
  · intro ph h
    simp only [List.mem_cons, List.not_mem_nil, or_false] at h
    rcases h with rfl | rfl | rfl <;> exact ⟨⟨by decide, by decide, by decide, by decide, by decide, by decide, only, by decide⟩, by decide⟩
  · intro p h
    simp only [List.mem_cons, List.not_mem_nil, or_false] at h
    rcases h with rfl | rfl <;> exact ⟨by decide, by decide, by decide, by decide, by decide, by decide, only, by decide⟩

/-! ### Hypotheses of the statements of chapters 13 and 14 -/

/-- A DRAW_LIST of one record at virtual 0, a target of 64 by 32 pixels at 0x10000 and a bin buffer at 0x20000. -/
def tList : Packet := { opPkt 0 0x30 [0, 0, 32, 0x10000, 0, 0x200040, 256, 1, 0x20000, 0, 4096] with phase := .dispatched }
def tDraw : Draw :=
  { fn := 0, pos := 0, cursor := 0, pass := 1, clear := none, clips := [wholeTarget tList], atlases := [], clip := 0, atlas := 0
    bins := [], used := 0, wrote := [], tiles := 0 }
/-- Memory with some of its bytes replaced. -/
def put (m : List Host.Cell) (bs : List Host.Cell) : List Host.Cell := m.map (fun c => (bs.find? (fun b => b.1 == c.1)).getD c)

/-- It runs, and reads this record; virtual 1 GiB is a peer's, and virtual 2 MiB a host page. -/
def drawStateOf (p : Packet) (d : Draw) (r : List Nat) : State :=
  { ringState 1 [p] with
    rend := ⟨[], some d⟩
    fns := (ringState 1 [p]).fns.map (fun e => (e.1, { e.2 with atsEn := true }))
    mem := put (pageMem (((r ++ List.replicate (8 - r.length) 0).map (bytesLE 4)).flatten)) [(8, 0xDF), (0x1008, 0x3F), (0x100A, 0x60)] }
def drawState (d : Draw) (r : List Nat) : State := drawStateOf tList d r
def readsAt (s : State) : State := touchVA s 21 0 0 32 true false

/-- The record is read as it was written, and is well formed or not. -/
def recReads (d : Draw) (r : List Nat) (bad : Bool) : Prop :=
  drawing (drawState d r) (readsAt (drawState d r)) d tList (readRec (readsAt (drawState d r)) d tList 0) ∧
  (readRec (readsAt (drawState d r)) d tList 0).type = r.headD 0 % 256 ∧ recBad d (readRec (readsAt (drawState d r)) d tList 0) = bad

theorem recReads_of {d : Draw} {r : List Nat} {bad : Bool} (h : (drawState d r).rend.cur = some d ∧ getPkt (drawState d r) d.fn d.pos = some tList ∧
      listOver d tList = false ∧ blockRanges (drawState d r) 21 d.fn [⟨dlList tList + 32 * d.cursor, 32, false⟩] = .none ∧ d.fn = 0 ∧
      d.cursor = 0 ∧ (readRec (readsAt (drawState d r)) d tList 0).type = r.headD 0 % 256 ∧
      recBad d (readRec (readsAt (drawState d r)) d tList 0) = bad) : recReads d r bad := by
  obtain ⟨h1, h2, h3, h4, h5, h6, h7, h8⟩ := h
  exact ⟨⟨sound rfl rfl, h1, h2, by decide, h3, h4, by rw [h5, h6]; rfl, by rw [h6]⟩, h7, h8⟩

set_option maxRecDepth 20000 in
theorem wit_DrawRecordsAct_reads :
    (∀ t ∈ [0x00, 0x01, 0x02, 0x03, 0x04, 0x05, 0x06, 0x10, 0x11, 0x12, 0xFF], (drawRow t).isSome = true) ∧
    (noErrors State.reset ∧ State.reset.rend.cur = none ∧ State.reset.rend.queue = []) ∧ recReads tDraw [0x77] true ∧
    (∀ t ∈ [0x00, 0x12, 0x10, 0xFF], recReads tDraw [t] false) ∧ recReads tDraw [0x10011] false ∧
    (∀ a ∈ [0x30000, 0x400000, 0x40000000], recReads tDraw [0x11, 0, a, 0, 4, 0x10004] false) ∧
    (∀ t ∈ [0x01, 0x05], recReads tDraw [t, 0xFFFFFFFF, 0, 0x00080008] false) ∧
    (∀ t ∈ [0x02, 0x03], recReads tDraw [t, 0, 0, 0, 1] false) ∧ recReads tDraw [0x04, 0, 0, 0, 0, 0, 256] false ∧
    recReads tDraw [0x06, 0, 0, 0, 0x101] false ∧
    (let p : Packet := { tList with words := tList.words.set 4 0x200000 };
      let s := drawStateOf p tDraw [];
      s.rend.cur = some tDraw ∧ getPkt s 0 0 = some p ∧ listOver tDraw p = false ∧
      blockRanges s 21 0 [⟨dlList p + 32 * tDraw.cursor, 32, false⟩] = .waits) := by
  refine ⟨by decide, ⟨sound rfl rfl, rfl, rfl⟩, recReads_of (by decide), fun t h => recReads_of ?_, recReads_of (by decide),
    fun a h => recReads_of ?_, fun t h => recReads_of ?_, fun t h => recReads_of ?_, recReads_of (by decide), recReads_of (by decide), by decide⟩
  · revert t; decide
  · revert a; decide
  · revert t; decide
  · revert t; decide

set_option maxRecDepth 20000 in
theorem wit_DrawRecordsAct_acts :
    (let u := readsAt (drawState tDraw [0x01, 0, 0, 0x00080008]);
      let r := readRec u tDraw tList 0;
      isPrim r.type = true ∧ boxTiles tList (binBox tDraw tList r) = [0] ∧ chunksNeeded tDraw [0] = 1 ∧
      tDraw.used + 1 ≤ dlChunks tList ∧ blockRanges u 21 0 [binRange tDraw tList 1] = .none ∧
      dlChunks tList < { tDraw with used := 63 }.used + 1 ∧ blockRanges u 21 0 [binRange { tDraw with used := 63 } tList 0] = .none ∧
      blockRanges u 21 0 (shadeRanges { tDraw with used := 63 } tList) = .none) ∧
    blockRanges (readsAt (drawState tDraw [0xFF])) 21 0 (shadeRanges { tDraw with clear := some 0 } tList) = .none ∧
    (let s := drawState { tDraw with cursor := 1 } [];
      s.rend.cur = some { tDraw with cursor := 1 } ∧ listOver { tDraw with cursor := 1 } tList = true ∧ getPkt s 0 0 = some tList ∧
      tList.phase ≠ .complete ∧ blockRanges s 21 0 (shadeRanges { tDraw with cursor := 1 } tList) = .none) ∧
    (let u (a : Nat) := readsAt (drawState tDraw [0x11, 0, a, 0, 4, 0x10004]);
      let at_ (a : Nat) := recAtlas (readRec (u a) tDraw tList 0);
      (at_ 0x30000).addr = 0x30000 ∧ pageTarget (u 0x30000) 0 0x30000 4 (· == 2) = false ∧ pinned (u 0x30000) 0 0x30000 4 false = true ∧
      (at_ 0x400000).addr = 0x400000 ∧ pageTarget (u 0x400000) 0 0x400000 4 (· == 2) = false ∧ pinned (u 0x400000) 0 0x400000 4 false = false ∧
      (at_ 0x40000000).addr = 0x40000000 ∧ pageTarget (u 0x40000000) 0 0x40000000 4 (· == 2) = true) ∧
    (let p : Packet := { tList with words := tList.words.set 12 0x220000 };
      let u := readsAt (drawStateOf p tDraw [0x01, 0, 0, 0x00080008]);
      (readRec u tDraw p 0).type = 1 ∧ blockRanges u 21 0 [binRange tDraw p 1] = .waits) := by
  refine ⟨by decide, by decide, by decide, by decide, by decide⟩

/-- The compositor is the source, 64 by 64 pixels out by DisplayPort or to memory; layer 0 shows 16 by 1 pixels. -/
def showState (ctrl out : W32) (l : Layer) (d : Display) : State :=
  mapState { pfState [{ opPkt 0 0x40 [] with phase := .dispatched }] with
    disp := { d with cfg := ⟨1, [out, 0, 0x40040, 0, 0x40004, 0, 0, 0, 0, 0]⟩, layers := [(0, l)] }
    force := [(R.DC_LAYER_n_CTRL 0, 0x100 + ctrl), (R.DC_LAYER_n_SRC_SIZE 0, 0x10010), (R.DC_LAYER_n_DST_SIZE 0, 0x10010)] }
def tRes (w : Bool) : LatchRes := ⟨[0, 0, 0, 0, 0, 0, 0, 0], w, false, [], []⟩
def tFlip : Flip := ⟨0, 0, 0, 0, 256, 0⟩
/-- The layer is on; its configuration is valid or not. -/
def layerOn (s : State) (good : Bool) : Prop := layBit (latchView s) 0 F.DC_LAYER_n_CTRL.EN = true ∧ layerGood s 0 = good

set_option maxRecDepth 20000 in
theorem wit_LatchesAndFrames_latch :
    State.reset.disp.cfg.source ≠ 1 ∧
    (let s := showState 0 8 ⟨none, none⟩ Display.reset;
      s.disp.cfg.source = 1 ∧ s.disp.latched = none ∧ s.disp.cfg.wbEn = false ∧ layBit (latchView s) 0 F.DC_LAYER_n_CTRL.EN = false) ∧
    (let s := showState 1 4 ⟨some tFlip, none⟩ Display.reset;
      layerOn s true ∧ (getLayer s 0).pend ≠ none ∧ s.disp.cfg.wbEn = true ∧ s.disp.cfg.dpEn = false) ∧
    layerOn (showState 1 4 ⟨some { tFlip with plane1 := 8 }, none⟩ Display.reset) false ∧
    (let s := showState 1 4 ⟨none, some tFlip⟩ Display.reset;
      layerOn s true ∧ (getLayer s 0).bound ≠ none ∧ layBit (latchView s) 0 F.DC_LAYER_n_CTRL.PER_FRAME = false) ∧
    (∀ pol : W32, pol < 3 → let s := showState (3 + 4 * pol) 4 ⟨none, some tFlip⟩ Display.reset;
      layerOn s true ∧ (getLayer s 0).pend = none ∧ layBit (latchView s) 0 F.DC_LAYER_n_CTRL.PER_FRAME = true ∧
      lfld (latchView s) (R.DC_LAYER_n_CTRL 0) F.DC_LAYER_n_CTRL.POLICY = pol.toNat) ∧
    layerOutcome (showState 11 4 ⟨none, some tFlip⟩ Display.reset) 0 = 5 := by
  unfold layerOn
  refine ⟨by decide, by decide, by decide, by decide, by decide, ?_, by decide⟩
  intro pol h
  have : pol = 0 ∨ pol = 1 ∨ pol = 2 := by bv_omega
  rcases this with rfl | rfl | rfl <;> decide

def tFrame (w : Bool) (flips : List Flip) : Frame := ⟨1, 0, 1, true, false, { tRes w with flips := flips }, []⟩

set_option maxRecDepth 20000 in
theorem wit_LatchesAndFrames_frames :
    (let s := showState 0 8 ⟨none, none⟩ { Display.reset with latched := some (tRes false) };
      s.disp.cfg.source = 1 ∧ s.disp.frame = none ∧ cfgIdle s ∧ s.disp.latched = some (tRes false) ∧
      Tab.sortedFrom 0 (tRes false).regs = true) ∧
    (let s := showState 0 8 ⟨none, none⟩ Display.reset;
      s.disp.latched = none ∧ s.disp.frame = none ∧ cfgIdle s) ∧
    (let s : State := { upState with disp := { Display.reset with cfgCur := some (0, .waitEnd) } }; s.disp.cfg.source ≠ 1 ∧ cfgIdle s) ∧
    (let s : State := { upState with disp := { Display.reset with cfgCur := some (0, .train) } }; s.disp.cfgCur = some (0, .train)) ∧
    (let s : State := { ringState 1 [opPkt 0 0x41 [1]] with disp := { Display.reset with cfgCur := some (0, .ready) } };
      s.disp.cfgCur = some (0, .ready) ∧ getPkt s 0 0 = some (opPkt 0 0x41 [1]) ∧ (opPkt 0 0x41 [1]).phase ≠ .complete ∧
      (cfgOf (opPkt 0 0x41 [1])).source = 1) ∧
    (cfgOf (opPkt 0 0x41 [2])).source ≠ 1 ∧
    (∀ w ∈ [false, true], let s := showState 0 12 ⟨none, none⟩ { Display.reset with frame := some (tFrame w [tFlip]), linkUp := true };
      s.boot.ecc = false ∧ s.cache.met = none ∧
      s.disp.frame = some (tFrame w [tFlip]) ∧ s.disp.cfgCur = none ∧ s.disp.cfg.wbEn = true ∧ wedgedNow s = false ∧
      (tFrame w [tFlip]).latch.flips = [tFlip] ∧ ((getPkt s 0 0).map (·.phase)) = some .dispatched ∧ shownLayers (tFrame w [tFlip]) = [] ∧
      (tFrame w [tFlip]).dpOut = true) ∧
    (let s := showState 0 8 ⟨none, none⟩ { Display.reset with frame := some (tFrame false []) };
      s.disp.frame = some (tFrame false []) ∧ s.disp.cfg.wbEn = false) ∧
    (let s : State := { ringState 1 [opPkt 0 0x41 [1]] with disp := { Display.reset with cfgCur := some (0, .waitEnd), frame := some (tFrame false []) } };
      noErrors s ∧ s.disp.frame = some (tFrame false []) ∧ s.disp.cfgCur = some (0, .waitEnd) ∧ (getPkt s 0 0).isSome = true) := by
  have idle : ∀ (c : Option (Nat × CfgPhase)), c = none ∨ c = some (0, .waitEnd) →
      ∀ pos, c ≠ some (pos, CfgPhase.ready) ∧ c ≠ some (pos, CfgPhase.train) := by
    intro c h pos
    rcases h with rfl | rfl <;> simp
  exact ⟨⟨by decide, by decide, idle none (.inl rfl), by decide, by decide⟩, ⟨by decide, by decide, idle none (.inl rfl)⟩,
    ⟨by decide, idle _ (.inr rfl)⟩, by decide, by decide, by decide, by decide, by decide, sound rfl rfl, by decide, by decide, by decide⟩

/-- The link is up and trains for something; an AUX transaction runs. -/
def dpState (tr : Option TrainFor) (cc : Option (Nat × CfgPhase)) : State :=
  { ringState 1 [opPkt 0 0x41 [1]] with disp := { Display.reset with hpd := true, linkUp := true, train := tr, cfgCur := cc } }
/-- A transaction of one byte runs or waits. -/
def tAux (cmd : Nat) (sent : Bool) : AuxReq := ⟨cmd, 0, false, 1, [], sent⟩
def auxState (tr : Option TrainFor) (r : AuxReq) : State :=
  { upState with regs := [(R.CP_BOOT_STATUS, 1), (R.DC_AUX_STATUS, 1)], disp := { Display.reset with aux := some r, train := tr } }

set_option maxRecDepth 20000 in
theorem wit_DisplayLinkEvents :
    (State.reset.disp.hpd = false ∧ State.reset.disp.train = none ∧ State.reset.disp.aux = none) ∧
    ((dpState none none).disp.hpd = true ∧ (dpState none none).disp.train = none) ∧
    (∀ w ∈ [TrainFor.notice, .resume], (dpState (some w) none).disp.train = some w ∧ w ≠ .config ∧ (dpState (some w) none).disp.hpd = true) ∧
    ((dpState (some .config) (some (0, .train))).disp.train = some .config ∧ (dpState (some .config) (some (0, .train))).disp.hpd = true ∧
      (dpState (some .config) (some (0, .train))).disp.cfgCur = some (0, .train) ∧
      getPkt (dpState (some .config) (some (0, .train))) 0 0 = some (opPkt 0 0x41 [1]) ∧ (opPkt 0 0x41 [1]).phase ≠ .complete) ∧
    (hostOpen upState ∧ bootDone upState = true ∧ fld (0x80000000 : W32) 31 31 = 1 ∧ isClear upState R.DC_AUX_STATUS F.DC_AUX_STATUS.BUSY ∧
      upState.disp.train = none) ∧
    (let s : State := { upState with disp := { Display.reset with hpd := true, train := some .resume } };
      hostOpen s ∧ bootDone s = true ∧ isClear s R.DC_AUX_STATUS F.DC_AUX_STATUS.BUSY ∧ s.disp.train ≠ none) ∧
    (hostOpen (auxState none (tAux 0 true)) ∧ isSet (auxState none (tAux 0 true)) R.DC_AUX_STATUS F.DC_AUX_STATUS.BUSY) ∧
    ((auxState none (tAux 0 false)).disp.train = none ∧ (auxState none (tAux 0 false)).disp.aux = some (tAux 0 false) ∧ (tAux 0 false).sent = false) ∧
    (auxState (some .resume) (tAux 0 false)).disp.train ≠ none ∧
    (∀ cmd < 2, (auxState none (tAux cmd true)).disp.aux = some (tAux cmd true) ∧ (tAux cmd true).sent = true ∧ (tAux cmd true).len ≤ 16 ∧
      (tAux cmd true).cmd % 2 = cmd ∧ ([7] : List Byte).length = (tAux cmd true).len) := by
  unfold hostOpen isSet isClear
  refine ⟨by decide, by decide, by decide, by decide, by decide, by decide, by decide, by decide, by decide, by decide⟩

/-! ### Hypotheses of the statements of chapter 15 -/

/-- Port 0 stands so: its state register's word and the rest. -/
def lnkState (w : W32) (x : Port) : State :=
  { upState with regs := [(R.CP_BOOT_STATUS, 1), (R.BL_LINK_n_CTRL 0, 3), (R.BL_LINK_n_STATE 0, w)]
                 link := { upState.link with ports := [(0, x)] } }
/-- It trains, with every lane locked. -/
def trainState (ph : TrainPhase) (half : Bool) (w : W32) : State := lnkState (0x3FC00 + w) { Port.reset with train := ph, half := half }
/-- A training set of pod 1, port 0, with every lane locked there. -/
def tSet (pod credits : Nat) : List Byte :=
  [0xA5, 0x3C, 0, BitVec.ofNat 8 (4 * pod), 2, 0xFF, 3, 0] ++ (List.replicate 4 (bytesLE 2 credits)).flatten

set_option maxRecDepth 20000 in
theorem wit_LinksTrainAndFail_training :
    (∀ w ∈ ([0, 1, 2, 3, 4, 5, 6] : List W32), hostOpen (lnkState w Port.reset) ∧ bootDone (lnkState w Port.reset) = true ∧
      portState (lnkState w Port.reset) 0 = w.toNat) ∧
    (awake (trainState .detect false 2) ∧ (getPort (trainState .detect false 2) 0).train = .detect ∧
      (getPort (trainState .detect false 2) 0).reversed = none ∧ lanesLocked (trainState .detect false 2) 0 ≠ 0) ∧
    (getPort (trainState .equalise false 2) 0).train = .equalise ∧ State.reset.pwr.phase = .awake ∧
    (getPort (lnkState 2 Port.reset) 0).train = .idle ∧
    (∀ half ∈ [false, true], awake (trainState .config half 2) ∧ (getPort (trainState .config half 2) 0).train = .config ∧
      (getPort (trainState .config half 2) 0).half = half ∧ tsbOk (tSet 1 128) half = true ∧
      agreeWidth (Nat.land (lanesLocked (trainState .config half 2) 0) (mByte (tSet 1 128) 5))
        (min (getPort (trainState .config half 2) 0).cap (mByte (tSet 1 128) 6)) = some (3, 0)) ∧
    (nbits (mByte (tSet 0 128) 3) 3 2 = (trainState .config false 2).boot.podId ∧ tsbOk (tSet 0 128) false = true ∧
      nbits (mByte (tSet 1 128) 3) 3 2 ≠ (trainState .config false 2).boot.podId) ∧
    (let s : State := sf (trainState .config false 2) (R.BL_LINK_n_STATE 1) (6, 0) 0x23;
      portUp s 1 = true ∧ portPeer s 1 = nbits (mByte (tSet 1 128) 3) 3 2 ∧ (getPort s 0).train = .config) ∧
    (∀ q, q < 3 → q ≠ 0 → portUp (trainState .config false 2) q = false) ∧ tsbOk (tSet 1 0) false = false ∧
    (let s := lnkState 2 { Port.reset with train := .detect };
      (getPort s 0).train = .detect ∧ lanesLocked s 0 = 0) ∧
    (isSet (lnkState 1 Port.reset) (R.BL_LINK_n_CTRL 0) F.BL_LINK_n_CTRL.EN ∧
      isSet (lnkState 1 Port.reset) (R.BL_LINK_n_CTRL 0) F.BL_LINK_n_CTRL.AUTO_RETRY ∧
      isClear { lnkState 1 Port.reset with regs := [(R.BL_LINK_n_CTRL 0, 1)] } (R.BL_LINK_n_CTRL 0) F.BL_LINK_n_CTRL.AUTO_RETRY) := by
  unfold hostOpen awake isSet isClear
  refine ⟨?_, by decide, by decide, by decide, by decide, ?_, by decide, by decide, by decide, by decide, by decide, by decide⟩
  · intro w h
    simp only [List.mem_cons, List.not_mem_nil, or_false] at h
    rcases h with rfl | rfl | rfl | rfl | rfl | rfl | rfl <;> decide
  · intro half h
    simp only [List.mem_cons, List.not_mem_nil, or_false] at h
    rcases h with rfl | rfl <;> decide

/-- A flit of a kind, as another port sends it. -/
def tFlit (kind seq : Nat) : List Byte := flitBytes Port.reset kind seq (List.replicate 16 0)

set_option maxRecDepth 20000 in
theorem wit_LinksTrainAndFail_flits :
    (takesFlits (lnkState 3 Port.reset) 0 ∧ portState (lnkState 3 Port.reset) 0 = 3 ∧ (getPort (lnkState 3 Port.reset) 0).rxSeq < 65536 ∧
      ¬ takesFlits (lnkState 1 Port.reset) 0 ∧ ¬ takesFlits (lnkState 3 Port.reset) 3) ∧
    flitGood [] = false ∧
    (∀ seq ∈ [0, 1, 65535], flitGood (tFlit 0 seq) = true ∧ nbits (mByte (tFlit 0 seq) 4) 1 0 = 0 ∧ mLE (tFlit 0 seq) 6 2 % 16384 ≠ 0 ∧
      mLE (tFlit 0 seq) 0 2 = seq) ∧
    (let fl := (tFlit 2 0).take 4 ++ [2] ++ (tFlit 2 0).drop 5;
      let nak := fl.take 248 ++ bytesLE 8 (crc64 (fl.take 248));
      flitGood nak = true ∧ nbits (mByte nak 4) 1 0 = 2 ∧ nbit (mByte nak 4) 2 = false) ∧
    (let s := lnkState 3 { Port.reset with replay := [⟨0, []⟩] };
      portState s 0 = 3 ∧ (getPort s 0).replay ≠ [] ∧ (getPort s 0).parked = false) := by
  unfold takesFlits
  refine ⟨by decide, by decide, by decide +kernel, by decide +kernel, by decide⟩

set_option maxRecDepth 20000 in
/-- Flits where the port is not ACTIVE or has asked already, and the thresholds of Table 15.5. -/
theorem wit_LinksTrainAndFail_replay :
    (takesFlits (lnkState 4 Port.reset) 0 ∧ portState (lnkState 4 Port.reset) 0 ≠ 3) ∧
    (takesFlits (lnkState 3 { Port.reset with nakSent := true }) 0 ∧ (getPort (lnkState 3 { Port.reset with nakSent := true }) 0).nakSent = true) ∧
    (getPort (lnkState 3 { Port.reset with parked := true }) 0).parked = true ∧
    (let x : Port := { Port.reset with replay := [⟨0, []⟩] };
      ∀ n ∈ ([0, 7, 31, 127] : List W32), let s : State := { lnkState 3 x with regs := (lnkState 3 x).regs ++ [(R.BL_LINK_n_ERR 0, n)] };
      portState s 0 = 3 ∧ getPort s 0 = x ∧ rf s (R.BL_LINK_n_ERR 0) F.BL_LINK_n_ERR.REPLAYS = n.toNat ∧ s.pwr.phase = .awake ∧
      x.did8 = false ∧ x.did32 = false ∧ x.did128 = false ∧ x.parked = false) ∧
    (getPort (trainState .detect false 2) 0).savedEq = false ∧
    (let s := lnkState 0x3FC02 { Port.reset with train := .detect, savedEq := true };
      (getPort s 0).train = .detect ∧ (getPort s 0).savedEq = true ∧ lanesLocked s 0 ≠ 0) := by
  unfold takesFlits
  refine ⟨by decide, by decide, by decide, ?_, by decide, by decide⟩
  intro x n h s
  simp only [List.mem_cons, List.not_mem_nil, or_false] at h
  rcases h with rfl | rfl | rfl | rfl <;> exact ⟨by decide, by decide, by decide, rfl, rfl, rfl, rfl, rfl⟩

/-- A message of pod 1 to pod 0. -/
def tMsg (type cls seq : Nat) (fields data : List Byte) : List Byte := mkMsg type cls 1 0 false 5 seq fields data
def tReq (type : Nat) : RemoteReq := ⟨1, 5, type, .packet, 20, 0, 0, 0, 16, 0, [], true, 0⟩
/-- Port 0 is up to pod 1 and holds some messages; pod 1 may reach the first GiB or not. -/
def boxState (msgs : List (List Byte)) (open_ : Bool) : State :=
  { ringState 1 [{ opPkt 0 0x03 [] with phase := .dispatched }] with
    regs := (ringState 1 []).regs ++ [(R.BL_LINK_n_STATE 0, 0x23)] ++ (if open_ then [] else [(R.MT_POD_ALLOW_p_LO 1, 0)])
    link := { upState.link with ports := [(0, { Port.reset with inbox := msgs })] } }

set_option maxRecDepth 20000 in
theorem wit_PeerMessagesActOnce_streams :
    (∀ x ∈ [(0x01, 1), (0x02, 1), (0x03, 1), (0x08, 2), (0x09, 2), (0x0A, 2), (0x10, 0), (0x11, 0), (0x12, 0), (0x13, 0), (0x18, 2), (0x19, 2),
        (0x1A, 2), (0x20, 0), (0x21, 0)],
      (peerRow 0 x.1).isSome = true ∧ arrives (boxState [tMsg x.1 x.2 0 [] (List.replicate 16 0)] false) 0 x.1
        (tMsg x.1 x.2 0 [] (List.replicate 16 0))) ∧
    firstOf 0 0x01 State.reset = none ∧
    (let m := tMsg 0x01 1 3 [] [];
      let s : State := { boxState [m] false with link := { (boxState [m] false).link with rxE2E := [(5, 4)] } };
      firstOf 0 0x01 s = some m ∧ wellMade m = true ∧ numbered 0x01 = true ∧ mSeq m < Tab.get 0 s.link.rxE2E (4 * mSrc m + mClass m)) ∧
    (let m := tMsg 0x01 1 3 [] [];
      firstOf 0 0x01 (boxState [m] false) = some m ∧ Tab.get 0 (boxState [m] false).link.rxE2E (4 * mSrc m + mClass m) < mSeq m) ∧
    (let m := tMsg 0x01 0 0 [] [];
      firstOf 0 0x01 (boxState [m] false) = some m ∧ wellMade m = false ∧
      mSeq m = Tab.get 0 (boxState [m] false).link.rxE2E (4 * mSrc m + mClass m)) ∧
    (∀ type ∈ [0x02, 0x03], let m := tMsg type 1 0 [] (List.replicate 16 0);
      let s : State := { boxState [m] false with regs := Tab.insert (boxState [m] false).regs R.FL_DEVICE_FAULT 0x10 };
      firstOf 0 type s = some m ∧ wellMade m = true ∧ wedgedNow s = true) ∧
    (noErrors (boxState [tMsg 0x01 1 0 [] []] false) ∧
      ∀ q ∈ (getPort (boxState [tMsg 0x01 1 0 [] []] false) 0).inbox, typeKnown (mType q) = true) := by
  unfold arrives
  refine ⟨?_, by decide, by decide, by decide, by decide, by decide, sound rfl rfl, by decide⟩
  intro x h
  simp only [List.mem_cons, List.not_mem_nil, or_false] at h
  rcases h with rfl | rfl | rfl | rfl | rfl | rfl | rfl | rfl | rfl | rfl | rfl | rfl | rfl | rfl | rfl <;> decide

set_option maxRecDepth 20000 in
theorem wit_PeerMessagesActOnce_accesses :
    (let m := tMsg 0x01 1 0 [0, 0, 0, 0, 0, 15] [];
      arrives (boxState [m] true) 0 0x01 m ∧ arrives (boxState [m] false) 0 0x01 m ∧
      podAllowed (delivered (boxState [m] true) 0 m) m = true ∧ podAllowed (delivered (boxState [m] false) 0 m) m = false) ∧
    (let m := tMsg 0x02 1 0 [0, 0, 0, 0, 0, 15] (List.replicate 16 7);
      (boxState [m] true).boot.ecc = false ∧ arrives (boxState [m] true) 0 0x02 m ∧ arrives (boxState [m] false) 0 0x02 m ∧
      podAllowed (delivered (boxState [m] true) 0 m) m = true ∧ podAllowed (delivered (boxState [m] false) 0 m) m = false ∧
      m.length = 16 + 16 * dataSlots m 0 ∧ wedgedNow (boxState [m] true) = false) ∧
    (let m := tMsg 0x03 1 0 [0, 0, 0, 0, 0, 0] (List.replicate 4 7 ++ List.replicate 12 0);
      arrives (boxState [m] true) 0 0x03 m ∧ arrives (boxState [m] false) 0 0x03 m ∧
      podAllowed (delivered (boxState [m] true) 0 m) m = true ∧ podAllowed (delivered (boxState [m] false) 0 m) m = false ∧
      wedgedNow (boxState [m] true) = false) := by
  unfold arrives
  refine ⟨by decide, by decide, by decide⟩

set_option maxRecDepth 20000 in
theorem wit_PeerMessagesActOnce_answers :
    (∀ x ∈ [(0x08, 1), (0x09, 2), (0x0A, 3), (0x18, 0x10), (0x19, 0x11), (0x1A, 0x13)],
      let m := tMsg x.1 2 0 [] (List.replicate 16 0);
      let s : State := { boxState [m] false with link := { (boxState [m] false).link with reqs := [tReq x.2] } };
      arrives s 0 x.1 m ∧ mLE m 8 2 = St.DONE ∧ findsReq (delivered s 0 m) m [x.2] (tReq x.2) ∧ m.length = 16 + 16 * ceilDiv (tReq x.2).len 16 ∧
        ((getPkt s 0 0).map (·.phase)) = some .dispatched ∧ stillWanted s (tReq x.2) = true ∧
        stillWanted { s with fns := [(0, { Fn.dflt 0 with packets := [{ opPkt 0 0x03 [] with phase := .complete }] })] } (tReq x.2) = false) ∧
    (∀ x ∈ [(0x08, 1), (0x09, 2), (0x0A, 3), (0x19, 0x11)], let m := tMsg x.1 2 0 (bytesLE 2 St.NOT_PERMITTED) [];
      let s : State := { boxState [m] false with link := { (boxState [m] false).link with reqs := [tReq x.2] } };
      mLE m 8 2 ≠ St.DONE ∧ arrives s 0 x.1 m ∧ findsReq (delivered s 0 m) m [x.2] (tReq x.2)) ∧
    (let q : Packet := { opPkt 0 0x03 [0x10000] with phase := .dispatched, remoteWait := true };
      let s := boxState [] false;
      q.opcode = 0x03 ∧ q.remoteWait = true ∧ q.phase = .dispatched ∧ q.bits 4 2 1 = 0 ∧ hasRoute s 1 = true ∧ hasRoute s 0 = false ∧
      getPkt { s with fns := [(0, { Fn.dflt 0 with packets := [q] })] } 0 0 = some q) := by
  unfold arrives findsReq
  refine ⟨?_, by decide, by decide⟩
  intro x h
  simp only [List.mem_cons, List.not_mem_nil, or_false] at h
  rcases h with rfl | rfl | rfl | rfl | rfl | rfl <;> decide

/-- A write of a ring object has been made, or waits. -/
def didWrite : RingWrite → Option Bool
  | .written _ => some true
  | .waits _ => some false
  | _ => none

set_option maxRecDepth 20000 in
theorem wit_PeerMessagesActOnce_objects :
    (let m (v : Nat) := tMsg 0x10 0 0 [] (bytesLE 8 v ++ List.replicate 8 0);
      arrives (boxState [m 1] false) 0 0x10 (m 1) ∧ fenceWrOk (boxState [m 1] false) (m 1) = true ∧
      fenceWrOk (delivered (boxState [m 1] false) 0 (m 1)) (m 1) = true ∧ didWrite (fenceWrWrite (boxState [m 1] false) (m 1)) = some true ∧
      didWrite (fenceWrWrite (delivered (boxState [m 1] false) 0 (m 1)) (m 1)) = some true ∧
      arrives (hostPaged (boxState [m 1] false)) 0 0x10 (m 1) ∧ fenceWrOk (hostPaged (boxState [m 1] false)) (m 1) = true ∧
      didWrite (fenceWrWrite (hostPaged (boxState [m 1] false)) (m 1)) = some false ∧
      arrives (boxState [m (2 ^ 63)] false) 0 0x10 (m (2 ^ 63)) ∧ fenceWrOk (boxState [m (2 ^ 63)] false) (m (2 ^ 63)) = false ∧
      fenceWrOk (delivered (boxState [m (2 ^ 63)] false) 0 (m (2 ^ 63))) (m (2 ^ 63)) = false) ∧
    (let m := tMsg 0x13 0 0 [] [];
      arrives (boxState [m] false) 0 0x13 m ∧ msgRoom (boxState [m] false) m = true ∧ msgRoom (delivered (boxState [m] false) 0 m) m = true ∧
      didWrite (msgWrite (boxState [m] false) m) = some true ∧ didWrite (msgWrite (delivered (boxState [m] false) 0 m) m) = some true ∧
      msgRoom (hostPaged (boxState [m] false)) m = true ∧ didWrite (msgWrite (hostPaged (boxState [m] false)) m) = some false ∧
      arrives { boxState [m] false with regs := [] } 0 0x13 m ∧ msgRoom { boxState [m] false with regs := [] } m = false ∧
      msgRoom (delivered { boxState [m] false with regs := [] } 0 m) m = false) ∧
    (let m (v : Nat) := tMsg 0x11 0 0 [] (bytesLE 8 v ++ List.replicate 8 0);
      arrives (boxState [m 1] false) 0 0x11 (m 1) ∧ arrives (boxState [m 0] false) 0 0x11 (m 0) ∧
      (fnExists (boxState [m 1] false) (mFn (m 1)) && fnEnabled (boxState [m 1] false) (mFn (m 1))) = true ∧
      fenceMeets (Tab.get 0 (getFn (boxState [m 1] false) 0).shadow 0) 0 false = true ∧
      fenceMeets (Tab.get 0 (getFn (boxState [m 1] false) 0).shadow 0) 1 false = false ∧
      (boxState [m 1] false).link.watches.length < 512 ∧ 512 ≤ (List.replicate 512 (Watch.mk 1 0 0 0 false 0)).length ∧
      (fnExists { boxState [m 1] false with regs := [] } 0 && fnEnabled { boxState [m 1] false with regs := [] } 0) = false) ∧
    (∀ type ∈ [0x12, 0x20, 0x21], let m := tMsg type 0 0 [] [];
      let u := delivered (boxState [m] false) 0 m;
      arrives (boxState [m] false) 0 type m ∧ u.link.backlog = [] ∧ u.link.reqs = [] ∧ u.link.relayed = [] ∧ Tab.get none u.link.peerInc 1 = none ∧
      (let v : State := { u with link := { u.link with peerInc := [(1, some 7)] } }; Tab.get none v.link.peerInc (mSrc m) = some 7 ∧ 7 ≠ mLE m 10 2)) := by
  unfold arrives
  refine ⟨by decide, by decide, by decide, by decide⟩

/-! ### Hypotheses of the statements of chapters 16 to 19 -/

/-- The port's configuration word, and attention sources that stand enabled. -/
def mbState (cfg : W32) : State :=
  { upState with regs := [(R.CP_BOOT_STATUS, 1), (R.MB_CFG, cfg), (R.MB_ATTENTION, 1), (R.MB_ATTENTION_EN, 1)]
                 mgmt := { upState.mgmt with hrNew := 1 } }
def mgRead : MgmtXact := ⟨true, true, []⟩
def mgWrite (bs : List Byte) : MgmtXact := ⟨false, false, bs⟩
/-- A write's bytes with their PEC. -/
def pecced (s : State) (code : Byte) (bs : List Byte) : List Byte := bs ++ [pecOf ([addrW s, code] ++ bs)]

theorem wit_ManagementCommands_reads :
    listens (mbState 0) ∧ mgRead.read = true ∧ (mgmtReads (mbState 0) mgRead).length = 11 ∧ (readOnlyRows mgRead).length = 11 ∧
    (mgWrite []).read = false ∧ (mgWrite []).wr = [] ∧ (mgWrite [1]).wr ≠ [] := by
  unfold listens; decide

set_option maxRecDepth 20000 in
theorem wit_ManagementCommands_writes :
    (isClear (mbState 0) R.MB_CFG F.MB_CFG.PEC_REQUIRED ∧ isSet (mbState 2) R.MB_CFG F.MB_CFG.PEC_REQUIRED ∧ listens (mbState 2)) ∧
    (pecOf [addrW (mbState 0), 9] = pecOf [addrW (mbState 0), 9] ∧ (0 : Byte) ≠ pecOf [addrW (mbState 0), 9]) ∧
    (∃ ea la ap, writeRow (mgWrite [1, 2]) (.mgmtAttentionEn (mgWrite [1, 2])) 2 2 false ea la ap) ∧
    (∃ ea la ap, writeRow (mgWrite [1, 2]) (.mgmtLogSelect (mgWrite [1, 2])) 0x11 2 false ea la ap) ∧
    (∃ ea la ap, writeRow (mgWrite [4, 0, 0, 0, 0]) (.mgmtRegAddr (mgWrite [4, 0, 0, 0, 0])) 0x20 4 true ea la ap ∧
      la [0, 0, 0, 0] = false ∧ la [1, 0, 0, 0] = true ∧ la [0, 0, 0, 1] = true ∧ ea (mbState 0) = false) ∧
    (∃ ea la ap, writeRow (mgWrite [4, 0, 0, 0, 0]) (.mgmtRegData (mgWrite [4, 0, 0, 0, 0])) 0x21 4 true ea la ap ∧
      ea (mbState 0) = true ∧ ea (mbState 8) = false ∧ la [0, 0, 0, 0] = false) ∧
    (∃ ea la ap, writeRow (mgWrite []) (.mgmtLogNote (mgWrite [])) 0x13 8 true ea la ap ∧ ea (mbState 0) = false ∧
      ea { mbState 0 with mgmt := { (mbState 0).mgmt with noteAt := some 0 } } = true) ∧
    (([1] : List Byte).length < 2 + b2n false ∧ ([1, 2] : List Byte).length = 2 + b2n false ∧
      (pecced (mbState 0) 2 [1, 2])[2 + b2n false]? = some (pecOf ([addrW (mbState 0), BitVec.ofNat 8 2] ++ [1, 2])) ∧
      ([1, 2, 0] : List Byte)[2 + b2n false]? = some 0 ∧ (0 : Byte) ≠ pecOf ([addrW (mbState 0), BitVec.ofNat 8 2] ++ [1, 2]) ∧
      2 + b2n false + 1 < (pecced (mbState 0) 2 [1, 2] ++ [0]).length) := by
  unfold isClear isSet listens writeRow
  refine ⟨by decide, by decide, ⟨_, _, _, .inl ⟨rfl, rfl, rfl, rfl, rfl, rfl, rfl⟩⟩, ⟨_, _, _, .inr (.inl ⟨rfl, rfl, rfl, rfl, rfl, rfl, rfl⟩)⟩,
    ⟨_, _, _, .inr (.inr (.inr (.inl ⟨rfl, rfl, rfl, rfl, rfl, rfl, rfl⟩))), by decide, by decide, by decide, rfl⟩,
    ⟨_, _, _, .inr (.inr (.inr (.inr ⟨rfl, rfl, rfl, rfl, rfl, rfl, rfl⟩))), by decide, by decide, rfl⟩,
    ⟨_, _, _, .inr (.inr (.inl ⟨rfl, rfl, rfl, rfl, rfl, rfl, rfl⟩)), by decide, by decide⟩, by decide⟩

set_option maxRecDepth 20000 in
theorem wit_ManagementCommands_register :
    ((mgWrite [4, 0, 0, 0, 0]).wr.length = 5 ∧ ((mgWrite [4, 0, 0, 0, 0]).wr.head?).map (·.toNat) = some 4) ∧
    isClear (mbState 0) R.MB_CFG F.MB_CFG.REG_WR_EN ∧ isSet (mbState 8) R.MB_CFG F.MB_CFG.REG_WR_EN ∧
    (let s : State := { mbState 8 with mgmt := { (mbState 8).mgmt with regAddr := 0xBFFFFC } };
      listens s ∧ 0xB00000 ≤ s.mgmt.regAddr ∧ s.mgmt.regAddr < 0xC00000) ∧
    (let s : State := { mbState 8 with mgmt := { (mbState 8).mgmt with regAddr := R.FL_TRACE_BASE_LO } };
      listens s ∧ bootDone s = true ∧ isClear s R.FL_TRACE_CTRL F.FL_TRACE_CTRL.EN) ∧
    State.reset.boot.supplies = false := by
  unfold isClear isSet listens
  refine ⟨by decide, by decide, by decide, by decide, by decide, by decide⟩

/-- A controller transaction: the command word, with what the port knows of it. -/
def ctlState (cfg cmd : W32) (c : Option CtlTx) : State :=
  { mbState cfg with regs := (mbState cfg).regs ++ [(R.MB_CTL_CMD, cmd)], mgmt := { (mbState cfg).mgmt with ctl := c } }

set_option maxRecDepth 20000 in
theorem wit_ControllerAndHandRaise :
    (hostOpen (ctlState 16 0x20 none) ∧ bootDone (ctlState 16 0x20 none) = true ∧ fld (1 : W32) 0 0 = 1 ∧ fld (0 : W32) 0 0 = 0) ∧
    (isSet (ctlState 16 0x20 none) R.MB_CFG F.MB_CFG.CTL_EN ∧ ctlOk (ctlState 16 0x20 none) = true ∧ ctlOk (ctlState 16 0 none) = false ∧
      isClear (ctlState 0 0x20 none) R.MB_CFG F.MB_CFG.CTL_EN) ∧
    (let s := ctlState 16 0x20 (some ⟨1, 0, false⟩);
      s.mgmt.ctl = some ⟨1, 0, false⟩ ∧ rf s R.MB_CFG F.MB_CFG.RETRIES < 1 ∧ s.boot.supplies = true ∧ s.pwr.phase = .awake) ∧
    (let s := ctlState (16 + 2 ^ 7) 0x20 (some ⟨1, 0, false⟩);
      1 ≤ rf s R.MB_CFG F.MB_CFG.RETRIES) ∧
    (ctlState 16 0x20 (some ⟨1, 0, true⟩)).mgmt.ctl = some ⟨1, 0, true⟩ ∧ ((List.replicate 32 0 : List Byte).length ≤ 32) ∧
    (let s (cfg : W32) : State := { mbState cfg with pwr := { (mbState cfg).pwr with phase := .asleep 2 false } };
      (s 0).boot.supplies = true ∧ (s 0).pwr.phase = .asleep 2 false ∧ isClear (s 0) R.MB_CFG F.MB_CFG.SLEEP_MODE ∧
      isSet (s 1) R.MB_CFG F.MB_CFG.SLEEP_MODE) ∧
    (listens (mbState 4) ∧ isSet (mbState 4) R.MB_CFG F.MB_CFG.HR_EN ∧ hrSources (mbState 4) ≠ 0 ∧
      Nat.land (hrSources (mbState 4)) (mbState 4).mgmt.hrNew ≠ 0 ∧ (mbState 4).mgmt.ctl = none) ∧
    (let s : State := { mbState 4 with regs := (mbState 4).regs ++ [(R.MB_STATUS, 0x80)] };
      listens s ∧ isSet s R.MB_STATUS F.MB_STATUS.HR_PENDING ∧ hrSources s ≠ 0 ∧ s.mgmt.ctl = none) ∧
    hrSources (mbState 0) = 0 := by
  unfold hostOpen isClear isSet listens
  refine ⟨by decide, by decide, by decide, by decide, by decide, by decide, by decide, by decide, by decide, by decide⟩

/-! ### Hypotheses of the statements of chapters 17 to 19, and of the whole machine -/

/-- Caretaker's status word, the cell's temperature and what protections act. -/
def kaState (status : W32) (temp : W32) (c : Care) : State :=
  { upState with regs := [(R.CP_BOOT_STATUS, 1), (R.KA_TEMP, temp)] ++ (if status = 0 then [] else [(R.KA_STATUS, status)]), care := c }

set_option maxRecDepth 20000 in
theorem wit_CaretakerEvents_cell :
    (calm upState ∧ { State.reset with care := { Care.reset with alive := false } }.care.alive = false) ∧
    ((1 : Nat) ≠ rf upState R.KA_STATUS F.KA_STATUS.SOURCE ∧ sourceOk upState 2 2000 = true ∧ sourceOk upState 2 1999 = false ∧
      (0 : Nat) = rf upState R.KA_STATUS F.KA_STATUS.SOURCE) ∧
    (let s := sf upState R.KA_STATUS F.KA_STATUS.CELL_CONNECTED 1;
      calm s ∧ s.care.uv = false ∧ kaIs s F.KA_STATUS.CELL_CONNECTED true ∧ s.care.oc = false ∧ ocLatched s = false) ∧
    (let s := kaState 0 0 { Care.reset with uv := true, ov := true, oc := true, tempInh := true, ocActs := [0, 0] };
      calm s ∧ s.care.uv = true ∧ s.care.ov = true ∧ s.care.oc = true ∧ s.care.tempInh = true ∧ ocLatched s = false) ∧
    (let s := sf upState R.KA_PROT F.KA_PROT.OC_LATCH 1;
      calm s ∧ hostOpen s ∧ bootDone s = true ∧ ocLatched s = true) ∧
    (cellT16 (kaState 0 0xFFFF Care.reset) < 0 ∧ 45 * 16 < cellT16 (kaState 0 721 Care.reset) ∧ 32 ≤ cellT16 (kaState 0 32 Care.reset) ∧
      cellT16 (kaState 0 (43 * 16) Care.reset) ≤ 43 * 16) := by
  unfold calm hostOpen kaIs
  refine ⟨by decide, by decide, by decide, by decide, by decide, by decide⟩

set_option maxRecDepth 20000 in
theorem wit_CaretakerEvents_rest :
    (charging upState = true ∧ charging (sf upState R.KA_STATUS F.KA_STATUS.CELL_FULL 1) = false) ∧
    (let c : Care := { Care.reset with deb0 := (true, 3), deb1 := (false, 4) };
      calm (kaState 0 0 c) ∧ debounce c.deb0 true = (true, 4) ∧ debounce c.deb1 false = (false, 4) ∧
      kaBit (kaState 0 0 c) F.KA_STATUS.CASE_0 ≠ true) ∧
    (kaIs upState F.KA_STATUS.XTAL_FAIL false ∧ kaIs (sf upState R.KA_STATUS F.KA_STATUS.XTAL_FAIL 1) F.KA_STATUS.XTAL_FAIL true) ∧
    (let s : State := logK upState 0x0007 [0];
      calm s ∧ s.log.own ++ s.log.cross.take 8 = [⟨0x0007, none, 0, 0xFF, [0]⟩] ∧ s.log.recs.length ≤ 2048 ∧ s.log.nextSeq < 65536) ∧
    (hostOpen upState ∧ upState.care.alive = true) ∧
    (∀ a b : Bool, let s : State := { upState with care := { Care.reset with alive := false, slot0 := (65535, a), slot1 := (0, b) } };
      s.care.alive = false) := by
  unfold calm hostOpen kaIs
  refine ⟨by decide, by decide, by decide, by decide, by decide, by decide⟩

/-- The rail controller's status word, and phases that are lost. -/
def vrSt (status lost : W32) : State :=
  { upState with regs := [(R.CP_BOOT_STATUS, 1), (R.VR_PHASE_FAULT, lost), (R.VR_STATUS, status)]
                 rail := { upState.rail with ackMv := 750 } }

set_option maxRecDepth 20000 in
theorem wit_RailAndLoops_phases :
    (vrState (vrSt 1 0) = 1 ∧ vrState (vrSt 2 0) = 2 ∧ vrState upState ≠ 1 ∧ calm (vrSt 2 0)) ∧
    (let s := sf (sf (vrSt 0 0) R.VR_STATUS F.VR_STATUS.STATE 2) R.VR_STATUS F.VR_STATUS.SWITCHING 7;
      vrState s = 2 ∧ isSet s R.VR_CFG F.VR_CFG.SHED_EN ∧ nbit (chosen s) 3 = false ∧ phaseLost s 3 = false ∧
      (∀ k, k < 3 → nbit (chosen s) k = true ∨ phaseLost s k = true) ∧ railRising s = false ∧ afterRise s = false ∧
      afterRise { s with rail := { s.rail with riseAt := some s.clk.now } } = true ∧
      isClear (sf s R.VR_CFG F.VR_CFG.SHED_EN 0) R.VR_CFG F.VR_CFG.SHED_EN ∧
      (List.range 8).filter (nbit (chosen s)) = [0, 1, 2]) ∧
    (let s := sf (sf (vrSt 0 0) R.VR_STATUS F.VR_STATUS.STATE 2) R.VR_STATUS F.VR_STATUS.SWITCHING 255;
      (∀ k, k < 8 → nbit (chosen s) k = true ∨ phaseLost s k = true) ∧ nbit (switchingMask s) 7 = true ∧ lossCount s < 3 ∧
      nbit (rf s R.VR_PHASE_FAULT F.VR_PHASE_FAULT.SENSE) 7 = false) ∧
    (let s := sf (sf (sf (vrSt 0 0) R.VR_STATUS F.VR_STATUS.STATE 2) R.VR_STATUS F.VR_STATUS.SWITCHING 255) R.VR_PHASE_FAULT
        F.VR_PHASE_FAULT.OPEN 7;
      calm s ∧ 2 ≤ vrState s ∧ nbit (switchingMask s) 7 = true ∧ lossCount s = 3 ∧ phaseLost s 7 = false) ∧
    (let s := sf (vrSt 2 0) R.VR_PHASE_FAULT F.VR_PHASE_FAULT.OPEN 7;
      hostOpen s ∧ bootDone s = true ∧ Nat.land (fld (3 : W32) 7 0) (lostMask s) = 3 ∧ Nat.land (fld (8 : W32) 7 0) (lostMask s) = 0) := by
  unfold calm hostOpen isSet isClear
  refine ⟨by decide, by decide, by decide, by decide, by decide⟩

set_option maxRecDepth 20000 in
theorem wit_RailAndLoops_loops :
    (upState.boot.supplies = true ∧ upState.rail.tmonLimit ≠ true ∧ droopIsland 8 = true ∧ droopIsland 23 = true ∧ droopIsland 7 = false ∧
      ¬ 8 ∈ upState.rail.stretched) ∧
    (let s : State := { upState with rail := { upState.rail with stretched := [8] } };
      8 ∈ s.rail.stretched) ∧
    ((∀ x ∈ List.replicate 8 511, x ≤ 511) ∧ (List.replicate 8 511).length = 8) ∧
    (upState.pwr.phase = .awake ∧ upState.pwr.round = none ∧ ((16 * tripC upState : Nat) : Int) ≤ 16 * 115 ∧
      (0 : Int) < ((16 * tripC upState : Nat) : Int) ∧ State.reset.boot.supplies = false) := by
  refine ⟨by decide, by decide, by decide, by decide⟩

/-- The round, the asks and the power state of a device of a pod with its peer at port 0; as the coordinator (pod 0) or not (pod 2). -/
def podState (pod : Nat) (m : List (List Byte)) (w : Power) : State :=
  { boxState m false with boot := { (boxState m false).boot with podId := pod }, pwr := w }

set_option maxRecDepth 20000 in
theorem wit_RollCallsAndSleep_messages :
    (∀ x ∈ [0x30, 0x31, 0x32, 0x33, 0x34, 0x35, 0x36], arrives (podState 0 [tMsg x 0 0 [] []] Power.reset) 0 x (tMsg x 0 0 [] []) ∧
      firstOf 0 x State.reset = none) ∧
    (isCoord (podState 0 [] Power.reset) = true ∧ isCoord (podState 2 [] Power.reset) = false ∧ awake (podState 0 [] Power.reset) ∧
      otherMembers (podState 0 [] Power.reset) ≠ []) ∧
    (let s := podState 0 [] { Power.reset with round := some (2, true), waitFor := [1] };
      coordsRound s (tMsg 0x32 0 0 [2] []) = true ∧ s.pwr.asks.tail = [] ∧ (∀ d ∈ s.pwr.waitFor, d = mSrc (tMsg 0x32 0 0 [2] [])) ∧
      coordsRound s (tMsg 0x32 0 0 [2, 0, 1, 0] []) = false ∧ leadsRound s = true) ∧
    (let m := tMsg 0x30 0 0 [2] [];
      let v : State := { delivered (podState 0 [m] Power.reset) 0 m with fns := [], regs := [(R.CP_BOOT_STATUS, 1), (R.BL_LINK_n_STATE 0, 0x23)] };
      isCoord v = true ∧ awake v ∧ v.pwr.round = none ∧ v.pwr.asks = [] ∧ declineReason v (rcTarget m) = none ∧ otherMembers v ≠ []) ∧
    (let v := podState 0 [] { Power.reset with round := some (2, true), leader := 2 };
      leadsRound v = false ∧ (∀ tg, v.pwr.round = some (tg, true) → rcRound (tMsg 0x31 0 0 [2] []) = roundNow v) ∧ awake v ∧
      rcRound (tMsg 0x31 0 0 [2, 0, 1, 0] []) ≠ roundNow v) ∧
    (let v := podState 0 [] { Power.reset with phase := .entering 2 false }; v.pwr.phase = .entering 2 false ∧ ¬ awake v) ∧
    (let s := podState 0 [] { Power.reset with round := some (2, true), waitFor := [1, 3] };
      ∃ d ∈ s.pwr.waitFor, d ≠ mSrc (tMsg 0x32 0 0 [2] [])) ∧
    (let s := podState 2 [] { Power.reset with round := some (2, true) };
      rcRound (tMsg 0x35 0 0 [2, 1] []) = roundNow s ∧ leadsRound s = false ∧ awake s ∧ nbit (mByte (tMsg 0x35 0 0 [2, 1] []) 9) 0 = true ∧
      nbit (mByte (tMsg 0x35 0 0 [2, 0] []) 9) 0 = false) ∧
    declineReason (podState 0 [] Power.reset) 2 = some 1 ∧
    declineReason { upState with boot := { upState.boot with podId := 0 } } 2 = none := by
  unfold arrives awake
  refine ⟨?_, by decide, by decide, by decide, ⟨by decide, ?_, by decide, by decide⟩, by decide, by decide, by decide, by decide, by decide⟩
  rotate_left
  · exact fun _ _ => by decide
  intro x h
  simp only [List.mem_cons, List.not_mem_nil, or_false] at h
  rcases h with rfl | rfl | rfl | rfl | rfl | rfl | rfl <;> decide

set_option maxRecDepth 20000 in
theorem wit_RollCallsAndSleep_states :
    ((∀ src, src < 4 → sourceStands upState src = true) ∧ sourceStands upState 6 = false ∧ upState.boot.supplies = true) ∧
    (let s := podState 2 [] { Power.reset with round := some (2, true) };
      awake s ∧ leadsRound s = false ∧ s.pwr.wake = none ∧ s.pwr.round = some (2, true)) ∧
    (let s : State := { lnkState 3 { Port.reset with parked := true } with pwr := { Power.reset with phase := .asleep 2 false } };
      (getPort s 0).parked = true ∧ s.pwr.phase = .asleep 2 false) ∧
    (let s := podState 0 [] { Power.reset with round := some (2, true), waitFor := [1] };
      leadsRound s = true ∧ awake s ∧ s.pwr.round ≠ none ∧ s.pwr.waitFor ≠ [] ∧ s.pwr.asks.tail = []) ∧
    (let q : PwrReq := ⟨0, 2, true, false⟩;
      let s := podState 2 [] { Power.reset with reqs := [q] };
      s.pwr.reqs.find? (fun q => q.asked && !q.committed && !queuedHere s q) = some q ∧ awake s ∧ (getPkt s 0 0).isSome = true) ∧
    (∀ f ∈ [false, true], let s : State := { upState with pwr := { Power.reset with phase := .entering 2 f } };
      s.pwr.phase = .entering 2 f ∧ entryReady s f = true ∧ s.pwr.wake = none ∧ ∀ p, p < 3 → portState s p = 1) ∧
    entryReady (ctlState 0 0 (some ⟨1, 0, false⟩)) false = false ∧
    (let s : State := { upState with pwr := { Power.reset with phase := .exiting 3 0 false true } };
      s.pwr.phase = .exiting 3 0 false true ∧ stillLost s 255 < 4 ∧ (0 : Int) < ((16 * (tripC s - 10) : Nat) : Int) ∧ s.heldTlps = [] ∧
      s.waiting = [] ∧ s.pwr.reqs = [] ∧ s.pwr.round = none ∧ ∀ p, p < 3 → (getPort s p).parked = false) ∧
    (let s : State := { sf upState R.VR_PHASE_FAULT F.VR_PHASE_FAULT.OPEN 15 with pwr := { Power.reset with phase := .exiting 2 0 false true } };
      4 ≤ stillLost s 255) := by
  unfold awake
  refine ⟨by decide, by decide, by decide, by decide, by decide, ?_, by decide, by decide, by decide⟩
  intro f h
  simp only [List.mem_cons, List.not_mem_nil, or_false] at h
  rcases h with rfl | rfl <;> decide

theorem wit_StepRunsFront :
    (∃ c rest, { State.reset with pending := [.suppliesLost, .vkaCollapse] }.pending = c :: rest) ∧ State.reset.pending = [] :=
  ⟨⟨_, _, rfl⟩, rfl⟩

theorem wit_EveryStepKeepsForm : kept State.reset ∧ kept { upState with mem := [(7, 1)], ctr := [(0xF00400, top64)] } := by
  refine ⟨⟨by decide, fun k => by simp [ctrGet, State.reset, Tab.get, Tab.find], by decide, by decide⟩,
    ⟨by decide, fun k => ?_, by decide, by decide⟩⟩
  simp only [ctrGet, Tab.get, Tab.find]
  split <;> simp

set_option maxRecDepth 20000 in
theorem wit_LockedSlotStays :
    (let s : State := { upState with boot := { upState.boot with otpLocked := true } };
      slotLocked s ∧ hostOpen s ∧ bootDone s = true ∧ (1 : W32).getLsbD 0 = true) ∧ ∃ t, step { upState with pending := [.vkaCollapse] } = .next t := by
  unfold slotLocked hostOpen
  exact ⟨by decide, ⟨_, rfl⟩⟩

end Sys2Proof.Tests
end

namespace Sys2Proof.Machine

open Say

/-! ### Fields written and read back -/

/-- A number in three parts: above a field, the field, and below it. -/
theorem nat_field_split (x lo d : Nat) : x = (x / 2 ^ (lo + d) * 2 ^ d + x / 2 ^ lo % 2 ^ d) * 2 ^ lo + x % 2 ^ lo := by
  have hq : x / 2 ^ (lo + d) = x / 2 ^ lo / 2 ^ d := by rw [pow_add, Nat.div_div_eq_div_mul]
  rw [hq, Nat.div_add_mod', Nat.div_add_mod']

/-- Replacing the field of a number of 32 bits leaves a number of 32 bits. -/
theorem field_replaced_lt {x lo d r : Nat} (hx : x < 2 ^ 32) (hd : lo + d ≤ 32) (hr : r < 2 ^ d) :
    (x / 2 ^ (lo + d) * 2 ^ d + r) * 2 ^ lo + x % 2 ^ lo < 2 ^ 32 := by
  have hq : x / 2 ^ (lo + d) < 2 ^ (32 - (lo + d)) := by
    rw [Nat.div_lt_iff_lt_mul (by positivity), ← pow_add]
    rwa [Nat.sub_add_cancel hd]
  have hm := Nat.mod_lt x (show 0 < 2 ^ lo by positivity)
  calc (x / 2 ^ (lo + d) * 2 ^ d + r) * 2 ^ lo + x % 2 ^ lo
      < (x / 2 ^ (lo + d) * 2 ^ d + r + 1) * 2 ^ lo := by rw [Nat.add_mul _ 1]; omega
    _ ≤ (x / 2 ^ (lo + d) + 1) * 2 ^ d * 2 ^ lo := Nat.mul_le_mul_right _ (by rw [Nat.add_mul]; omega)
    _ ≤ 2 ^ (32 - (lo + d)) * 2 ^ d * 2 ^ lo := Nat.mul_le_mul_right _ (Nat.mul_le_mul_right _ hq)
    _ = 2 ^ 32 := by rw [← pow_add, ← pow_add]; congr 1; omega

/-- A word with a field replaced: what lies above the field, the field, and what lies below it. -/
theorem setFld_toNat (w : W32) {hi lo : Nat} (hl : lo ≤ hi) (hh : hi < 32) (v : Nat) :
    (setFld w hi lo v).toNat =
      (w.toNat / 2 ^ (hi + 1) * 2 ^ (hi + 1 - lo) + v % 2 ^ (hi + 1 - lo)) * 2 ^ lo + w.toNat % 2 ^ lo := by
  have hd : lo + (hi + 1 - lo) = hi + 1 := by omega
  have hs := nat_field_split w.toNat lo (hi + 1 - lo)
  have hr := Nat.mod_lt v (show 0 < 2 ^ (hi + 1 - lo) by positivity)
  have hb := field_replaced_lt w.isLt (show lo + (hi + 1 - lo) ≤ 32 by omega) hr
  rw [hd, Nat.add_mul] at hs hb
  rw [setFld, fld, nbits, BitVec.toNat_ofNat, Nat.add_mul]
  rw [show w.toNat - w.toNat / 2 ^ lo % 2 ^ (hi + 1 - lo) * 2 ^ lo
    = w.toNat / 2 ^ (hi + 1) * 2 ^ (hi + 1 - lo) * 2 ^ lo + w.toNat % 2 ^ lo by omega, Nat.add_right_comm]
  exact Nat.mod_eq_of_lt hb

theorem fld_setFld_self (w : W32) {hi lo : Nat} (hl : lo ≤ hi) (hh : hi < 32) (v : Nat) :
    fld (setFld w hi lo v) hi lo = v % 2 ^ (hi + 1 - lo) := by
  have hm := Nat.mod_lt w.toNat (show 0 < 2 ^ lo by positivity)
  rw [fld, nbits, setFld_toNat w hl hh, Nat.add_comm, Nat.add_mul_div_right _ _ (by positivity), Nat.div_eq_of_lt hm]
  simp

theorem setFld_div_above (w : W32) {hi lo : Nat} (hl : lo ≤ hi) (hh : hi < 32) (v : Nat) :
    (setFld w hi lo v).toNat / 2 ^ (hi + 1) = w.toNat / 2 ^ (hi + 1) := by
  have hm := Nat.mod_lt w.toNat (show 0 < 2 ^ lo by positivity)
  have hr := Nat.mod_lt v (show 0 < 2 ^ (hi + 1 - lo) by positivity)
  have hd : 2 ^ (hi + 1) = 2 ^ lo * 2 ^ (hi + 1 - lo) := by rw [← pow_add]; congr 1; omega
  rw [setFld_toNat w hl hh]
  conv_lhs => rw [hd, ← Nat.div_div_eq_div_mul]
  rw [Nat.add_comm, Nat.add_mul_div_right _ _ (by positivity), Nat.div_eq_of_lt hm, Nat.zero_add,
    Nat.add_comm, Nat.add_mul_div_right _ _ (by positivity), Nat.div_eq_of_lt hr, Nat.zero_add, hd]

/-- A field above the one replaced reads as before. -/
theorem fld_setFld_above (w : W32) {hi lo hi' lo' : Nat} (hl : lo ≤ hi) (hh : hi < 32) (h : hi < lo') (v : Nat) :
    fld (setFld w hi lo v) hi' lo' = fld w hi' lo' := by
  obtain ⟨e, rfl⟩ : ∃ e, lo' = hi + 1 + e := ⟨lo' - (hi + 1), by omega⟩
  simp only [fld, nbits, pow_add (2 : Nat) (hi + 1) e, ← Nat.div_div_eq_div_mul, setFld_div_above w hl hh v]

theorem rf_sf_self (s : State) (k : Nat) (fd : Fld) (hl : fd.2 ≤ fd.1) (hh : fd.1 < 32) (v : Nat) :
    rf (sf s k fd v) k fd = v % 2 ^ (fd.1 + 1 - fd.2) := by
  rw [rf, rd_sf_self, fld_setFld_self _ hl hh]

theorem rf_sf_above (s : State) (k : Nat) (fd fe : Fld) (hl : fd.2 ≤ fd.1) (h : fd.1 < fe.2) (hh : fd.1 < 32) (v : Nat) :
    rf (sf s k fd v) k fe = rf s k fe := by
  rw [rf, rd_sf_self, fld_setFld_above _ hl hh h]
  rfl

theorem rd_modBoot (s : State) (g : Boot → Boot) (k : Nat) : rd (modBoot s g) k = rd s k := rfl

theorem rf_modBoot (s : State) (g : Boot → Boot) (k : Nat) (fd : Fld) : rf (modBoot s g) k fd = rf s k fd := rfl

theorem rd_logX (s : State) (e o f : Nat) (d : List Byte) (k : Nat) : rd (logX s e o f d) k = rd s k := rfl

theorem rf_logX (s : State) (e o f : Nat) (d : List Byte) (k : Nat) (fd : Fld) : rf (logX s e o f d) k fd = rf s k fd := rfl

/-! ### A flash image's checks -/

theorem imgLenOk_iff (img : List Byte) : imgLenOk img img.length = true ↔ lengthOk img := by
  unfold imgLenOk lengthOk imgLen
  simp [and_assoc]

theorem versionOk_iff (img : List Byte) : versionOk img = true ↔ knownVersion img := by
  simp [versionOk, knownVersion]

theorem digestOk_iff (s : State) (img : List Byte) :
    digestOk s img = true ↔ s.boot.otpLocked = false ∨ Sha.digest (img.take (imgWord img 8)) = s.boot.otp := by
  simp [digestOk, imgLen]

/-- At most DONE is set and records are made. -/
theorem tryDone_cases (s : State) :
    tryDone s = s ∨ ∃ l, tryDone s =
      { sf s R.CP_BOOT_STATUS F.CP_BOOT_STATUS.DONE 1 with log := { s.log with cross := s.log.cross ++ l } } := by
  unfold tryDone
  split
  · exact .inl rfl
  · right
    dsimp only
    split
    · exact ⟨_, rfl⟩
    · exact ⟨_, congrArg (fun l => { sf s R.CP_BOOT_STATUS F.CP_BOOT_STATUS.DONE 1 with log := { s.log with cross := l } })
        (List.append_assoc s.log.cross _ _)⟩

/-- A refused flash image as it stands before `DONE` may be set. -/
def flashJudged (s : State) (event st outcome : Nat) : State :=
  let s := sf s R.CP_BOOT_STATUS F.CP_BOOT_STATUS.IMAGE_OUTCOME outcome
  let s := configStatus (logX s event 1 0xFF (startDetail s)) st
  modBoot (sf (sf s R.CP_BOOT_STATUS F.CP_BOOT_STATUS.IMAGE_SOURCE 1) R.CP_BOOT_STATUS F.CP_BOOT_STATUS.IMAGE_OUTCOME outcome)
    (fun b => { b with imgPhase := .settled })

theorem flashJudged_refusedImage (s : State) (event : Nat) {st outcome : Nat} (hst : st < 2 ^ 16) (ho : outcome < 8) :
    refusedImage s (flashJudged s event st outcome) event st outcome := by
  refine ⟨?_, ?_, ?_, rfl, fun k hk => ?_, rfl, rfl⟩
  · show Option.map _ ((s.log.cross ++ [_])[s.log.cross.length]?) = some event
    rw [List.getElem?_concat_length]
    rfl
  · simp only [flashJudged, configStatus, rf_modBoot]
    rw [rf_sf_ne _ _ _ _ (by decide), rf_sf_ne _ _ _ _ (by decide), rf_sf_self _ _ _ (by decide) (by decide)]
    exact Nat.mod_eq_of_lt hst
  · simp only [flashJudged, rf_modBoot]
    rw [rf_sf_self _ _ _ (by decide) (by decide)]
    exact Nat.mod_eq_of_lt ho
  · simp only [List.mem_cons, not_or] at hk
    obtain ⟨hc, hb, -⟩ := hk
    simp only [flashJudged, configStatus, rd_modBoot, rd_logX, rd_sf_ne _ _ _ hb, rd_sf_ne _ _ _ hc]

theorem tryDone_refusedImage {s t : State} {event st outcome : Nat} (h : refusedImage s t event st outcome) :
    refusedImage s (tryDone t) event st outcome := by
  obtain ⟨hrec, hst, hout, hph, hregs, hmem, hfns⟩ := h
  obtain he | ⟨l, he⟩ := tryDone_cases t
  · rw [he]
    exact ⟨hrec, hst, hout, hph, hregs, hmem, hfns⟩
  · rw [he]
    refine ⟨?_, (rf_sf_ne t _ _ 1 (by decide)).trans hst, ?_, hph, fun k hk => ?_, hmem, hfns⟩
    · have hlt : s.log.cross.length < t.log.cross.length := by
        by_contra hge
        simp [recorded, List.getElem?_eq_none (Nat.le_of_not_lt hge)] at hrec
      exact (congrArg _ (List.getElem?_append_left hlt)).trans hrec
    · exact (rf_sf_above t _ _ _ (by decide) (by decide) (by decide) 1).trans hout
    · exact (rd_sf_ne t _ _ fun hb => hk (by simp [hb])).trans (hregs k hk)

theorem flashRefused_refusedImage (s : State) (event : Nat) {st outcome : Nat} (hst : st < 2 ^ 16) (ho : outcome < 8) :
    refusedImage s (flashRefused s event st outcome) event st outcome :=
  tryDone_refusedImage (flashJudged_refusedImage s event hst ho)

theorem exec_imageCheckDone_loaded {s : State} (h : imageLoaded s) : exec (.imageCheckDone false) s = .next (checkFlash s) := by
  obtain ⟨hp, hh, hu⟩ := h
  show execImageCheckDone false s = _
  simp [execImageCheckDone, hp, hh, hu]

/-- Settles O9: the checks in their order, each failing one giving `flashRefused`. -/
theorem flashImageChecks : Obligations.FlashImageChecks := by
  intro s hs
  simp only [exec_imageCheckDone_loaded hs, checkFlash, ← imgLenOk_iff, ← versionOk_iff, ← digestOk_iff]
  refine ⟨fun hl => ?_, fun hl hv => ?_, fun hl hv hd hne => ?_, fun hl hv hd => ⟨fun hst => ?_, fun hst => ?_⟩⟩
  · rw [if_pos (by simpa using hl)]
    exact ⟨_, rfl, flashRefused_refusedImage s _ (by decide) (by decide)⟩
  · rw [if_neg (by simpa using hl), if_pos (by simpa using hv)]
    exact ⟨_, rfl, flashRefused_refusedImage s _ (by decide) (by decide)⟩
  · have hd' : digestOk s s.boot.img ≠ true := by simpa [digestOk_iff, hd] using hne
    rw [if_neg (by simpa using hl), if_neg (by simpa using hv), if_pos (by simpa using hd')]
    exact ⟨_, rfl, flashRefused_refusedImage s _ (by decide) (by decide)⟩
  · simp only [hl, hv, hd, hst]
    exact ⟨_, rfl, flashRefused_refusedImage s _ (by decide) (by decide)⟩
  · simp only [hl, hv, hd, hst]
    rfl

/-! ### The OTP digest slot, and what leaves it as it is

A lemma per function of the model. Most leave the start-up record as it is (`_boot`); those that write other parts of it leave
the slot, its fuse and its programming (`_otpSlot`). A function that takes another asks it of that one. -/

/-- The OTP digest slot, its lock fuse, and whether programming is under way. -/
def Boot.otpSlot (b : Boot) : List Byte × Bool × Bool := (b.otp, b.otpLocked, b.otpBusy)

@[simp] theorem Boot.otpSlot_mk (su ec pe cr tr ih ol ou ob : Bool) (po fi cu rj ew : Nat) (im ot : List Byte) (ph : ImgPhase)
    (ap : Option Nat) (sg : Tab Byte) (it : Tab (Option NbItem)) (tx : List (Nat × Nat × List Byte))
    (sh : List (Nat × List (List Byte))) :
    (Boot.mk su po ec fi pe cr tr im ih ph cu rj ap ot ol ou ob ew sg it tx sh).otpSlot = (ot, ol, ob) := rfl

@[simp] theorem Boot.otpSlot_eta (b : Boot) : (b.otp, b.otpLocked, b.otpBusy) = b.otpSlot := rfl

@[simp] theorem otpSlot_ite (c : Prop) [Decidable c] (a b : Boot) :
    (if c then a else b).otpSlot = if c then a.otpSlot else b.otpSlot := apply_ite Boot.otpSlot c a b

@[simp] theorem boot_ite (c : Prop) [Decidable c] (a b : State) :
    (if c then a else b).boot = if c then a.boot else b.boot := apply_ite State.boot c a b

@[simp] theorem boot_foldl {α : Type} (g : State → α → State) (hg : ∀ s a, (g s a).boot = s.boot) (l : List α) (s : State) :
    (l.foldl g s).boot = s.boot := by
  induction l generalizing s with
  | nil => rfl
  | cons a l ih => exact (ih _).trans (hg s a)

@[simp] theorem otpSlot_foldl {α : Type} (g : State → α → State) (hg : ∀ s a, (g s a).boot.otpSlot = s.boot.otpSlot) (l : List α)
    (s : State) : (l.foldl g s).boot.otpSlot = s.boot.otpSlot := by
  induction l generalizing s with
  | nil => rfl
  | cons a l ih => exact (ih _).trans (hg s a)

theorem boot_foldl_fst {α β : Type} (g : State × β → α → State × β) (hg : ∀ x a, (g x a).1.boot = x.1.boot) (l : List α)
    (x : State × β) : (l.foldl g x).1.boot = x.1.boot := by
  induction l generalizing x with
  | nil => rfl
  | cons a l ih => exact (ih _).trans (hg x a)

theorem boot_foldl_snd {α β : Type} (g : β × State → α → β × State) (hg : ∀ x a, (g x a).2.boot = x.2.boot) (l : List α)
    (x : β × State) : (l.foldl g x).2.boot = x.2.boot := by
  induction l generalizing x with
  | nil => rfl
  | cons a l ih => exact (ih _).trans (hg x a)

/-! ### The functions of Machine/Ops -/

@[simp] theorem applyRwb_boot (s : State) (inBlock : Nat → Bool) : (applyRwb s inBlock).boot = s.boot := by simp [applyRwb]

@[simp] theorem bump32_boot (s : State) (k : Nat) : (bump32 s k).boot = s.boot := by simp [bump32]

@[simp] theorem writeReject_boot (s : State) : (writeReject s).boot = s.boot := by simp [writeReject]

@[simp] theorem freshNat_boot (s : State) : (freshNat s).1.boot = s.boot := by simp [freshNat]

@[simp] theorem writeL_boot (bs : List Byte) (s : State) (a : Nat) : (writeL s a bs).boot = s.boot := by
  rw [writeL_eq]

@[simp] theorem writeH_boot (relaxed : Bool) (bs : List Byte) (s : State) (a : Nat) : (writeH s relaxed a bs).boot = s.boot := by
  induction bs generalizing s a with
  | nil => rfl
  | cons b bs ih => exact ih _ _

@[simp] theorem rejectWrite_boot (s : State) (off writer fn : Nat) : (rejectWrite s off writer fn).boot = s.boot := by simp [rejectWrite]

@[simp] theorem storeFields_boot (s : State) (k : Nat) (v : W32) (busy : Bool) : (storeFields s k v busy).1.boot = s.boot := by
  simp [storeFields]

@[simp] theorem storeReg_otpSlot (s : State) (who : Writer) (k : Nat) (v : W32) (busy : Bool) :
    (storeReg s who k v busy).boot.otpSlot = s.boot.otpSlot := by
  unfold storeReg
  dsimp only
  split
  · simp
  · split <;> simp

@[simp] theorem gate_otpSlot (k : Nat) (g : State → State) (s : State) (hg : (g s).boot.otpSlot = s.boot.otpSlot) :
    (gate k g s).boot.otpSlot = s.boot.otpSlot := by
  unfold gate
  split
  · simp
  · exact hg

@[simp] theorem finishPkt_boot (s : State) (f pos status result : Nat) :
    (finishPkt s f pos status result).boot = s.boot := by simp [finishPkt]

/-! ### The functions of Machine/Cache -/

@[simp] theorem dirSet_boot (s : State) (slice set way : Nat) (x : Option Way) : (dirSet s slice set way x).boot = s.boot := by
  simp [dirSet]

@[simp] theorem cacheFill_boot (s : State) (l : Nat) (dirty prefetched : Bool) : (cacheFill s l dirty prefetched).boot = s.boot :=
  (CacheOnly.fill s l dirty prefetched).keeps.boot

@[simp] theorem setLineErr_boot (s : State) (l : Nat) (v : Bool) : (setLineErr s l v).boot = s.boot := by simp [setLineErr]

@[simp] theorem cacheAccess_boot (s : State) (allocates : Bool) (t : Touch) (l : Nat) : (cacheAccess s allocates t l).boot = s.boot :=
  (CacheOnly.access s allocates t l).keeps.boot

@[simp] theorem prefetchFill_boot (s : State) (l : Nat) : (prefetchFill s l).boot = s.boot := by simp [prefetchFill]

@[simp] theorem prefetchOne_boot (s : State) (key l : Nat) : (prefetchOne s key l).boot = s.boot := by simp [prefetchOne]

@[simp] theorem prefetchTrain_boot (s : State) (req l : Nat) : (prefetchTrain s req l).boot = s.boot := by simp [prefetchTrain]

@[simp] theorem touchRead_boot (s : State) (req : Option Nat) (allocates : Bool) (a n : Nat) :
    (touchRead s req allocates a n).boot = s.boot := by
  unfold touchRead
  split <;> simp

@[simp] theorem touchWrite_boot (s : State) (allocates : Bool) (a n : Nat) : (touchWrite s allocates a n).boot = s.boot := by
  simp [touchWrite]

@[simp] theorem dropWays_boot (s : State) (inDrop : Nat → Nat → Bool) : (dropWays s inDrop).boot = s.boot := by simp [dropWays]

@[simp] theorem sset_boot (s : State) (p : Prog) (x : Nat) (b : Byte) : (sset s p x b).boot = s.boot := by
  unfold sset
  split <;> simp

@[simp] theorem undefScrLine_boot (s : State) (o : Nat) : (undefScrLine s o).boot = s.boot := by simp [undefScrLine]

@[simp] theorem zeroBlocks_boot (s : State) (bs : List Nat) : (zeroBlocks s bs).boot = s.boot := by simp [zeroBlocks]

@[simp] theorem undefBlocks_boot (s : State) (bs : List Nat) : (undefBlocks s bs).boot = s.boot := by simp [undefBlocks]

/-! ### The functions of Machine/Trace -/

@[simp] theorem tracePut_boot (s : State) (rec32 : List Byte) : (tracePut s rec32).boot = s.boot := by simp [tracePut]

@[simp] theorem traceEv_boot (s : State) (point origin fn : Nat) (tag : Option Nat) (pencil : Bool) (data : List Byte) :
    (traceEv s point origin fn tag pencil data).boot = s.boot := by simp [traceEv]

@[simp] theorem sendMsix_boot (s : State) (f vec : Nat) : (sendMsix s f vec).boot = s.boot := by simp [sendMsix]

@[simp] theorem raiseVec_boot (s : State) (f vec : Nat) : (raiseVec s f vec).boot = s.boot := by simp [raiseVec]

@[simp] theorem raiseEvent_boot (s : State) (f : Nat) (vec en : Fld) : (raiseEvent s f vec en).boot = s.boot := by simp [raiseEvent]

@[simp] theorem raiseFence_boot (s : State) (f slot : Nat) : (raiseFence s f slot).boot = s.boot := by simp [raiseFence]

@[simp] theorem raiseCtrl_boot (s : State) (k : Nat) : (raiseCtrl s k).boot = s.boot := by simp [raiseCtrl]

/-! ### The functions of Machine/Xlate -/

@[simp] theorem sharedPut_boot (s : State) (t : TlbEntry) : (sharedPut s t).boot = s.boot := by simp [sharedPut]

@[simp] theorem localPut_boot (s : State) (who : Nat) (t : TlbEntry) : (localPut s who t).boot = s.boot := by simp [localPut]

@[simp] theorem malformedMet_boot (s : State) (f va : Nat) : (malformedMet s f va).boot = s.boot := by simp [malformedMet]

@[simp] theorem touchWalk_boot (s : State) (f va : Nat) : (touchWalk s f va).boot = s.boot := by
  unfold touchWalk
  (repeat' split) <;> simp

@[simp] theorem touchLeaf_boot (s : State) (who f va : Nat) : (touchLeaf s who f va).boot = s.boot := by
  unfold touchLeaf
  cases tlbFind s who f va with
  | some t => simp
  | none => cases walk s f va <;> simp

@[simp] theorem writePieces_boot (who f : Nat) (job : Bool) (ps : List (Nat × Nat)) (s : State) (bs : List Byte) :
    (writePieces s who f job ps bs).boot = s.boot := by
  induction ps generalizing s bs with
  | nil => rfl
  | cons p ps ih =>
    rw [writePieces, ih]
    split <;> simp

@[simp] theorem writeVA_boot (s : State) (who f va : Nat) (job : Bool) (bs : List Byte) :
    (writeVA s who f va job bs).boot = s.boot := by simp [writeVA]

@[simp] theorem touchVA_boot (s : State) (who f va n : Nat) (job write : Bool) : (touchVA s who f va n job write).boot = s.boot := by
  refine boot_foldl _ (fun s p => ?_) _ s
  dsimp only
  split <;> simp

@[simp] theorem lookUp_boot (s : State) (who f : Nat) (vas : List Nat) : (lookUp s who f vas).boot = s.boot := by simp [lookUp]

@[simp] theorem sendAts_boot (s : State) (f a n engine pos va : Nat) (write : Bool) :
    (sendAts s f a n engine pos va write).boot = s.boot := by simp [sendAts]

@[simp] theorem sendAtsFor_boot (s : State) (who f a engine pos va start n : Nat) (write : Bool) :
    (sendAtsFor s who f a engine pos va start n write).boot = s.boot := by simp [sendAtsFor]

@[simp] theorem touchPages_boot (s : State) (f va n : Nat) : (touchPages s f va n).boot = s.boot := by simp [touchPages]

@[simp] theorem xlateRecord_boot (s : State) (f va : Nat) (dst : Bool) (status pos : Nat) :
    (xlateRecord s f va dst status pos).boot = s.boot := by simp -implicitDefEqProofs [xlateRecord]

/-! ### The functions of Machine/LinkTx -/

@[simp] theorem emitFlit_boot (s : State) (p kind seq : Nat) (slots : List Byte) :
    (emitFlit s p kind seq slots).boot = s.boot := by simp [emitFlit]

@[simp] theorem sendFlits_boot (p fuel : Nat) (s : State) (bs : List Byte) : (sendFlits s p fuel bs).boot = s.boot := by
  induction fuel generalizing s bs with
  | zero => rfl
  | succ fuel ih => simp [sendFlits, ih]

@[simp] theorem pump_boot (p fuel : Nat) (s : State) : (pump s p fuel).boot = s.boot := by
  induction fuel generalizing s with
  | zero => rfl
  | succ fuel ih =>
    unfold pump
    dsimp only
    split
    · rfl
    · split <;> simp [ih]

@[simp] theorem portSend_boot (s : State) (p : Nat) (m : List Byte) : (portSend s p m).boot = s.boot := by simp [portSend]

@[simp] theorem putMsg_boot (s : State) (dst : Nat) (m0 : List Byte) : (putMsg s dst m0).boot = s.boot := by
  unfold putMsg
  split <;> simp

@[simp] theorem sendMsg_boot (s : State) (dst type cls tag : Nat) (fields data : List Byte) :
    (sendMsg s dst type cls tag fields data).1.boot = s.boot := by
  unfold sendMsg
  split <;> simp

@[simp] theorem launch_boot (s : State) (r : RemoteReq) (p : Nat) : (launch s r p).boot = s.boot := by simp [launch]

@[simp] theorem issueReqs_boot (fuel : Nat) (s : State) : (issueReqs fuel s).boot = s.boot := by
  induction fuel generalizing s with
  | zero => rfl
  | succ fuel ih =>
    unfold issueReqs
    split <;> simp [ih]

@[simp] theorem issueWaiting_boot (s : State) : (issueWaiting s).boot = s.boot := by simp [issueWaiting]

@[simp] theorem sendReq_boot (s : State) (owner : Owner) (who dst type cls fn pos addr len va : Nat) (fields data : List Byte) :
    (sendReq s owner who dst type cls fn pos addr len va fields data).boot = s.boot := by simp [sendReq]

@[simp] theorem dropReqs_boot (s : State) (gives : RemoteReq → Bool) : (dropReqs s gives).boot = s.boot := by simp [dropReqs]

@[simp] theorem sendRsp_boot (s : State) (m : List Byte) (type status : Nat) (data : List Byte) :
    (sendRsp s m type status data).boot = s.boot := by simp [sendRsp]

/-! ### The functions of Machine/RollCall -/

@[simp] theorem rcSend_boot (s : State) (type target b9 round dst : Nat) :
    (rcSend s type target b9 round dst).boot = s.boot := by simp [rcSend]

@[simp] theorem rcAll_boot (s : State) (type target b9 round : Nat) : (rcAll s type target b9 round).boot = s.boot := by simp [rcAll]

@[simp] theorem sendWakes_boot (s : State) (src : Nat) : (sendWakes s src).boot = s.boot := by simp [sendWakes]

@[simp] theorem setIsland_boot (s : State) (i : Nat) (r : Run) : (setIsland s i r).boot = s.boot := by simp [setIsland]

@[simp] theorem failReq_boot (s : State) (target : Nat) : (failReq s target).boot = s.boot := by
  unfold failReq
  split <;> simp

@[simp] theorem beginEntry_boot (s : State) (target : Nat) (forced : Bool) : (beginEntry s target forced).boot = s.boot := by
  simp [beginEntry]

@[simp] theorem rollCallRec_boot (s : State) (target : Nat) (commit : Bool) (reason pod : Nat) :
    (rollCallRec s target commit reason pod).boot = s.boot := by simp [rollCallRec]

@[simp] theorem abortRound_boot (s : State) (reason pod : Nat) : (abortRound s reason pod).boot = s.boot := by
  unfold abortRound
  split <;> simp

@[simp] theorem commitRound_boot (s : State) : (commitRound s).boot = s.boot := by
  unfold commitRound
  split <;> simp

@[simp] theorem proposeRound_boot (s : State) (t : Nat) : (proposeRound s t).boot = s.boot := by
  unfold proposeRound
  dsimp only
  split <;> simp

@[simp] theorem serveAsks_boot (fuel : Nat) (s : State) : (serveAsks fuel s).boot = s.boot := by
  induction fuel generalizing s with
  | zero => rfl
  | succ fuel ih =>
    unfold serveAsks
    split
    · rfl
    · split <;> simp [ih]

@[simp] theorem serve_boot (s : State) : (serve s).boot = s.boot := by simp [serve]

@[simp] theorem queueAsk_boot (s : State) (pod t : Nat) : (queueAsk s pod t).boot = s.boot := by simp [queueAsk]

@[simp] theorem askRound_boot (s : State) (t : Nat) : (askRound s t).boot = s.boot := by simp [askRound]

@[simp] theorem keepWake_boot (s : State) (src : Nat) : (keepWake s src).boot = s.boot := by simp [keepWake]

@[simp] theorem latchWake_boot (s : State) (src : Nat) : (latchWake s src).boot = s.boot := by
  unfold latchWake
  (repeat' split) <;> simp

/-- `k` acts on the state as it is, but for a wake that the access may have latched. -/
@[simp] theorem tlp_otpSlot (s : State) (i : Instr) (k : State → State)
    (hk : ∀ u, u.boot = s.boot → (k u).boot.otpSlot = u.boot.otpSlot) : (tlp s i k).boot.otpSlot = s.boot.otpSlot := by
  simp [tlp, hk]

@[simp] theorem attn_boot (s : State) (bit : Nat) : (attn s bit).boot = s.boot := by simp [attn]

@[simp] theorem powerNote_boot (old s : State) : (powerNote old s).boot = s.boot := by simp [powerNote]

@[simp] theorem rcStray_boot (s : State) : (rcStray s).boot = s.boot := by simp [rcStray]

@[simp] theorem onAsk_boot (s : State) (m : List Byte) : (onAsk s m).boot = s.boot := by simp [onAsk]

@[simp] theorem onPropose_boot (s : State) (m : List Byte) : (onPropose s m).boot = s.boot := by
  unfold onPropose
  dsimp only
  split
  · simp
  · split <;> simp

@[simp] theorem onAccept_boot (s : State) (m : List Byte) : (onAccept s m).boot = s.boot := by simp [onAccept]

@[simp] theorem onDecline_boot (s : State) (m : List Byte) : (onDecline s m).boot = s.boot := by simp [onDecline]

@[simp] theorem onWithdraw_boot (s : State) (m : List Byte) : (onWithdraw s m).boot = s.boot := by simp [onWithdraw]

@[simp] theorem onVerdict_boot (s : State) (m : List Byte) : (onVerdict s m).boot = s.boot := by
  unfold onVerdict
  split <;> simp

@[simp] theorem onWake_boot (s : State) (_m : List Byte) : (onWake s _m).boot = s.boot := by simp [onWake]

/-! ### The functions of Machine/RailView -/

@[simp] theorem setCluster_boot (s : State) (n : Nat) (c : ClusterSt) : (setCluster s n c).boot = s.boot := by simp [setCluster]

@[simp] theorem movePoint_boot (wasHeld : Nat → Bool) (s : State) (n : Nat) : (movePoint wasHeld s n).boot = s.boot := by simp [movePoint]

@[simp] theorem movePoints_boot (old s : State) : (movePoints old s).boot = s.boot := by simp [movePoints]

/-! ### The functions of Machine/Faults -/

@[simp] theorem startPkt_boot (s : State) (f pos : Nat) : (startPkt s f pos).boot = s.boot := by simp [startPkt]

@[simp] theorem refusePkt_boot (s : State) (f pos status : Nat) (parse : Bool) : (refusePkt s f pos status parse).boot = s.boot := by
  unfold refusePkt
  split <;> simp -implicitDefEqProofs

@[simp] theorem setDiscardBusy_boot (s : State) (f : Nat) (v : Bool) : (setDiscardBusy s f v).boot = s.boot := by simp [setDiscardBusy]

@[simp] theorem modElem_boot (s : State) (j : Job) (i : Nat) (h : Elem → Elem) : (modElem s j i h).boot = s.boot := by simp [modElem]

@[simp] theorem modSe_boot (s : State) (j : Job) (i st : Nat) (h : StageElem → StageElem) : (modSe s j i st h).boot = s.boot := by
  simp [modSe]

@[simp] theorem modStage_boot (s : State) (j : Job) (st : Nat) (h : StageRun → StageRun) : (modStage s j st h).boot = s.boot := by
  simp [modStage]

@[simp] theorem dropShader_boot (s : State) (mine : Nat → Nat → Nat → Nat → Bool) : (dropShader s mine).boot = s.boot := by
  simp [dropShader]

@[simp] theorem eraseSe_boot (s : State) (j : Job) (i st status : Nat) : (eraseSe s j i st status).boot = s.boot := by
  simp only [eraseSe, modSe_boot, dropShader_boot, traceEv_boot]
  split <;> simp

@[simp] theorem eraseJobPencil_boot (s : State) (j : Job) (st : Nat) : (eraseJobPencil s j st).boot = s.boot := by simp [eraseJobPencil]

@[simp] theorem modProg_boot (s : State) (f id : Nat) (g : Prog → Prog) : (modProg s f id g).boot = s.boot := by simp [modProg]

@[simp] theorem undefVA_boot (s : State) (f va n : Nat) : (undefVA s f va n).boot = s.boot := by
  unfold undefVA
  split
  · rfl
  · refine boot_foldl _ (fun s p => ?_) _ s
    dsimp only
    split <;> simp

@[simp] theorem undefCopy_boot (s : State) (x : Xfer) : (undefCopy s x).boot = s.boot := by
  unfold undefCopy
  split <;> simp

@[simp] theorem setDeficit_boot (s : State) (c f : Nat) (v : Int) : (setDeficit s c f v).boot = s.boot := by simp [setDeficit]

@[simp] theorem settleCharge_boot (s : State) (j : Job) (us : Nat) : (settleCharge s j us).boot = s.boot := by simp [settleCharge]

@[simp] theorem jobAccounts_boot (s : State) (j : Job) : (jobAccounts s j).boot = s.boot := by simp [jobAccounts]

@[simp] theorem leaveAccounts_boot (s : State) (j : Job) : (leaveAccounts s j).boot = s.boot := by simp [leaveAccounts]

@[simp] theorem undefScratch_boot (s : State) (f id : Nat) : (undefScratch s f id).boot = s.boot := by
  unfold undefScratch
  split <;> simp

@[simp] theorem stopJobs_boot (s : State) (f : Nat) : (stopJobs s f).boot = s.boot := by simp [stopJobs]

@[simp] theorem stopCopies_boot (s : State) (f : Nat) : (stopCopies s f).boot = s.boot := by simp [stopCopies]

@[simp] theorem stopDisplay_boot (s : State) (f : Nat) : (stopDisplay s f).boot = s.boot := by
  unfold stopDisplay
  (repeat' split) <;> simp

@[simp] theorem dropFetched_boot (s : State) (who f : Nat) : (dropFetched s who f).boot = s.boot := by simp [dropFetched]

@[simp] theorem stopRemote_boot (s : State) (f : Nat) : (stopRemote s f).boot = s.boot := by simp [stopRemote]

@[simp] theorem stopWork_otpSlot (s : State) (f : Nat) : (stopWork s f).boot.otpSlot = s.boot.otpSlot := by simp [stopWork]

@[simp] theorem takePackets_boot (s : State) (f : Nat) (cause : Option Nat) (causeStatus : Nat) (device waitRestart : Bool) :
    (takePackets s f cause causeStatus device waitRestart).boot = s.boot := by simp [takePackets]

@[simp] theorem functionFault'_otpSlot (s : State) (f status pktStatus pos : Nat) :
    (functionFault' s f status pktStatus pos).boot.otpSlot = s.boot.otpSlot := by simp [functionFault']

@[simp] theorem functionFault_otpSlot (s : State) (f status pos : Nat) :
    (functionFault s f status pos).boot.otpSlot = s.boot.otpSlot := by simp [functionFault]

@[simp] theorem deviceFaultFn_otpSlot (s : State) (waitRestart : Bool) (f : Nat) :
    (deviceFaultFn s waitRestart f).boot.otpSlot = s.boot.otpSlot := by simp -implicitDefEqProofs [deviceFaultFn]

@[simp] theorem deviceFault_otpSlot (s : State) (cause island d0 d1 : Nat) :
    (deviceFault s cause island d0 d1).boot.otpSlot = s.boot.otpSlot := by simp -implicitDefEqProofs [deviceFault]

@[simp] theorem raiseMet_otpSlot (s : State) : (raiseMet s).boot.otpSlot = s.boot.otpSlot := by
  unfold raiseMet
  split <;> simp

@[simp] theorem endWait_otpSlot (s : State) (f : Nat) (p : Packet) (content : Nat) :
    (endWait s f p content).boot.otpSlot = s.boot.otpSlot := by
  simp [endWait]

@[simp] theorem fenceWritten_otpSlot (s : State) (f slot content : Nat) :
    (fenceWritten s f slot content).boot.otpSlot = s.boot.otpSlot := by simp [fenceWritten]

/-- A write of a ring object, made or waiting, leaves a state with boot record `b`. -/
def RingWrite.leaves (b : Boot) : RingWrite → Prop
  | .written s => s.boot = b
  | .waits s => s.boot = b
  | .lost => True

theorem ringWrite_leaves (s : State) (f va pos : Nat) (bs : List Byte) : (ringWrite s f va pos bs).leaves s.boot := by
  unfold ringWrite
  dsimp only
  split
  · rfl
  · split <;> simp [RingWrite.leaves]

theorem putReply_leaves (s : State) (f pos : Nat) (entry : List Byte) : (putReply s f pos entry).leaves s.boot := by
  have h := ringWrite_leaves s f (replyBase s f + 32 * ((rd s (R.HI_REPLY_TAIL f)).toNat % 2 ^ replyLog2 s f)) pos entry
  unfold putReply
  dsimp only
  split
  · next s' e =>
    rw [e] at h
    exact h
  · exact h

@[simp] theorem ringLost_otpSlot (s : State) (f pos : Nat) : (ringLost s f pos).boot.otpSlot = s.boot.otpSlot := by simp [ringLost]

@[simp] theorem dropPkt_boot (s : State) (f pos : Nat) : (dropPkt s f pos).boot = s.boot := by simp [dropPkt]

@[simp] theorem reportFence_otpSlot (s : State) (f : Nat) (p : Packet) (replied : Bool) :
    (reportFence s f p replied).boot.otpSlot = s.boot.otpSlot := by
  have h := ringWrite_leaves s f (fenceBase s f + 8 * p.slot) p.pos (bytesLE 8 (fenceForm p.status p.fence))
  unfold reportFence
  dsimp only
  split
  · simp
  · split
    · next s' e =>
      rw [e] at h
      simp [show s'.boot = s.boot from h]
    · next s' e =>
      rw [e] at h
      exact congrArg _ h
    · simp

@[simp] theorem reportPkt_otpSlot (s : State) (f : Nat) (p : Packet) (drop : Bool) :
    (reportPkt s f p drop).boot.otpSlot = s.boot.otpSlot := by
  have h := putReply_leaves s f p.pos (replyEntry s p)
  unfold reportPkt
  split
  · rfl
  split
  · simp
  split
  · split
    · next s' e =>
      rw [e] at h
      simp [show s'.boot = s.boot from h]
    · next s' e =>
      rw [e] at h
      exact congrArg _ h
    · simp
  · split <;> simp

@[simp] theorem replyFullUpdate_boot (s : State) (f : Nat) : (replyFullUpdate s f).boot = s.boot := by simp [replyFullUpdate]

@[simp] theorem reportAll_otpSlot (s : State) (f : Nat) (drop : Bool) : (reportAll s f drop).boot.otpSlot = s.boot.otpSlot := by
  rw [reportAll, replyFullUpdate_boot]
  refine otpSlot_foldl _ (fun s p => ?_) _ s
  split <;> simp

/-! ### The functions of Machine/Access -/

@[simp] theorem askPod_boot (s : State) (owner : Owner) (who cls f pos va pod a n : Nat) :
    (askPod s owner who cls f pos va pod a n).boot = s.boot := by simp [askPod]

@[simp] theorem givePod_boot (s : State) (owner : Owner) (who cls f pos va pod a : Nat) (bs : List Byte) :
    (givePod s owner who cls f pos va pod a bs).boot = s.boot := by simp [givePod]

@[simp] theorem askFor_boot (s : State) (owner : Owner) (who engine cls f pos : Nat) (r : Range) (va n : Nat) :
    (askFor s owner who engine cls f pos r va n).boot = s.boot := by
  unfold askFor
  dsimp only
  split <;> simp

@[simp] theorem askRanges_boot (s : State) (owner : Owner) (who engine cls f pos : Nat) (rs : List Range) :
    (askRanges s owner who engine cls f pos rs).boot = s.boot := by simp [askRanges]

@[simp] theorem accessFault_otpSlot (s : State) (f va : Nat) (write : Bool) (status pos : Nat) :
    (accessFault s f va write status pos).boot.otpSlot = s.boot.otpSlot := by simp [accessFault]

@[simp] theorem lookUpTo_boot (s : State) (who f : Nat) (rs : List Range) (va : Nat) : (lookUpTo s who f rs va).boot = s.boot := by
  simp [lookUpTo]

@[simp] theorem rangesFault_otpSlot (s : State) (who f : Nat) (rs : List Range) (va : Nat) (write : Bool) (status pos : Nat) :
    (rangesFault s who f rs va write status pos).boot.otpSlot = s.boot.otpSlot := by simp [rangesFault]

/-- The local and host bytes of a write go to memory, and those of other pods into the list. -/
@[simp] theorem vaWrite_boot (s : State) (owner : Owner) (who cls f pos : Nat) (ws : List (Nat × Byte)) :
    (vaWrite s owner who cls f pos ws).boot = s.boot := by
  unfold vaWrite
  split
  · rfl
  · refine (boot_foldl _ (fun s run => ?_) _ _).trans (boot_foldl_fst _ (fun x w => ?_) ws (s, []))
    · split <;> simp
    · split <;> simp

@[simp] theorem forgetRemote_boot (s : State) (who f : Nat) (rs : List Range) : (forgetRemote s who f rs).boot = s.boot := by
  simp [forgetRemote]

/-! ### The functions of Machine/HostIf -/

@[simp] theorem enableFails_boot (s : State) (f status : Nat) : (enableFails s f status).boot = s.boot := by simp [enableFails]

@[simp] theorem ringEnIn_boot (f : Nat) (v : Bool) (s : State) : (ringEnIn f v s).boot = s.boot := by
  simp -implicitDefEqProofs [ringEnIn]

@[simp] theorem stopIn_boot (f : Nat) (v : Bool) (s : State) : (stopIn f v s).boot = s.boot := by simp [stopIn]

@[simp] theorem ringResetNow_boot (f : Nat) (s : State) : (ringResetNow f s).boot = s.boot := by simp [ringResetNow]

@[simp] theorem ringResetIn_boot (f : Nat) (s : State) : (ringResetIn f s).boot = s.boot := by simp [ringResetIn]

@[simp] theorem doorbellReject_boot (f : Nat) (t : W32) (s : State) : (doorbellReject f t s).boot = s.boot := by simp [doorbellReject]

@[simp] theorem doorbellIn_boot (f : Nat) (t : W32) (s : State) : (doorbellIn f t s).boot = s.boot := by simp [doorbellIn]

@[simp] theorem parse_boot (s : State) (f : Nat) (p : Packet) : (parse s f p).boot = s.boot := by
  unfold parse
  split <;> simp

/-- Reads of ring slots, `n` bytes each. The size is a variable: with a numeral the kernel evaluates the accesses. -/
theorem touchSlots_boot (f h n : Nat) (l : List Nat) (s : State) :
    (l.foldl (fun s i => touchVA s 20 f (slotVa s f (h + i)) n false false) s).boot = s.boot :=
  boot_foldl _ (fun t i => touchVA_boot t 20 f (slotVa t f (h + i)) n false false) l s

@[simp] theorem fetchGroup_boot (s : State) (f ext : Nat) : (fetchGroup s f ext).boot = s.boot := by
  rw [fetchGroup, parse_boot, bumpBy_boot, wr_boot]
  exact touchSlots_boot f (ringHead s f) 64 _ s

@[simp] theorem fetchIssue_otpSlot (s : State) (f va : Nat) (a : Acc) : (fetchIssue s f va a).boot.otpSlot = s.boot.otpSlot := by
  unfold fetchIssue
  split <;> simp

@[simp] theorem packetFetch_otpSlot (f : Nat) (s : State) : (packetFetch f s).boot.otpSlot = s.boot.otpSlot := by
  rcases h₁ : rangeIssue s 20 f (slotVa s f (ringHead s f)) 64 false false with _ | ⟨v, a⟩
  · rcases h₂ : (List.range (fld ((slotWords s f (ringHead s f))[1]?.getD 0#32) 31 16 + 1)).findSome?
        (fun i => rangeIssue s 20 f (slotVa s f (ringHead s f + i)) 64 false false) with _ | ⟨v, a⟩
    · simp [packetFetch, h₁, h₂]
    · simp [packetFetch, h₁, h₂]
  · simp [packetFetch, h₁]

@[simp] theorem hiReplyHeadIn_otpSlot (f : Nat) (h : W32) (s : State) : (hiReplyHeadIn f h s).boot.otpSlot = s.boot.otpSlot := by
  simp [hiReplyHeadIn]

@[simp] theorem msixSendPending_boot (s : State) (f vec : Nat) : (msixSendPending s f vec).boot = s.boot := by simp [msixSendPending]

@[simp] theorem msixUnmaskIn_boot (f vec : Nat) (s : State) : (msixUnmaskIn f vec s).boot = s.boot := by simp [msixUnmaskIn]

@[simp] theorem windowReset_boot (s : State) (f : Nat) : (windowReset s f).boot = s.boot := by simp [windowReset]

@[simp] theorem unloadAll_boot (s : State) (f : Nat) : (unloadAll s f).boot = s.boot := by simp [unloadAll]

@[simp] theorem functionClear_otpSlot (s : State) (f : Nat) : (functionClear s f).boot.otpSlot = s.boot.otpSlot := by simp [functionClear]

@[simp] theorem functionReset_otpSlot (s : State) (f : Nat) : (functionReset s f).boot.otpSlot = s.boot.otpSlot := by simp [functionReset]

@[simp] theorem pfReset_otpSlot (s : State) : (pfReset s).boot.otpSlot = s.boot.otpSlot := by simp [pfReset]

@[simp] theorem modPcie_boot (s : State) (g : Pcie → Pcie) : (modPcie s g).boot = s.boot := by simp [modPcie]

@[simp] theorem sendLtr_boot (s : State) : (sendLtr s).boot = s.boot := by simp [sendLtr]

@[simp] theorem configurationWrite_otpSlot (f field value : Nat) (s : State) :
    (configurationWrite f field value s).boot.otpSlot = s.boot.otpSlot := by
  unfold configurationWrite
  split <;> simp

/-! ### The functions of Machine/Packets -/

@[simp] theorem failWaiting_boot (s : State) (f pos id : Nat) : (failWaiting s f pos id).boot = s.boot := by simp [failWaiting]

@[simp] theorem refuseLoad_boot (s : State) (f : Nat) (p : Packet) (status : Nat) : (refuseLoad s f p status).boot = s.boot := by
  simp [refuseLoad]

@[simp] theorem holdPkt_boot (s : State) (f pos : Nat) : (holdPkt s f pos).boot = s.boot := by simp [holdPkt]

@[simp] theorem unloadNow_boot (s : State) (f id : Nat) : (unloadNow s f id).boot = s.boot := by simp [unloadNow]

@[simp] theorem leaveNow_boot (s : State) (f : Nat) (p : Packet) : (leaveNow s f p).boot = s.boot := by
  unfold leaveNow
  dsimp only
  split <;> simp

@[simp] theorem settlePkt_boot (s : State) (f : Nat) (p : Packet) : (settlePkt s f p).boot = s.boot := by
  unfold settlePkt
  (repeat' split) <;> simp

@[simp] theorem settleFn_boot (s : State) (f : Nat) : (settleFn s f).boot = s.boot := by
  refine boot_foldl _ (fun s p => ?_) _ s
  split <;> simp

@[simp] theorem takePkt_boot (s : State) (f pos : Nat) : (takePkt s f pos).boot = s.boot := by simp [takePkt]

@[simp] theorem carryOut_otpSlot (s : State) (f : Nat) (p : Packet) (d : State → Nat → Packet → State)
    (hd : ∀ s f p, (d s f p).boot.otpSlot = s.boot.otpSlot) : (carryOut s f p d).boot.otpSlot = s.boot.otpSlot := by
  simp [carryOut, hd]

@[simp] theorem dispatchWith_otpSlot (s : State) (f pos : Nat) (d : State → Nat → Packet → State)
    (hd : ∀ s f p, (d s f p).boot.otpSlot = s.boot.otpSlot) : (dispatchWith s f pos d).boot.otpSlot = s.boot.otpSlot := by
  unfold dispatchWith
  split
  · rfl
  · split
    · rfl
    · dsimp only
      split
      · split <;> simp [hd]
      · simp [hd]

@[simp] theorem dispatchAs_otpSlot (s : State) (f pos op : Nat) (d : State → Nat → Packet → State)
    (hd : ∀ s f p, (d s f p).boot.otpSlot = s.boot.otpSlot) : (dispatchAs s f pos op d).boot.otpSlot = s.boot.otpSlot := by
  unfold dispatchAs
  split
  · split <;> simp [hd]
  · rfl

@[simp] theorem dispNop_boot (s : State) (f : Nat) (p : Packet) : (dispNop s f p).boot = s.boot := by simp [dispNop]

@[simp] theorem dispBarrier_boot (s : State) (_f : Nat) (_p : Packet) : (dispBarrier s _f _p).boot = s.boot := by simp [dispBarrier]

@[simp] theorem dispSignal_boot (s : State) (f : Nat) (p : Packet) : (dispSignal s f p).boot = s.boot := by simp [dispSignal]

@[simp] theorem sendWatch_boot (s : State) (f : Nat) (p : Packet) : (sendWatch s f p).boot = s.boot := by simp [sendWatch]

@[simp] theorem dispWait_otpSlot (s : State) (f : Nat) (p : Packet) : (dispWait s f p).boot.otpSlot = s.boot.otpSlot := by simp [dispWait]

@[simp] theorem dispLinkSend_boot (s : State) (f : Nat) (p : Packet) : (dispLinkSend s f p).boot = s.boot := by simp [dispLinkSend]

/-! ### The functions of Machine/Copy -/

@[simp] theorem setEng_boot (s : State) (e : Nat) (g : Engine) : (setEng s e g).boot = s.boot := by simp [setEng]

@[simp] theorem modXfer_boot (s : State) (e : Nat) (x : Xfer) (g : Xfer → Xfer) : (modXfer s e x g).boot = s.boot := by simp [modXfer]

@[simp] theorem sendGroup_boot (s : State) (g : PrgGroup) : (sendGroup s g).boot = s.boot := by simp [sendGroup]

@[simp] theorem pumpGroups_boot (s : State) (e : Nat) : (pumpGroups s e).boot = s.boot := by simp [pumpGroups]

@[simp] theorem dropXferRequests_boot (s : State) (e : Nat) (x : Xfer) : (dropXferRequests s e x).boot = s.boot := by
  simp [dropXferRequests]

@[simp] theorem undefPart_boot (s : State) (x : Xfer) (p : Packet) (whole : Bool) : (undefPart s x p whole).boot = s.boot := by
  simp [undefPart]

@[simp] theorem xferFails_boot (s : State) (e : Nat) (x : Xfer) (p : Packet) (st result va : Nat) (write : Bool) :
    (xferFails s e x p st result va write).boot = s.boot := by simp [xferFails]

@[simp] theorem xferBlocked_boot (s : State) (e : Nat) (x : Xfer) (p : Packet) (va n : Nat) (write : Bool) (k : XAcc) :
    (xferBlocked s e x p va n write k).boot = s.boot := by
  unfold xferBlocked
  split <;> simp

@[simp] theorem xferRead_boot (s : State) (e : Nat) (x : Xfer) (va n : Nat) : (xferRead s e x va n).1.boot = s.boot := by simp [xferRead]

@[simp] theorem xferWrite_boot (s : State) (e : Nat) (x : Xfer) (va : Nat) (bs : List Byte) : (xferWrite s e x va bs).boot = s.boot := by
  simp [xferWrite]

@[simp] theorem tookSource_boot (s : State) (e : Nat) (x : Xfer) (p : Packet) (bs : List Byte) : (tookSource s e x p bs).boot = s.boot := by
  simp [tookSource]

@[simp] theorem advance_boot (e fuel : Nat) (s : State) : (advance e fuel s).boot = s.boot := by
  induction fuel generalizing s with
  | zero => rfl
  | succ fuel ih =>
    unfold advance
    cases (getEng s e).running with
    | none => rfl
    | some x =>
      dsimp only
      split
      · rfl
      · cases getPkt s x.fn x.pos with
        | none => rfl
        | some p =>
          dsimp only
          cases nextMove s (16 + e) x p with
          | copy a b n =>
            dsimp only
            split
            · split <;> simp [ih]
            · simp
          | put b bs => dsimp only; split <;> simp [ih]
          | read a n => dsimp only; split <;> simp [ih]
          | trial => simp
          | finish r => simp
          | codec st r => simp

@[simp] theorem startXfer_boot (s : State) (e : Nat) (q : Nat × Nat) : (startXfer s e q).boot = s.boot := by simp [startXfer]

@[simp] theorem runEng_boot (s : State) (e : Nat) : (runEng s e).boot = s.boot := by
  unfold runEng
  split <;> simp

@[simp] theorem kick_boot (e fuel : Nat) (s : State) : (kick e fuel s).boot = s.boot := by
  induction fuel generalizing s with
  | zero => rfl
  | succ fuel ih =>
    unfold kick
    dsimp only
    split
    · split
      · simp [ih]
      split
      · rfl
      split
      · simp [ih]
      · split <;> simp [ih]
    · split
      · simp [ih]
      · split <;> simp [ih]

@[simp] theorem kickEng_boot (s : State) (e : Nat) : (kickEng s e).boot = s.boot := by simp [kickEng]

@[simp] theorem enqueue_boot (s : State) (e f pos : Nat) : (enqueue s e f pos).boot = s.boot := by simp [enqueue]

@[simp] theorem setRgn_boot (s : State) (f id r : Nat) (x : RegionState) : (setRgn s f id r x).boot = s.boot := by simp [setRgn]

@[simp] theorem toRunning_boot (s : State) (f id r : Nat) : (toRunning s f id r).boot = s.boot := by
  unfold toRunning
  split
  · rfl
  · dsimp only
    split <;> simp

@[simp] theorem promote_boot (s : State) (f id r : Nat) : (promote s f id r).boot = s.boot := by
  unfold promote
  dsimp only
  split
  · simp
  · split
    · simp
    · split
      · simp
      · split <;> simp

@[simp] theorem promoteRegions_boot (s : State) : (promoteRegions s).boot = s.boot := by simp [promoteRegions]

@[simp] theorem dispCopy_boot (s : State) (f : Nat) (p : Packet) : (dispCopy s f p).boot = s.boot := by
  unfold dispCopy
  (repeat' split) <;> simp

@[simp] theorem dispRegion_boot (s : State) (f : Nat) (p : Packet) : (dispRegion s f p).boot = s.boot := by
  unfold dispRegion
  split
  · simp
  · dsimp only
    split
    · simp
    · simp only [promote_boot, setRgn_boot]
      split
      · simp
      · split <;> simp

@[simp] theorem regionEnd_boot (s : State) (x : Xfer) (p : Packet) : (regionEnd s x p).1.boot = s.boot := by
  unfold regionEnd
  dsimp only
  split
  · rfl
  · split <;> simp

@[simp] theorem countXferEnd_boot (s : State) (e st : Nat) : (countXferEnd s e st).boot = s.boot := by simp [countXferEnd]

@[simp] theorem finishXfer_boot (s : State) (e : Nat) (x : Xfer) : (finishXfer s e x).boot = s.boot := by
  unfold finishXfer
  dsimp only
  split
  · simp
  · split <;> simp

@[simp] theorem resumeXfer_boot (s : State) (e : Nat) (x : Xfer) (restart : Bool) : (resumeXfer s e x restart).boot = s.boot := by
  simp [resumeXfer]

@[simp] theorem resumeRemote_boot (s : State) : (resumeRemote s).boot = s.boot := by
  refine boot_foldl _ (fun s e => ?_) _ s
  split
  · split <;> simp
  · rfl

@[simp] theorem xferRemoteFails_boot (s : State) (e f pos st va : Nat) (write : Bool) :
    (xferRemoteFails s e f pos st va write).boot = s.boot := by
  unfold xferRemoteFails
  split <;> simp

/-! ### The functions of Machine/Timetable -/

@[simp] theorem dropJob_boot (s : State) (j : Job) : (dropJob s j).boot = s.boot := by simp [dropJob]

@[simp] theorem setVisited_boot (s : State) (c f : Nat) (v : Bool) : (setVisited s c f v).boot = s.boot := by simp [setVisited]

@[simp] theorem ringAdvance_boot (s : State) (c : Nat) : (ringAdvance s c).boot = s.boot := by
  unfold ringAdvance
  dsimp only
  split <;> simp

@[simp] theorem selectJob_boot (s : State) (j : Job) : (selectJob s j).boot = s.boot := by simp [selectJob]

@[simp] theorem passTurn_boot (s : State) : (passTurn s).1.boot = s.boot := by
  unfold passTurn
  split
  · rfl
  · dsimp only
    split
    · simp
    · simp [apply_ite Prod.fst]

@[simp] theorem passLoop_boot (fuel : Nat) (s : State) : (passLoop fuel s).boot = s.boot := by
  induction fuel generalizing s with
  | zero => rfl
  | succ fuel ih => simp [passLoop, ih]

@[simp] theorem refuseJob_boot (s : State) (j : Job) (status : Nat) : (refuseJob s j status).boot = s.boot := by simp [refuseJob]

@[simp] theorem stepBoundary_boot (s : State) (f id : Nat) : (stepBoundary s f id).boot = s.boot := by
  unfold stepBoundary
  split
  · rfl
  · split
    · rfl
    · dsimp only
      split <;> simp

@[simp] theorem refuseStep_boot (s : State) (w : StepWait) (status : Nat) : (refuseStep s w status).boot = s.boot := by simp [refuseStep]

@[simp] theorem standbyRefusals_boot (s : State) : (standbyRefusals s).boot = s.boot := by simp [standbyRefusals]

@[simp] theorem selectionPass_boot (s : State) : (selectionPass s).boot = s.boot := by simp [selectionPass]

@[simp] theorem duePass_boot (s : State) : (duePass s).boot = s.boot := by simp [duePass]

@[simp] theorem refuseEntry_boot (s : State) (f : Nat) (p : Packet) (status : Nat) : (refuseEntry s f p status).boot = s.boot := by
  simp [refuseEntry]

@[simp] theorem touchBinds_boot (s : State) (f n : Nat) (bs : List Binding) : (touchBinds s f n bs).boot = s.boot := by simp [touchBinds]

@[simp] theorem refuseCheck_boot (s : State) (f : Nat) (p : Packet) (st : Nat) : (refuseCheck s f p st).boot = s.boot := by
  simp [refuseCheck]

@[simp] theorem dispJob_boot (s : State) (f : Nat) (p : Packet) : (dispJob s f p).boot = s.boot := by
  unfold dispJob
  split
  · simp
  · split
    · rfl
    · dsimp only
      split <;> simp

@[simp] theorem dispStep_boot (s : State) (f : Nat) (p : Packet) : (dispStep s f p).boot = s.boot := by
  unfold dispStep
  split
  · simp
  · split
    · rfl
    · dsimp only
      split <;> simp

@[simp] theorem dispLeave_boot (s : State) (f : Nat) (p : Packet) : (dispLeave s f p).boot = s.boot := by
  unfold dispLeave
  split <;> simp

@[simp] theorem dispUnload_boot (s : State) (f : Nat) (p : Packet) : (dispUnload s f p).boot = s.boot := by
  unfold dispUnload
  split <;> simp

@[simp] theorem clusterBoundary_boot (s : State) (cl : List Nat) : (clusterBoundary s cl).boot = s.boot := by simp [clusterBoundary]

@[simp] theorem jobStart_boot (s : State) (j : Job) : (jobStart s j).boot = s.boot := by
  unfold jobStart
  split <;> simp

@[simp] theorem stepDone_boot (s : State) (f id : Nat) (e : Elem) : (stepDone s f id e).boot = s.boot := by simp [stepDone]

@[simp] theorem finishJob_boot (s : State) (j : Job) (st : Option Nat) : (finishJob s j st).boot = s.boot := by
  unfold finishJob
  (repeat' split) <;> simp

@[simp] theorem endJob_boot (s : State) (j0 : Job) (st : Option Nat) : (endJob s j0 st).boot = s.boot := by simp [endJob]

@[simp] theorem overJob_boot (s : State) (j : Job) (st : Nat) : (overJob s j st).boot = s.boot := by simp [overJob]

@[simp] theorem dispQuota_boot (s : State) (f : Nat) (p : Packet) : (dispQuota s f p).boot = s.boot := by simp [dispQuota]

/-! ### The functions of Machine/ShaderIsa -/

@[simp] theorem admitProgram_boot (s : State) (g : Prog) : (admitProgram s g).boot = s.boot := by simp [admitProgram]

@[simp] theorem dispLoad_otpSlot (s : State) (f : Nat) (p : Packet) : (dispLoad s f p).boot.otpSlot = s.boot.otpSlot := by
  unfold dispLoad
  dsimp only
  split
  · simp
  split
  · simp
  split
  · simp
  split
  · simp
  split
  · simp
  · simp
  · split
    · simp
    · split
      · simp
      · split <;> simp

/-! ### The functions of Machine/Groups -/

@[simp] theorem startGroup_boot (s : State) (o : ShOp) (w : List W32) (core g : Nat) : (startGroup s o w core g).boot = s.boot := by
  simp [startGroup]

@[simp] theorem modShOp_boot (s : State) (o : ShOp) (h : ShOp → ShOp) : (modShOp s o h).boot = s.boot := by simp [modShOp]

@[simp] theorem fillRank_boot (w : List W32) (o : ShOp) (r fuel : Nat) (s : State) : (fillRank w o r fuel s).boot = s.boot := by
  induction fuel generalizing s o with
  | zero => rfl
  | succ fuel ih =>
    unfold fillRank
    split
    · rfl
    · dsimp only
      split
      · rfl
      · split <;> simp [ih]

@[simp] theorem fillOp_boot (s : State) (w : List W32) (o : ShOp) : (fillOp s w o).boot = s.boot := by simp [fillOp]

@[simp] theorem refill_boot (s : State) : (refill s).boot = s.boot := by
  refine boot_foldl _ (fun s o => ?_) _ s
  split
  · rfl
  · split <;> simp

/-! ### The functions of Machine/Pencil -/

@[simp] theorem writeOut_boot (s : State) (who cls f pos : Nat) (g : Prog) (ws : List Wr) :
    (writeOut s who cls f pos g ws).boot = s.boot := by
  unfold writeOut
  dsimp only
  split
  · simp
  · refine (boot_foldl _ (fun s w => ?_) _ _).trans (vaWrite_boot _ _ _ _ _ _ _)
    split <;> simp

@[simp] theorem writeElem_boot (s : State) (who : Nat) (j : Job) (g : Prog) (i : Nat) (atomic : Bool) (ws : List Wr) :
    (writeElem s who j g i atomic ws).boot = s.boot := by
  unfold writeElem
  dsimp only
  split
  · rfl
  · split <;> simp

@[simp] theorem trapRecord_boot (s : State) (f prog cluster : Nat) (t : Nat × Nat × Nat × Nat) (detail pos : Nat) (early : Bool) :
    (trapRecord s f prog cluster t detail pos early).boot = s.boot := by simp -implicitDefEqProofs [trapRecord]

@[simp] theorem trapFault_otpSlot (s : State) (f prog cluster : Nat) (t : Nat × Nat × Nat × Nat) (detail pos : Nat) (early : Bool) :
    (trapFault s f prog cluster t detail pos early).boot.otpSlot = s.boot.otpSlot := by simp -implicitDefEqProofs [trapFault]

@[simp] theorem endStage_boot (s : State) (j : Job) (st : Nat) : (endStage s j st).boot = s.boot := by simp [endStage]

@[simp] theorem settleEarly_otpSlot (s : State) (j : Job) (g : Prog) (st : Nat) : (settleEarly s j g st).boot.otpSlot = s.boot.otpSlot := by
  refine otpSlot_foldl _ (fun s i => ?_) _ s
  split
  · rfl
  · dsimp only
    split
    · rfl
    split
    · simp
    · split
      · split <;> simp
      · rfl

@[simp] theorem runFirm_boot (s : State) (j : Job) (g : Prog) (st : Nat) (mine : StageElem → Bool) :
    (runFirm s j g st mine).boot = s.boot := by
  simp only [runFirm, boot_ite, modStage_boot, endStage_boot, ite_self]
  refine boot_foldl _ (fun s i => ?_) _ s
  split <;> simp

@[simp] theorem beginLate_boot (s : State) (j : Job) (g : Prog) (st : Nat) : (beginLate s j g st).boot = s.boot := by simp [beginLate]

@[simp] theorem closeEarly_boot (s : State) (j : Job) (g : Prog) (st : Nat) : (closeEarly s j g st).boot = s.boot := by simp [closeEarly]

@[simp] theorem settleStages_otpSlot (s : State) (j : Job) (g : Prog) : (settleStages s j g).boot.otpSlot = s.boot.otpSlot := by
  rw [settleStages, refill_boot]
  refine otpSlot_foldl _ (fun s st => ?_) _ s
  split
  · rfl
  · split
    · simp
    · simp
    · split <;> simp
    · rfl

@[simp] theorem resolvePred_boot (s : State) (j : Job) (i pred : Nat) (v host : Bool) : (resolvePred s j i pred v host).boot = s.boot := by
  unfold resolvePred
  split <;> simp

@[simp] theorem resolveStepWait_boot (s : State) (f pos pred : Nat) (v : Bool) :
    (resolveStepWait s f pos pred v).boot = s.boot := by simp [resolveStepWait]

@[simp] theorem dispResolve_otpSlot (s : State) (f : Nat) (p : Packet) : (dispResolve s f p).boot.otpSlot = s.boot.otpSlot := by
  unfold dispResolve
  dsimp only
  split
  · simp
  · split
    · split
      · simp
      · split
        · simp
        · split
          · simp
          · simp
    · split
      · simp
      · split
        · simp
        · simp

@[simp] theorem startEarly_boot (s : State) (j : Job) (g : Prog) (st : Nat) : (startEarly s j g st).boot = s.boot := by
  unfold startEarly
  dsimp only
  split
  · simp
  · refine (boot_foldl _ (fun s i => ?_) _ _).trans (by simp)
    split
    · rfl
    · split
      · simp
      · split <;> simp

@[simp] theorem inkSe_boot (s : State) (j : Job) (g : Prog) (st i : Nat) : (inkSe s j g st i).boot = s.boot := by
  unfold inkSe
  split <;> simp

@[simp] theorem resolveAll_boot (s : State) (j : Job) (g : Prog) (st : Nat) : (resolveAll s j g st).boot = s.boot := by
  refine boot_foldl _ (fun t i => ?_) _ s
  split <;> simp

@[simp] theorem finishStage_otpSlot (s : State) (j : Job) (g : Prog) (st : Nat) : (finishStage s j g st).boot.otpSlot = s.boot.otpSlot := by
  simp [finishStage]

/-! ### The functions of Machine/Tensor -/

@[simp] theorem countTiles_boot (s : State) (n : Nat) (c : OpCtx) : (countTiles s n c).boot = s.boot := by simp [countTiles]

@[simp] theorem traceTiles_boot (s : State) (n : Nat) (c : OpCtx) (fl : Tab Nat) : (traceTiles s n c fl).boot = s.boot := by
  simp [traceTiles]

@[simp] theorem OpCtx.touch_boot (c : OpCtx) (n : Nat) (s : State) : (OpCtx.touch c n s).boot = s.boot := by simp [OpCtx.touch]

@[simp] theorem takeResult_boot (s : State) (i : Nat) (c : OpCtx) (r : OpResult) : (takeResult s i c r).boot = s.boot := by
  simp [takeResult]

@[simp] theorem advanceOp_boot (s : State) (j : Job) (st : Nat) : (advanceOp s j st).boot = s.boot := by simp [advanceOp]

@[simp] theorem runCtxs_boot (s : State) (j : Job) (st op : Nat) (cs : List (Nat × OpCtx)) (compute : OpCtx → State → OpResult) :
    (runCtxs s j st op cs compute).boot = s.boot := by simp [runCtxs]

@[simp] theorem runFamily_otpSlot (fam : Nat) (compute : OpCtx → State → OpResult) (f pos st : Nat) (s : State) :
    (runFamily fam compute f pos st s).boot.otpSlot = s.boot.otpSlot := by
  unfold runFamily
  split
  · rfl
  · next j0 _ =>
    split
    · rfl
    · next g _ =>
      have h : (if j0.live then settleStages s j0 g else s).boot.otpSlot = s.boot.otpSlot := by simp
      generalize (if j0.live then settleStages s j0 g else s) = u at h ⊢
      rw [← h]
      dsimp only
      split
      · rfl
      · split
        · rfl
        · split <;> simp

/-! ### The functions of Machine/Shader -/

@[simp] theorem setShFlags_boot (s : State) (q : ShGroup) (fl : Nat) : (setShFlags s q fl).boot = s.boot := by simp [setShFlags]

@[simp] theorem modLocal_boot (s : State) (w : Wave) (h : Tab Byte → Tab Byte) : (modLocal s w h).boot = s.boot := by simp [modLocal]

@[simp] theorem spaceWrite_boot (s : State) (x : WaveCtx) (atomic : Bool) (a : Nat) (bs : List Byte) :
    (spaceWrite s x atomic a bs).boot = s.boot := by simp [spaceWrite]

@[simp] theorem releaseBars_boot (s : State) (w : Wave) : (releaseBars s w).boot = s.boot := by simp [releaseBars]

@[simp] theorem finishShader_otpSlot (s : State) (j : Job) (g : Prog) (st op : Nat) :
    (finishShader s j g st op).boot.otpSlot = s.boot.otpSlot := by
  unfold finishShader
  dsimp only
  split
  · rfl
  · split <;> simp

@[simp] theorem launchShader_otpSlot (f pos st : Nat) (s : State) : (launchShader f pos st s).boot.otpSlot = s.boot.otpSlot := by
  unfold launchShader
  split
  · rfl
  · split
    · rfl
    · dsimp only
      split
      · simp
      · split
        · simp
        · split <;> simp

@[simp] theorem closeGroup_otpSlot (s : State) (q : ShGroup) : (closeGroup s q).boot.otpSlot = s.boot.otpSlot := by
  unfold closeGroup
  (repeat' split) <;> simp

@[simp] theorem waveEnded_otpSlot (s : State) (w : Wave) : (waveEnded s w).boot.otpSlot = s.boot.otpSlot := by
  unfold waveEnded
  dsimp only
  split <;> simp

@[simp] theorem waveTraps_otpSlot (s : State) (x : WaveCtx) (t : Trap) : (waveTraps s x t).boot.otpSlot = s.boot.otpSlot := by
  simp [waveTraps]

@[simp] theorem setWave_boot (s : State) (w : Wave) : (setWave s w).boot = s.boot := by simp [setWave]

@[simp] theorem countIssue_boot (s : State) (x : WaveCtx) : (countIssue s x).boot = s.boot := by simp [countIssue]

/-- A wave's instruction leaves the OTP slot as `q`, whatever becomes of the wave. -/
def Eff.leaves (q : List Byte × Bool × Bool) : Eff → Prop
  | .go _ s => s.boot.otpSlot = q
  | .stall s => s.boot.otpSlot = q
  | .trap _ => True
  | .gone s => s.boot.otpSlot = q
  | .done s => s.boot.otpSlot = q

theorem Eff.apply_otpSlot (e : Eff) (x : WaveCtx) (s : State) (he : e.leaves s.boot.otpSlot) :
    (e.apply x s).boot.otpSlot = s.boot.otpSlot := by
  cases e with
  | go w t => simpa [Eff.apply, Eff.leaves] using he
  | stall t => exact he
  | trap t => simp [Eff.apply]
  | gone t => exact he
  | done t => simpa [Eff.apply, Eff.leaves] using he

theorem runInstr_otpSlot (opc : Nat) (act : WaveCtx → State → Eff) (k slot : Nat) (s : State)
    (hact : ∀ x s, (act x s).leaves s.boot.otpSlot) : (runInstr opc act k slot s).boot.otpSlot = s.boot.otpSlot := by
  unfold runInstr
  split
  · rfl
  · split
    · rfl
    · rw [raiseMet_otpSlot]
      exact Eff.apply_otpSlot _ _ s (hact _ s)

@[simp] theorem tensorMessage_otpSlot (n : Nat) (s : State) : (tensorMessage n s).boot.otpSlot = s.boot.otpSlot := by
  unfold tensorMessage
  split
  · rfl
  · dsimp only
    split <;> simp

/-! ### The functions of Machine/LinkRx -/

@[simp] theorem setPortState_boot (s : State) (p st width : Nat) : (setPortState s p st width).boot = s.boot := by simp [setPortState]

@[simp] theorem logPort_boot (s : State) (ev p width : Nat) : (logPort s ev p width).boot = s.boot := by simp [logPort]

@[simp] theorem portErr_boot (s : State) (p : Nat) (fd : Fld) : (portErr s p fd).boot = s.boot := by simp [portErr]

@[simp] theorem sendRoutes_boot (s : State) : (sendRoutes s).boot = s.boot := by simp [sendRoutes]

@[simp] theorem failReqLost_otpSlot (s : State) (r : RemoteReq) : (failReqLost s r).boot.otpSlot = s.boot.otpSlot := by
  unfold failReqLost
  split <;> simp

@[simp] theorem failReqs_otpSlot (s : State) (rs : List RemoteReq) : (failReqs s rs).boot.otpSlot = s.boot.otpSlot := by simp [failReqs]

@[simp] theorem failUnrouted_otpSlot (s : State) : (failUnrouted s).boot.otpSlot = s.boot.otpSlot := by simp [failUnrouted]

@[simp] theorem resendMsg_boot (s : State) (m : List Byte) : (resendMsg s m).boot = s.boot := by
  unfold resendMsg
  (repeat' split) <;> simp

@[simp] theorem reroute_otpSlot (s : State) (taken : List (List Byte)) : (reroute s taken).boot.otpSlot = s.boot.otpSlot := by
  simp [reroute]

@[simp] theorem portDown_otpSlot (s : State) (p st : Nat) : (portDown s p st).boot.otpSlot = s.boot.otpSlot := by
  unfold portDown
  dsimp only
  split
  · rfl
  · split
    · split <;> simp
    · rw [reroute_otpSlot, sendRoutes_boot]
      split
      · split
        · split <;> simp
        · split <;> simp
      · split <;> simp

@[simp] theorem sendSets_boot (s : State) (p kind locked cap mark : Nat) :
    (sendSets s p kind locked cap mark).boot = s.boot := by simp [sendSets]

@[simp] theorem startTraining_boot (s : State) (p : Nat) : (startTraining s p).boot = s.boot := by simp [startTraining]

@[simp] theorem startHalf_boot (s : State) (p cap : Nat) : (startHalf s p cap).boot = s.boot := by simp [startHalf]

@[simp] theorem sendMarked_boot (s : State) (p cap : Nat) : (sendMarked s p cap).boot = s.boot := by simp [sendMarked]

@[simp] theorem trainFails_otpSlot (s : State) (p : Nat) : (trainFails s p).boot.otpSlot = s.boot.otpSlot := by simp [trainFails]

@[simp] theorem resendReplay_boot (s : State) (p : Nat) : (resendReplay s p).boot = s.boot := by simp [resendReplay]

@[simp] theorem trainedFull_otpSlot (s : State) (p code g : Nat) (t : List Byte) :
    (trainedFull s p code g t).boot.otpSlot = s.boot.otpSlot := by simp [trainedFull]

@[simp] theorem trainedHalf_boot (s : State) (p code g : Nat) : (trainedHalf s p code g).boot = s.boot := by simp [trainedHalf]

@[simp] theorem retrainIn_boot (p : Nat) (s : State) : (retrainIn p s).boot = s.boot := by simp [retrainIn]

@[simp] theorem linkEnIn_otpSlot (p : Nat) (v : Bool) (s : State) : (linkEnIn p v s).boot.otpSlot = s.boot.otpSlot := by simp [linkEnIn]

@[simp] theorem laneLock_boot (s : State) (p lane tag : Nat) (inverted : Bool) : (laneLock s p lane tag inverted).boot = s.boot := by
  unfold laneLock
  dsimp only
  split <;> simp

@[simp] theorem slotsFreed_boot (s : State) (p : Nat) (m : List Byte) : (slotsFreed s p m).boot = s.boot := by simp [slotsFreed]

@[simp] theorem sendIdle_boot (s : State) (p : Nat) : (sendIdle s p).boot = s.boot := by simp [sendIdle]

@[simp] theorem relayMsg_boot (s : State) (m : List Byte) : (relayMsg s m).boot = s.boot := by
  unfold relayMsg
  split <;> simp

@[simp] theorem refuseMsg_boot (s : State) (m : List Byte) : (refuseMsg s m).boot = s.boot := by
  unfold refuseMsg
  split <;> simp

@[simp] theorem malformed_boot (s : State) (p : Nat) (m : List Byte) : (malformed s p m).boot = s.boot := by simp [malformed]

@[simp] theorem streamAck_boot (s : State) (m : List Byte) : (streamAck s m).boot = s.boot := by
  simp -implicitDefEqProofs [streamAck]

@[simp] theorem inStream_otpSlot (s : State) (m : List Byte) (k : State → List Byte → State)
    (hk : ∀ s, (k s m).boot.otpSlot = s.boot.otpSlot) : (inStream s m k).boot.otpSlot = s.boot.otpSlot := by
  simp [inStream, hk]

@[simp] theorem dropUnknown_otpSlot (p fuel : Nat) (s : State) : (dropUnknown p fuel s).boot.otpSlot = s.boot.otpSlot := by
  induction fuel generalizing s with
  | zero => rfl
  | succ fuel ih =>
    unfold dropUnknown
    dsimp only
    split <;> simp [ih]

@[simp] theorem dropUnknowns_otpSlot (s : State) (p : Nat) : (dropUnknowns s p).boot.otpSlot = s.boot.otpSlot := by simp [dropUnknowns]

@[simp] theorem assemble_boot (p fuel : Nat) (s : State) : (assemble p fuel s).boot = s.boot := by
  induction fuel generalizing s with
  | zero => rfl
  | succ fuel ih => simp [assemble, ih]

@[simp] theorem takeAck_boot (s : State) (p : Nat) (fl : List Byte) : (takeAck s p fl).boot = s.boot := by simp [takeAck]

@[simp] theorem takeCredits_boot (s : State) (p : Nat) (fl : List Byte) : (takeCredits s p fl).boot = s.boot := by simp [takeCredits]

@[simp] theorem sendNak_boot (s : State) (p : Nat) : (sendNak s p).boot = s.boot := by simp [sendNak]

@[simp] theorem replayThreshold_otpSlot (s : State) (p n : Nat) : (replayThreshold s p n).boot.otpSlot = s.boot.otpSlot := by
  simp [replayThreshold]

@[simp] theorem replayNow_otpSlot (s : State) (p : Nat) : (replayNow s p).boot.otpSlot = s.boot.otpSlot := by simp [replayNow]

@[simp] theorem takePayload_otpSlot (s : State) (p : Nat) (fl : List Byte) : (takePayload s p fl).boot.otpSlot = s.boot.otpSlot := by
  simp [takePayload]

@[simp] theorem rxFlit_otpSlot (s : State) (p : Nat) (fl : List Byte) : (rxFlit s p fl).boot.otpSlot = s.boot.otpSlot := by simp [rxFlit]

@[simp] theorem recv_otpSlot (s : State) (p type : Nat) (wait : State → List Byte → Option State) (k : State → List Byte → State)
    (hw : ∀ m t, wait s m = some t → t.boot.otpSlot = s.boot.otpSlot) (hk : ∀ s m, (k s m).boot.otpSlot = s.boot.otpSlot) :
    (recv s p type wait k).boot.otpSlot = s.boot.otpSlot := by
  unfold recv
  split
  · rfl
  · next m _ =>
    dsimp only
    split
    · next t h =>
      split at h
      · exact hw m t h
      · cases h
    · simp [hk]

@[simp] theorem noWait_ne_some (s t : State) (m : List Byte) : ¬ noWait s m = some t := by simp [noWait]

theorem wedgedWait_otpSlot {s t : State} {m : List Byte} (h : wedgedWait s m = some t) : t.boot.otpSlot = s.boot.otpSlot := by
  unfold wedgedWait at h
  split at h <;> simp_all

theorem waitsOn_otpSlot {s t : State} {ok : Bool} {w : RingWrite} (hw : w.leaves s.boot) (h : waitsOn ok w = some t) :
    t.boot.otpSlot = s.boot.otpSlot := by
  unfold waitsOn at h
  cases ok with
  | false => simp at h
  | true =>
    cases w with
    | waits u =>
      simp only [Bool.not_true, Bool.false_eq_true, if_false, Option.some.injEq] at h
      rw [← h]
      exact congrArg _ hw
    | written u => simp at h
    | lost => simp at h

@[simp] theorem onRdReq_boot (s : State) (m : List Byte) : (onRdReq s m).boot = s.boot := by simp [onRdReq]

@[simp] theorem onWrReq_boot (s : State) (m : List Byte) : (onWrReq s m).boot = s.boot := by simp [onWrReq]

@[simp] theorem onAtReq_boot (s : State) (m : List Byte) : (onAtReq s m).boot = s.boot := by simp [onAtReq]

@[simp] theorem takeReq_boot (s : State) (m : List Byte) (types : List Nat) : (takeReq s m types).1.boot = s.boot := by
  unfold takeReq
  split <;> simp

@[simp] theorem accessRefused_otpSlot (s : State) (r : RemoteReq) : (accessRefused s r).boot.otpSlot = s.boot.otpSlot := by
  unfold accessRefused
  split <;> simp

@[simp] theorem onRdRsp_otpSlot (s : State) (m : List Byte) : (onRdRsp s m).boot.otpSlot = s.boot.otpSlot := by
  have h := takeReq_boot s m [1]
  unfold onRdRsp
  split
  · next u e =>
    rw [e] at h
    exact congrArg _ h
  · next u r e =>
    rw [e] at h
    simp [show u.boot = s.boot from h]

@[simp] theorem onWrAck_otpSlot (s : State) (m : List Byte) : (onWrAck s m).boot.otpSlot = s.boot.otpSlot := by
  have h := takeReq_boot s m [2]
  unfold onWrAck
  split
  · next u e =>
    rw [e] at h
    exact congrArg _ h
  · next u r e =>
    rw [e] at h
    simp [show u.boot = s.boot from h]

@[simp] theorem onAtRsp_otpSlot (s : State) (m : List Byte) : (onAtRsp s m).boot.otpSlot = s.boot.otpSlot := by
  have h := takeReq_boot s m [3]
  unfold onAtRsp
  split
  · next u e =>
    rw [e] at h
    exact congrArg _ h
  · next u r e =>
    rw [e] at h
    simp [show u.boot = s.boot from h]

theorem fenceWrWrite_leaves (s : State) (m : List Byte) : (fenceWrWrite s m).leaves s.boot := ringWrite_leaves ..

@[simp] theorem onFenceWr_otpSlot (s : State) (m : List Byte) : (onFenceWr s m).boot.otpSlot = s.boot.otpSlot := by
  have h := fenceWrWrite_leaves s m
  unfold onFenceWr
  split
  · simp
  · split
    · next u e =>
      rw [e] at h
      simp [show u.boot = s.boot from h]
    · simp

@[simp] theorem onFenceWatch_boot (s : State) (m : List Byte) : (onFenceWatch s m).boot = s.boot := by simp [onFenceWatch]

@[simp] theorem onFenceUnwatch_boot (s : State) (m : List Byte) : (onFenceUnwatch s m).boot = s.boot := by simp [onFenceUnwatch]

theorem msgWrite_leaves (s : State) (m : List Byte) : (msgWrite s m).leaves s.boot := by
  unfold msgWrite
  exact putReply_leaves (freshNat s).1 _ _ _

@[simp] theorem onMsg_otpSlot (s : State) (m : List Byte) : (onMsg s m).boot.otpSlot = s.boot.otpSlot := by
  have h := msgWrite_leaves s m
  unfold onMsg
  split
  · simp
  · split
    · next u e =>
      rw [e] at h
      simp [show u.boot = s.boot from h]
    · simp

@[simp] theorem onAck_boot (types : List Nat) (s : State) (m : List Byte) : (onAck types s m).boot = s.boot := by
  have h := takeReq_boot s m types
  unfold onAck
  split
  · next u e =>
    rw [e] at h
    exact h
  · next u r e =>
    rw [e] at h
    simp [show u.boot = s.boot from h]

@[simp] theorem onFenceNotify_otpSlot (s : State) (m : List Byte) : (onFenceNotify s m).boot.otpSlot = s.boot.otpSlot := by
  have h := takeReq_boot s m [0x11]
  unfold onFenceNotify
  split
  · next u e =>
    rw [e] at h
    exact congrArg _ h
  · next u r e =>
    rw [e] at h
    split <;> simp [show u.boot = s.boot from h]

@[simp] theorem releaseBacklog_boot (d fuel : Nat) (s : State) : (releaseBacklog s d fuel).boot = s.boot := by
  induction fuel generalizing s with
  | zero => rfl
  | succ fuel ih =>
    unfold releaseBacklog
    split
    · rfl
    · split
      · rfl
      · split
        · rfl
        · rw [ih]
          dsimp only
          split <;> simp

@[simp] theorem onStreamAck_boot (s : State) (m : List Byte) : (onStreamAck s m).boot = s.boot := by simp [onStreamAck]

@[simp] theorem peerRestarted_otpSlot (s : State) (d : Nat) : (peerRestarted s d).boot.otpSlot = s.boot.otpSlot := by simp [peerRestarted]

@[simp] theorem onRouteState_otpSlot (s : State) (m : List Byte) : (onRouteState s m).boot.otpSlot = s.boot.otpSlot := by
  simp [onRouteState]

@[simp] theorem rcRecv_otpSlot (s : State) (p type : Nat) (k : State → List Byte → State)
    (hk : ∀ s m, (k s m).boot.otpSlot = s.boot.otpSlot) : (rcRecv s p type k).boot.otpSlot = s.boot.otpSlot :=
  recv_otpSlot s p type _ _ (fun m t h => absurd h (noWait_ne_some s t m)) (fun s m => by simp [hk])

/-! ### The functions of Machine/Caretaker -/

@[simp] theorem appendRec_boot (s : State) (r : LogRec) : (appendRec s r).boot = s.boot := by simp [appendRec]

@[simp] theorem logLatch_boot (s : State) : (logLatch s).boot = s.boot := by
  rw [logLatch, sf_boot]
  exact boot_foldl _ (fun s k => wr_boot s _ _) _ s

@[simp] theorem kaLogDataReadIn_boot (s : State) : (kaLogDataReadIn s).boot = s.boot := by simp [kaLogDataReadIn]

@[simp] theorem setLoad_boot (s : State) (v : Bool) (mv : Nat) : (setLoad s v mv).boot = s.boot := by simp [setLoad]

@[simp] theorem protectRec_boot (s : State) (kind : Nat) (acts : Bool) (mv : Nat) : (protectRec s kind acts mv).boot = s.boot := by
  simp [protectRec]

@[simp] theorem uvCheck_boot (s : State) (mv : Nat) : (uvCheck s mv).boot = s.boot := by simp [uvCheck]

@[simp] theorem loadCheck_boot (s : State) (mv : Nat) : (loadCheck s mv).boot = s.boot := by simp [loadCheck]

@[simp] theorem ocAct_boot (s : State) (mv : Nat) : (ocAct s mv).boot = s.boot := by simp [ocAct]

@[simp] theorem ocLatchIn_boot (s : State) : (ocLatchIn s).boot = s.boot := by simp [ocLatchIn]

@[simp] theorem focvTarget_boot (s : State) : (focvTarget s).boot = s.boot := by simp [focvTarget]

@[simp] theorem kaReset_boot (s : State) : (kaReset s).boot = s.boot := by simp [kaReset]

/-! ### The functions of Machine/Rail -/

@[simp] theorem setVr_boot (s : State) (st : Nat) : (setVr s st).boot = s.boot := by simp [setVr]

@[simp] theorem setChosen_boot (s : State) (m : Nat) : (setChosen s m).boot = s.boot := by simp [setChosen]

@[simp] theorem ceilNote_boot (old s : State) : (ceilNote old s).boot = s.boot := by simp [ceilNote]

@[simp] theorem railMoved_boot (old s : State) : (railMoved old s).boot = s.boot := by simp [railMoved]

@[simp] theorem regulate_boot (s : State) (mv : Nat) : (regulate s mv).boot = s.boot := by simp [regulate]

@[simp] theorem stopClusters_boot (s : State) : (stopClusters s).boot = s.boot := by simp [stopClusters]

@[simp] theorem clampClusters_boot (s : State) : (clampClusters s).boot = s.boot := by simp [clampClusters]

@[simp] theorem forcedSleep_boot (s : State) : (forcedSleep s).boot = s.boot := by simp [forcedSleep]

@[simp] theorem railFault_otpSlot (s : State) (cause d0 : Nat) : (railFault s cause d0).boot.otpSlot = s.boot.otpSlot := by simp [railFault]

@[simp] theorem phaseFault_otpSlot (s : State) : (phaseFault s).boot.otpSlot = s.boot.otpSlot := by simp [phaseFault]

@[simp] theorem phaseDetected_otpSlot (old s : State) (n kind ctr : Nat) (detail : List Byte) :
    (phaseDetected old s n kind ctr detail).boot.otpSlot = s.boot.otpSlot := by simp [phaseDetected]

@[simp] theorem clearLost_boot (s : State) (m : Nat) : (clearLost s m).boot = s.boot := by simp [clearLost]

@[simp] theorem phaseRetryIn_boot (v : W32) (pass : Nat) (s : State) : (phaseRetryIn v pass s).boot = s.boot := by simp [phaseRetryIn]

@[simp] theorem setTHot_boot (s : State) (t16 : Int) (sensor : Nat) : (setTHot s t16 sensor).boot = s.boot := by simp [setTHot]

@[simp] theorem throttleNote_boot (old s : State) (t16 : Int) (sensor : Nat) : (throttleNote old s t16 sensor).boot = s.boot := by
  simp -implicitDefEqProofs [throttleNote]

@[simp] theorem capNote_boot (old s : State) (ab as : Rat) : (capNote old s ab as).boot = s.boot := by simp [capNote]

/-! ### The functions of Machine/Mgmt -/

@[simp] theorem served_boot (s : State) (code : Nat) : (served s code).boot = s.boot := by simp [served]

@[simp] theorem refused_boot (s : State) (code : Nat) : (refused s code).boot = s.boot := by simp [refused]

@[simp] theorem pecRefused_boot (s : State) (code : Nat) : (pecRefused s code).boot = s.boot := by simp [pecRefused]

@[simp] theorem mgmtRead_otpSlot (s : State) (t : MgmtXact) (code : Nat) (data : List Byte) (eff : State → State)
    (he : (eff s).boot.otpSlot = s.boot.otpSlot) : (mgmtRead s t code data eff).boot.otpSlot = s.boot.otpSlot := by
  simp [mgmtRead, he]

@[simp] theorem mgmtBlock_otpSlot (s : State) (t : MgmtXact) (code : Nat) (data : List Byte) (eff : State → State)
    (he : (eff s).boot.otpSlot = s.boot.otpSlot) : (mgmtBlock s t code data eff).boot.otpSlot = s.boot.otpSlot := by
  simp [mgmtBlock, he]

@[simp] theorem mgmtWrite_otpSlot (s : State) (t : MgmtXact) (code n : Nat) (block early : Bool) (last : List Byte → Bool)
    (apply : State → List Byte → State) (ha : ∀ d, (apply s d).boot.otpSlot = s.boot.otpSlot) :
    (mgmtWrite s t code n block early last apply).boot.otpSlot = s.boot.otpSlot := by
  simp [mgmtWrite, ha]

@[simp] theorem mgmtReadOnly_otpSlot (s : State) (t : MgmtXact) (code : Nat) (r : State → State)
    (hr : (r s).boot.otpSlot = s.boot.otpSlot) : (mgmtReadOnly s t code r).boot.otpSlot = s.boot.otpSlot := by
  simp [mgmtReadOnly, hr]

@[simp] theorem attentionRead_boot (s : State) : (attentionRead s).boot = s.boot := by simp [attentionRead]

@[simp] theorem storeCtlData_boot (s : State) (bs : List Byte) : (storeCtlData s bs).boot = s.boot := by simp [storeCtlData]

@[simp] theorem ctlEnd_boot (s : State) (status tries : Nat) (timeout pecBad : Bool) (rdata : List Byte) :
    (ctlEnd s status tries timeout pecBad rdata).boot = s.boot := by simp -implicitDefEqProofs [ctlEnd]

@[simp] theorem ctlAttempt_boot (s : State) (tries : Nat) : (ctlAttempt s tries).boot = s.boot := by simp [ctlAttempt]

@[simp] theorem controllerStartIn_boot (v : W32) (s : State) : (controllerStartIn v s).boot = s.boot := by simp [controllerStartIn]

@[simp] theorem ctlRetryOrEnd_boot (s : State) (c : CtlTx) (status : Nat) : (ctlRetryOrEnd s c status).boot = s.boot := by
  simp [ctlRetryOrEnd]

@[simp] theorem ctlTimeout_boot (s : State) (c : CtlTx) (rdata : List Byte) : (ctlTimeout s c rdata).boot = s.boot := by simp [ctlTimeout]

@[simp] theorem setHostAttentionIn_boot (v : W32) (s : State) : (setHostAttentionIn v s).boot = s.boot := by simp [setHostAttentionIn]

/-! ### The functions of Machine/Notice -/

@[simp] theorem sendNotice_boot (s : State) : (sendNotice s).boot = s.boot := by simp [sendNotice]

/-! ### The functions of Machine/Renderer -/

@[simp] theorem setDraw_boot (s : State) (d : Draw) : (setDraw s d).boot = s.boot := by simp [setDraw]

@[simp] theorem rendWrite_boot (s : State) (d : Draw) (va : Nat) (bs : List Byte) : (rendWrite s d va bs).boot = s.boot := by
  simp [rendWrite]

@[simp] theorem rendFault_otpSlot (s : State) (d : Draw) (st va : Nat) (write : Bool) :
    (rendFault s d st va write).boot.otpSlot = s.boot.otpSlot := by simp [rendFault]

@[simp] theorem withAccess_otpSlot (s : State) (d : Draw) (rs : List Range) (k : State → State)
    (hk : ∀ s, (k s).boot.otpSlot = s.boot.otpSlot) : (withAccess s d rs k).boot.otpSlot = s.boot.otpSlot := by
  unfold withAccess
  split <;> simp [hk]

/-- The OTP slot is the same in two states. -/
def SameSlot (s t : State) : Prop := t.boot.otpSlot = s.boot.otpSlot

/-- The same with the relation named, so that the kernel compares the accesses' continuations as terms and does not run them. -/
theorem withAccess_sameSlot (s : State) (d : Draw) (rs : List Range) (k : State → State) (hk : ∀ s, SameSlot s (k s)) :
    SameSlot s (withAccess s d rs k) := withAccess_otpSlot s d rs k hk

@[simp] theorem closeDraw_boot (s : State) (d : Draw) (st record : Nat) : (closeDraw s d st record).boot = s.boot := by
  simp -implicitDefEqProofs [closeDraw]

@[simp] theorem endDraw_boot (s : State) (d : Draw) (p : Packet) (st record : Nat) : (endDraw s d p st record).boot = s.boot := by
  simp [endDraw]

@[simp] theorem startPass_boot (s : State) (d : Draw) (p : Packet) (pass : Nat) : (startPass s d p pass).boot = s.boot := by
  simp [startPass]

@[simp] theorem kickRend_boot (fuel : Nat) (s : State) : (kickRend fuel s).boot = s.boot := by
  induction fuel generalizing s with
  | zero => rfl
  | succ fuel ih =>
    unfold kickRend
    split
    · dsimp only
      split <;> simp [ih]
    · rfl

@[simp] theorem kickDraw_boot (s : State) : (kickDraw s).boot = s.boot := by simp [kickDraw]

@[simp] theorem putRef_boot (p : Packet) (x : BinRef) (s : State) (t : Nat) : (putRef p x s t).boot = s.boot := by
  unfold putRef
  split <;> simp -implicitDefEqProofs

@[simp] theorem shadeTile_boot (p : Packet) (s : State) (t : Nat) : (shadeTile p s t).boot = s.boot := by
  unfold shadeTile
  split <;> simp

@[simp] theorem shadingPass_otpSlot (s : State) (d : Draw) (p : Packet) (k : State → State)
    (hk : ∀ s, (k s).boot.otpSlot = s.boot.otpSlot) : (shadingPass s d p k).boot.otpSlot = s.boot.otpSlot :=
  withAccess_otpSlot s d _ _ (fun s => by simp [hk])

@[simp] theorem tookRec_boot (s : State) : (tookRec s).boot = s.boot := by
  unfold tookRec
  split <;> simp

@[simp] theorem binPrim_otpSlot (s : State) (d : Draw) (p : Packet) (r : Rec) : (binPrim s d p r).boot.otpSlot = s.boot.otpSlot := by
  unfold binPrim
  dsimp only
  split
  · simp
  · refine withAccess_otpSlot s d _ _ (fun s => shadingPass_otpSlot s d p _ (fun s => ?_))
    split <;> simp

@[simp] theorem setClip_boot (s : State) (d : Draw) (r : Rec) : (setClip s d r).boot = s.boot := by simp [setClip]

@[simp] theorem setAtlas_boot (s : State) (d : Draw) (p : Packet) (r : Rec) : (setAtlas s d p r).boot = s.boot := by simp [setAtlas]

@[simp] theorem lastPass_otpSlot (s : State) (d : Draw) (p : Packet) (took : State → State)
    (ht : ∀ s, (took s).boot.otpSlot = s.boot.otpSlot) : (lastPass s d p took).boot.otpSlot = s.boot.otpSlot := by
  refine shadingPass_otpSlot s d p _ (fun s => ?_)
  split <;> simp [ht]

@[simp] theorem endIfOver_otpSlot (s : State) (p : Packet) : (endIfOver s p).boot.otpSlot = s.boot.otpSlot := by
  unfold endIfOver
  split <;> simp

@[simp] theorem doRec_otpSlot (s : State) (d : Draw) (p : Packet) (r : Rec) : (doRec s d p r).boot.otpSlot = s.boot.otpSlot := by
  unfold doRec
  split <;> simp

@[simp] theorem drawRec_otpSlot (type : Nat) (s : State) : (drawRec type s).boot.otpSlot = s.boot.otpSlot := by
  rcases h₁ : (kickDraw s).rend.cur with _ | d
  · simp [drawRec, h₁]
  rcases h₂ : getPkt (kickDraw s) d.fn d.pos with _ | p
  · simp [drawRec, h₁, h₂]
  · simp only [drawRec, h₁, h₂, raiseMet_otpSlot, kickDraw_boot, boot_ite, otpSlot_ite, endIfOver_otpSlot]
    split
    · rfl
    · refine (withAccess_sameSlot _ _ _ _ fun s => ?_).trans (by rw [kickDraw_boot])
      unfold SameSlot
      rw [boot_ite, boot_ite]
      simp

@[simp] theorem dispDraw_boot (s : State) (f : Nat) (p : Packet) : (dispDraw s f p).boot = s.boot := by simp [dispDraw]

/-! ### The functions of Machine/Display -/

@[simp] theorem setLayer_boot (s : State) (n : Nat) (l : Layer) : (setLayer s n l).boot = s.boot := by simp [setLayer]

@[simp] theorem dcEvent_boot (s : State) (fd : Fld) : (dcEvent s fd).boot = s.boot := by simp [dcEvent]

@[simp] theorem setDc_boot (s : State) (fd : Fld) (v : Nat) : (setDc s fd v).boot = s.boot := by simp [setDc]

@[simp] theorem setNotice_boot (s : State) (v : Bool) : (setNotice s v).boot = s.boot := by simp [setNotice]

@[simp] theorem bindFlip_boot (s : State) (n : Nat) : (bindFlip s n).boot = s.boot := by
  unfold bindFlip
  dsimp only
  split <;> simp

@[simp] theorem latchRegs_boot (s : State) : (latchRegs s).1.boot = s.boot := by simp [latchRegs]

@[simp] theorem askLayer_boot (s : State) (v : View) (n : Nat) : (askLayer s v n).boot = s.boot := by
  unfold askLayer
  split
  · rfl
  · refine boot_foldl _ (fun s e => boot_foldl _ (fun s p => ?_) _ s) _ s
    split <;> simp

@[simp] theorem latch_boot (s : State) : (latch s).boot = s.boot := by simp [latch]

@[simp] theorem cfgDone_boot (s : State) (pos st : Nat) : (cfgDone s pos st).boot = s.boot := by simp [cfgDone]

@[simp] theorem auxGo_boot (s : State) : (auxGo s).boot = s.boot := by
  unfold auxGo
  split <;> simp

@[simp] theorem cfgInForce_boot (s : State) (c : DispCfg) : (cfgInForce s c).boot = s.boot := by simp [cfgInForce]

@[simp] theorem cfgProceed_boot (s : State) (pos : Nat) (c : DispCfg) : (cfgProceed s pos c).boot = s.boot := by simp [cfgProceed]

@[simp] theorem cfgKick_boot (fuel : Nat) (s : State) : (cfgKick fuel s).boot = s.boot := by
  induction fuel generalizing s with
  | zero => rfl
  | succ fuel ih =>
    unfold cfgKick
    split
    · dsimp only
      split <;> simp [ih]
    · rfl

@[simp] theorem kickCfg_boot (s : State) : (kickCfg s).boot = s.boot := by simp [kickCfg]

@[simp] theorem dispDisplayConfig_boot (s : State) (_f : Nat) (p : Packet) : (dispDisplayConfig s _f p).boot = s.boot := by
  simp [dispDisplayConfig]

@[simp] theorem dispFlip_boot (s : State) (f : Nat) (p : Packet) : (dispFlip s f p).boot = s.boot := by
  simp -implicitDefEqProofs [dispFlip]
  generalize (getLayer _ (p.bits 4 2 0)).pend = o
  cases o <;> simp -implicitDefEqProofs

@[simp] theorem applyLatched_boot (s : State) (r : LatchRes) : (applyLatched s r).boot = s.boot := by simp [applyLatched]

@[simp] theorem startFrame_boot (s : State) : (startFrame s).boot = s.boot := by
  unfold startFrame
  dsimp only
  split <;> simp

@[simp] theorem touchLayer_boot (s : State) (v : View) (l : Nat × Flip) : (touchLayer s v l).boot = s.boot := by simp [touchLayer]

@[simp] theorem noEntryRecs_boot (s : State) (v : View) (l : Nat × Flip) : (noEntryRecs s v l).boot = s.boot := by
  refine boot_foldl _ (fun s e => boot_foldl _ (fun s q => ?_) _ s) _ s
  split <;> simp

@[simp] theorem writeBack_boot (s : State) (rows : List (List (List Nat))) (recBytes : List Byte) :
    (writeBack s rows recBytes).boot = s.boot := by simp [writeBack]

@[simp] theorem endFrame_boot (underruns : List (Nat × Nat)) (s : State) (fr : Frame) : (endFrame underruns s fr).boot = s.boot := by
  rw [endFrame, modDisp_boot]
  refine Eq.trans (boot_foldl _ (fun s x => finishPkt_boot s _ _ _ _) _ _) ?_
  rw [traceEv_boot, dcEvent_boot, boot_ite, bump_boot, ite_self]
  refine Eq.trans (boot_foldl _ (fun s w => wr_boot s _ _) _ _) ?_
  rw [boot_ite, writeBack_boot, ite_self, boot_ite]
  dsimp only
  rw [ite_self, boot_ite, dcEvent_boot, ite_self, bumpBy_boot]
  refine Eq.trans (boot_foldl _ (fun s y => boot_foldl _ (fun s n => ?_) _ s) _ _) ?_
  · rw [boot_ite, traceEv_boot, ite_self]
  refine Eq.trans (boot_foldl _ (fun s l => touchLayer_boot s _ _) _ _) ?_
  exact boot_foldl _ (fun s l => noEntryRecs_boot s _ _) _ _

@[simp] theorem countTraining_boot (s : State) (ok : Bool) : (countTraining s ok).boot = s.boot := by simp [countTraining]

@[simp] theorem retrain_boot (s : State) : (retrain s).boot = s.boot := by simp [retrain]

@[simp] theorem trainingEnds_boot (ok : Bool) (t : TrainFor) (s : State) : (trainingEnds ok t s).boot = s.boot := by
  unfold trainingEnds
  dsimp only
  split <;> simp

@[simp] theorem auxStartIn_boot (v : W32) (s : State) : (auxStartIn v s).boot = s.boot := by
  simp -implicitDefEqProofs [auxStartIn]

/-! ### The functions of Machine/Inval -/

@[simp] theorem dropLeaves_boot (s : State) (q : Nat × Bool × Nat × Nat) : (dropLeaves s q).boot = s.boot := by simp [dropLeaves]

@[simp] theorem invalidateIn_boot (s : State) : (invalidateIn s).boot = s.boot := by simp [invalidateIn]

@[simp] theorem resumeHolds_boot (s : State) : (resumeHolds s).boot = s.boot := by
  refine boot_foldl _ (fun s e => ?_) _ s
  split
  · split <;> simp
  · rfl

@[simp] theorem atcPut_boot (s : State) (t : AtcEntry) : (atcPut s t).boot = s.boot := by simp [atcPut]

@[simp] theorem atsArrived_boot (s : State) (e : Nat) (x : Xfer) : (atsArrived s e x).boot = s.boot := by
  simp only [atsArrived]
  (repeat' split) <;> simp

@[simp] theorem wakeXfers_boot (s : State) : (wakeXfers s).boot = s.boot :=
  boot_foldl _ (fun s e => boot_foldl _ (fun s x => atsArrived_boot s e x) _ s) _ s

@[simp] theorem atsFailed_otpSlot (s : State) (r : AtsReq) : (atsFailed s r).boot.otpSlot = s.boot.otpSlot := by
  unfold atsFailed
  (repeat' split) <;> simp

@[simp] theorem takeReqs_boot (s : State) (f a : Nat) : (takeReqs s f a).2.boot = s.boot := by simp [takeReqs]

@[simp] theorem answerReqs_boot (s : State) (f a n : Nat) : (answerReqs s f a n).boot = s.boot := by simp [answerReqs]

@[simp] theorem dropGroup_boot (s : State) (g : PrgGroup) : (dropGroup s g).boot = s.boot := by simp [dropGroup]

@[simp] theorem groupFails_boot (s : State) (g : PrgGroup) : (groupFails s g).boot = s.boot := by
  unfold groupFails
  dsimp only
  split <;> simp

@[simp] theorem groupSucceeds_boot (s : State) (g : PrgGroup) : (groupSucceeds s g).boot = s.boot := by
  unfold groupSucceeds
  split <;> simp

@[simp] theorem scCarveIn_otpSlot (who : Writer) (v : W32) (s : State) : (scCarveIn who v s).boot.otpSlot = s.boot.otpSlot := by
  simp [scCarveIn]

/-! ### The functions of Machine/Power -/

@[simp] theorem dispPower_boot (s : State) (f : Nat) (p : Packet) : (dispPower s f p).boot = s.boot := by simp [dispPower]

@[simp] theorem parkPort_otpSlot (target : Nat) (forced : Bool) (s : State) (p : Nat) :
    (parkPort target forced s p).boot.otpSlot = s.boot.otpSlot := by simp [parkPort]

@[simp] theorem attnQuiet_boot (s : State) (bit : Nat) : (attnQuiet s bit).boot = s.boot := by simp [attnQuiet]

@[simp] theorem deepEntry_boot (s : State) : (deepEntry s).boot = s.boot := by simp [deepEntry]

@[simp] theorem reached_boot (s : State) (target : Nat) (forced : Bool) : (reached s target forced).boot = s.boot := by simp [reached]

@[simp] theorem enterL1_boot (s : State) : (enterL1 s).boot = s.boot := by simp [enterL1]

@[simp] theorem sleepReached_otpSlot (s : State) (target : Nat) (forced : Bool) :
    (sleepReached s target forced).boot.otpSlot = s.boot.otpSlot := by
  unfold sleepReached
  dsimp only
  split <;> simp

/-! ### The functions of Machine/Startup -/

@[simp] theorem strapRegs_boot (s : State) : (strapRegs s).boot = s.boot := by
  unfold strapRegs
  dsimp only
  split
  · simp
  · exact (boot_foldl _ (fun s i => wr_boot s _ _) _ _).trans (by simp)

@[simp] theorem clearDevice_otpSlot (s : State) (keepMb : Bool) : (clearDevice s keepMb).boot.otpSlot = s.boot.otpSlot := by
  simp [clearDevice]

@[simp] theorem restart_otpSlot (s : State) : (restart s).boot.otpSlot = s.boot.otpSlot := by simp [restart]

@[simp] theorem alignFine_boot (s : State) : (alignFine s).boot = s.boot := by simp [alignFine]

@[simp] theorem tryDone_boot (s : State) : (tryDone s).boot = s.boot := by
  simp only [tryDone]
  (repeat' split) <;> simp

@[simp] theorem settleImg_otpSlot (s : State) (source outcome : Nat) : (settleImg s source outcome).boot.otpSlot = s.boot.otpSlot := by
  simp [settleImg]

@[simp] theorem configStatus_boot (s : State) (st : Nat) : (configStatus s st).boot = s.boot := by simp [configStatus]

@[simp] theorem otpReadError_otpSlot (s : State) : (otpReadError s).boot.otpSlot = s.boot.otpSlot := by simp [otpReadError]

@[simp] theorem flashRefused_otpSlot (s : State) (event st outcome : Nat) :
    (flashRefused s event st outcome).boot.otpSlot = s.boot.otpSlot := by simp [flashRefused]

@[simp] theorem beginApply_otpSlot (s : State) : (beginApply s).boot.otpSlot = s.boot.otpSlot := by simp [beginApply]

@[simp] theorem checkFlash_otpSlot (s : State) : (checkFlash s).boot.otpSlot = s.boot.otpSlot := by simp [checkFlash]

@[simp] theorem applyEnds_otpSlot (s : State) (st rejected : Nat) : (applyEnds s st rejected).boot.otpSlot = s.boot.otpSlot := by
  unfold applyEnds
  dsimp only
  split <;> simp

@[simp] theorem checkHost_otpSlot (s : State) (bytes : Nat) : (checkHost s bytes).boot.otpSlot = s.boot.otpSlot := by simp [checkHost]

@[simp] theorem dispConfigApply_otpSlot (s : State) (f : Nat) (p : Packet) : (dispConfigApply s f p).boot.otpSlot = s.boot.otpSlot := by
  simp [dispConfigApply]

@[simp] theorem refreshNotice_otpSlot (s : State) : (refreshNotice s).boot.otpSlot = s.boot.otpSlot := by simp [refreshNotice]

@[simp] theorem stageEnIn_otpSlot (v : Bool) (s : State) : (stageEnIn v s).boot.otpSlot = s.boot.otpSlot := by simp [stageEnIn]

@[simp] theorem bar2Put_otpSlot (s : State) (off : Nat) (b : Byte) : (bar2Put s off b).boot.otpSlot = s.boot.otpSlot := by simp [bar2Put]

@[simp] theorem bar2Touch_boot (s : State) (off len : Nat) (write : Bool) : (bar2Touch s off len write).boot = s.boot := by simp [bar2Touch]

@[simp] theorem bar2Read_boot (s : State) (off n : Nat) : (bar2Read s off n).boot = s.boot := by simp [bar2Read]

@[simp] theorem bar2In_otpSlot (off len : Nat) (write : Option (List (Option Byte))) (s : State) :
    (bar2In off len write s).boot.otpSlot = s.boot.otpSlot := by
  unfold bar2In
  dsimp only
  split
  · rfl
  split
  · simp
  · cases write with
    | none => simp
    | some bs =>
      simp only [bar2Touch_boot]
      refine (otpSlot_foldl _ (fun s e => ?_) _ _).trans (by simp)
      split <;> simp

/-! ### The functions of Machine/Islands -/

@[simp] theorem traceEnableIn_otpSlot (who : Writer) (v : W32) (s : State) : (traceEnableIn who v s).boot.otpSlot = s.boot.otpSlot := by
  simp [traceEnableIn]

@[simp] theorem loadIr_otpSlot (s : State) (i : Nat) : (loadIr s i).boot.otpSlot = s.boot.otpSlot := by simp [loadIr]

/-! ### The functions of Machine/Query -/

@[simp] theorem writeResult_otpSlot (s : State) (f : Nat) (p : Packet) (va : Nat) (bs : List Byte) :
    (writeResult s f p va bs).boot.otpSlot = s.boot.otpSlot := by
  unfold writeResult
  dsimp only
  split
  · simp
  · split <;> simp

@[simp] theorem dispQuery_otpSlot (s : State) (f : Nat) (p : Packet) : (dispQuery s f p).boot.otpSlot = s.boot.otpSlot := by
  simp [dispQuery]

@[simp] theorem dispSnapshot_otpSlot (s : State) (f : Nat) (p : Packet) : (dispSnapshot s f p).boot.otpSlot = s.boot.otpSlot := by
  simp [dispSnapshot]

@[simp] theorem dispatchOp_otpSlot (s : State) (f : Nat) (p : Packet) : (dispatchOp s f p).boot.otpSlot = s.boot.otpSlot := by
  unfold dispatchOp
  split <;> simp

/-! ### The functions of Machine/RegView -/

@[simp] theorem latchPut_boot (s : State) (mgmt : Bool) (l : List (Nat × W32)) : (latchPut s mgmt l).boot = s.boot := by simp [latchPut]

@[simp] theorem readReg_boot (s : State) (mgmt : Bool) (k : Nat) : (readReg s mgmt k).1.boot = s.boot := by
  unfold readReg
  (repeat' split) <;> simp

@[simp] theorem readRegs_boot (mgmt : Bool) (n : Nat) (s : State) (k : Nat) : (readRegs s mgmt k n).1.boot = s.boot := by
  induction n generalizing s k with
  | zero => rfl
  | succ n ih => simp [readRegs, ih]

/-! ### The functions of Machine/RegWrite -/

@[simp] theorem msixWrite_boot (f o : Nat) (v : W32) (s : State) : (msixWrite f o v s).boot = s.boot := by
  unfold msixWrite
  (repeat' split) <;> simp

@[simp] theorem fnCtrlWrite_boot (f : Nat) (v : W32) (s : State) : (fnCtrlWrite f v s).boot = s.boot := by simp [fnCtrlWrite]

@[simp] theorem windowWrite_otpSlot (who : Writer) (k : Nat) (v : W32) (s : State) :
    (windowWrite who k v s).boot.otpSlot = s.boot.otpSlot := by
  unfold windowWrite
  dsimp only
  split
  · rfl
  split
  · simp
  · split <;> simp

@[simp] theorem writeMT_otpSlot (who : Writer) (k : Nat) (v : W32) (s : State) : (writeMT who k v s).boot.otpSlot = s.boot.otpSlot := by
  simp [writeMT]

@[simp] theorem writeTX_otpSlot (who : Writer) (k : Nat) (v : W32) (s : State) : (writeTX who k v s).boot.otpSlot = s.boot.otpSlot := by
  simp [writeTX]

@[simp] theorem writeDC_otpSlot (who : Writer) (k : Nat) (v : W32) (s : State) : (writeDC who k v s).boot.otpSlot = s.boot.otpSlot := by
  simp [writeDC]

@[simp] theorem writeBL_otpSlot (who : Writer) (k : Nat) (v : W32) (s : State) : (writeBL who k v s).boot.otpSlot = s.boot.otpSlot := by
  simp [writeBL]

@[simp] theorem writeMB_otpSlot (who : Writer) (k : Nat) (v : W32) (s : State) : (writeMB who k v s).boot.otpSlot = s.boot.otpSlot := by
  simp [writeMB]

@[simp] theorem writeKA_otpSlot (who : Writer) (k : Nat) (v : W32) (s : State) : (writeKA who k v s).boot.otpSlot = s.boot.otpSlot := by
  simp [writeKA]

@[simp] theorem writeRail_otpSlot (who : Writer) (k : Nat) (v : W32) (s : State) : (writeRail who k v s).boot.otpSlot = s.boot.otpSlot := by
  simp [writeRail]

@[simp] theorem writeFL_otpSlot (who : Writer) (k : Nat) (v : W32) (s : State) : (writeFL who k v s).boot.otpSlot = s.boot.otpSlot := by
  simp [writeFL]

@[simp] theorem registerReadIn_boot (f off len : Nat) (s : State) : (registerReadIn f off len s).boot = s.boot := by simp [registerReadIn]

/-! ### The functions of Machine/ImageApply -/

@[simp] theorem takeRec_otpSlot (type : Nat) (eff : State → State) (s : State) (he : (eff s).boot.otpSlot = s.boot.otpSlot) :
    (takeRec type eff s).boot.otpSlot = s.boot.otpSlot := by
  unfold takeRec
  split
  · rfl
  · simpa using he

@[simp] theorem imageInForce_otpSlot (s : State) : (imageInForce s).boot.otpSlot = s.boot.otpSlot := by
  simp only [imageInForce]
  (repeat' split) <;> simp

/-! ### The functions of Machine/Exit -/

@[simp] theorem retest_boot (s : State) (stillLost : Nat) (tHot16 : Int) (sensor : Nat) :
    (retest s stillLost tHot16 sensor).boot = s.boot := by
  simp [retest]

@[simp] theorem deepLost_boot (s : State) : (deepLost s).boot = s.boot := by simp [deepLost]

@[simp] theorem portReturns_otpSlot (forced : Bool) (s : State) (p : Nat) : (portReturns forced s p).boot.otpSlot = s.boot.otpSlot := by
  simp [portReturns]

@[simp] theorem powerBack_otpSlot (old s : State) (left : Nat) (forced : Bool) :
    (powerBack old s left forced).boot.otpSlot = s.boot.otpSlot := by simp [powerBack]

@[simp] theorem backInRun_boot (s : State) (left src : Nat) (latched : Bool) : (backInRun s left src latched).boot = s.boot := by
  simp only [backInRun]
  (repeat' split) <;> simp

@[simp] theorem requestsResume_boot (s : State) : (requestsResume s).boot = s.boot := by simp [requestsResume]

/-! ### The functions of Machine/Recover -/

@[simp] theorem goOn_otpSlot (s : State) : (goOn s).boot.otpSlot = s.boot.otpSlot := by simp [goOn]

/-! ### The functions of Machine/Tick -/

@[simp] theorem stallTick_boot (s : State) (f : Nat) : (stallTick s f).boot = s.boot := by simp [stallTick]

@[simp] theorem tick_boot (s : State) : (tick s).boot = s.boot := by simp [tick]

/-- The outcome is a next state with the OTP slot as it was. -/
def keepsSlot (s : State) : Out → Prop
  | .next t => t.boot.otpSlot = s.boot.otpSlot
  | _ => False

@[simp] theorem keepsSlot_next (s t : State) : keepsSlot s (.next t) ↔ t.boot.otpSlot = s.boot.otpSlot := Iff.rfl

/-! ### The commands of Machine/HostIf -/

theorem execRingEn_keepsSlot (f : Nat) (v : Bool) (s : State) : keepsSlot s (execRingEn f v s) := by simp [execRingEn]

theorem execStop_keepsSlot (f : Nat) (v : Bool) (s : State) : keepsSlot s (execStop f v s) := by simp [execStop]

theorem execStoppedReached_keepsSlot (f : Nat) (s : State) : keepsSlot s (execStoppedReached f s) := by simp [execStoppedReached]

theorem execRingReset_keepsSlot (f : Nat) (s : State) : keepsSlot s (execRingReset f s) := by simp [execRingReset]

theorem execDoorbell_keepsSlot (f : Nat) (t : W32) (s : State) : keepsSlot s (execDoorbell f t s) := by simp [execDoorbell]

theorem execPacketFetch_keepsSlot (f : Nat) (s : State) : keepsSlot s (execPacketFetch f s) := by simp [execPacketFetch]

theorem execHiReplyHead_keepsSlot (f : Nat) (h : W32) (s : State) : keepsSlot s (execHiReplyHead f h s) := by simp [execHiReplyHead]

theorem execCompletionReport_keepsSlot (f pos : Nat) (s : State) : keepsSlot s (execCompletionReport f pos s) := by
  unfold execCompletionReport
  split <;> simp

theorem execMsixUnmask_keepsSlot (f vec : Nat) (s : State) : keepsSlot s (execMsixUnmask f vec s) := by simp [execMsixUnmask]

theorem execHostReadError_keepsSlot (f : Nat) (read : FailedRead) (s : State) : keepsSlot s (execHostReadError f read s) := by
  simp [execHostReadError]

/-! ### The commands of Machine/Packets -/

theorem execPktNop_keepsSlot (f pos : Nat) (s : State) : keepsSlot s (execPktNop f pos s) := by simp [execPktNop]

theorem execPktBarrier_keepsSlot (f pos : Nat) (s : State) : keepsSlot s (execPktBarrier f pos s) := by simp [execPktBarrier]

theorem execPktSignalFence_keepsSlot (f pos : Nat) (s : State) : keepsSlot s (execPktSignalFence f pos s) := by simp [execPktSignalFence]

theorem execPktWaitFence_keepsSlot (f pos : Nat) (s : State) : keepsSlot s (execPktWaitFence f pos s) := by simp [execPktWaitFence]

theorem execPktWaitFenceTimeout_keepsSlot (f pos : Nat) (s : State) : keepsSlot s (execPktWaitFenceTimeout f pos s) := by
  unfold execPktWaitFenceTimeout
  split <;> simp

theorem execPktLinkSend_keepsSlot (f pos : Nat) (s : State) : keepsSlot s (execPktLinkSend f pos s) := by simp [execPktLinkSend]

/-! ### The commands of Machine/Copy -/

theorem execPktCopy_keepsSlot (f pos : Nat) (s : State) : keepsSlot s (execPktCopy f pos s) := by simp [execPktCopy]

theorem execPktCopyCompress_keepsSlot (f pos : Nat) (s : State) : keepsSlot s (execPktCopyCompress f pos s) := by simp [execPktCopyCompress]

theorem execPktCopyDecompress_keepsSlot (f pos : Nat) (s : State) : keepsSlot s (execPktCopyDecompress f pos s) := by
  simp [execPktCopyDecompress]

theorem execPktRegionUpdate_keepsSlot (f pos : Nat) (s : State) : keepsSlot s (execPktRegionUpdate f pos s) := by simp [execPktRegionUpdate]

theorem execPktFill_keepsSlot (f pos : Nat) (s : State) : keepsSlot s (execPktFill f pos s) := by simp [execPktFill]

theorem execTransferEnd_keepsSlot (e : Nat) (s : State) : keepsSlot s (execTransferEnd e s) := by
  simp only [execTransferEnd, keepsSlot_next]
  split <;> simp

theorem execCompressTrialEnd_keepsSlot (e : Nat) (s : State) : keepsSlot s (execCompressTrialEnd e s) := by
  unfold execCompressTrialEnd
  (repeat' split) <;> simp

/-! ### The commands of Machine/Timetable -/

theorem execPktRunJob_keepsSlot (f pos : Nat) (s : State) : keepsSlot s (execPktRunJob f pos s) := by simp [execPktRunJob]

theorem execPktRunBatch_keepsSlot (f pos : Nat) (s : State) : keepsSlot s (execPktRunBatch f pos s) := by simp [execPktRunBatch]

theorem execPktStepJoin_keepsSlot (f pos : Nat) (s : State) : keepsSlot s (execPktStepJoin f pos s) := by simp [execPktStepJoin]

theorem execPktStepLeave_keepsSlot (f pos : Nat) (s : State) : keepsSlot s (execPktStepLeave f pos s) := by simp [execPktStepLeave]

theorem execPktUnloadProgram_keepsSlot (f pos : Nat) (s : State) : keepsSlot s (execPktUnloadProgram f pos s) := by
  simp [execPktUnloadProgram]

theorem execClusterStart_keepsSlot (n : Nat) (s : State) : keepsSlot s (execClusterStart n s) := by simp [execClusterStart]

theorem execClusterStop_keepsSlot (n : Nat) (s : State) : keepsSlot s (execClusterStop n s) := by simp [execClusterStop]

theorem execJobEnd_keepsSlot (f pos : Nat) (s : State) : keepsSlot s (execJobEnd f pos s) := by
  unfold execJobEnd
  split <;> simp

theorem execAgeingStep_keepsSlot (s : State) : keepsSlot s (execAgeingStep s) := by simp [execAgeingStep]

theorem execBudgetExpiry_keepsSlot (f pos : Nat) (s : State) : keepsSlot s (execBudgetExpiry f pos s) := by
  unfold execBudgetExpiry
  split <;> simp

theorem execPktQuotaSet_keepsSlot (f pos : Nat) (s : State) : keepsSlot s (execPktQuotaSet f pos s) := by simp [execPktQuotaSet]

/-! ### The commands of Machine/ShaderIsa -/

theorem execPktLoadProgram_keepsSlot (f pos : Nat) (s : State) : keepsSlot s (execPktLoadProgram f pos s) := by simp [execPktLoadProgram]

/-! ### The commands of Machine/Pencil -/

theorem execPktResolvePencil_keepsSlot (f pos : Nat) (s : State) : keepsSlot s (execPktResolvePencil f pos s) := by
  simp [execPktResolvePencil]

theorem execJobStart_keepsSlot (f pos : Nat) (s : State) : keepsSlot s (execJobStart f pos s) := by
  simp only [execJobStart]
  (repeat' split) <;> simp

theorem execEarlyStart_keepsSlot (f pos st : Nat) (s : State) : keepsSlot s (execEarlyStart f pos st s) := by
  unfold execEarlyStart
  (repeat' split) <;> simp

theorem execEarlyWorkEnd_keepsSlot (f pos st : Nat) (s : State) : keepsSlot s (execEarlyWorkEnd f pos st s) := by
  unfold execEarlyWorkEnd
  (repeat' split) <;> simp

theorem execInkEnd_keepsSlot (f pos st : Nat) (s : State) : keepsSlot s (execInkEnd f pos st s) := by
  simp only [execInkEnd]
  (repeat' split) <;> simp

theorem execStageEnd_keepsSlot (f pos st : Nat) (s : State) : keepsSlot s (execStageEnd f pos st s) := by
  simp only [execStageEnd]
  (repeat' split) <;> simp

/-! ### The commands of Machine/Tensor -/

theorem execOpConv_keepsSlot (f pos st : Nat) (s : State) : keepsSlot s (execOpConv f pos st s) := by simp [execOpConv]

theorem execOpMatmul_keepsSlot (f pos st : Nat) (s : State) : keepsSlot s (execOpMatmul f pos st s) := by simp [execOpMatmul]

theorem execOpAttention_keepsSlot (f pos st : Nat) (s : State) : keepsSlot s (execOpAttention f pos st s) := by simp [execOpAttention]

theorem execOpPool_keepsSlot (f pos st : Nat) (s : State) : keepsSlot s (execOpPool f pos st s) := by simp [execOpPool]

theorem execOpEltwise_keepsSlot (f pos st : Nat) (s : State) : keepsSlot s (execOpEltwise f pos st s) := by simp [execOpEltwise]

theorem execOpReduce_keepsSlot (f pos st : Nat) (s : State) : keepsSlot s (execOpReduce f pos st s) := by simp [execOpReduce]

theorem execOpResize_keepsSlot (f pos st : Nat) (s : State) : keepsSlot s (execOpResize f pos st s) := by simp [execOpResize]

theorem execOpCropGather_keepsSlot (f pos st : Nat) (s : State) : keepsSlot s (execOpCropGather f pos st s) := by simp [execOpCropGather]

theorem execOpNms_keepsSlot (f pos st : Nat) (s : State) : keepsSlot s (execOpNms f pos st s) := by simp [execOpNms]

/-! ### The commands of Machine/Shader -/

theorem execOpShader_keepsSlot (f pos st : Nat) (s : State) : keepsSlot s (execOpShader f pos st s) := by simp [execOpShader]

theorem execTensorMessageDone_keepsSlot (n : Nat) (s : State) : keepsSlot s (execTensorMessageDone n s) := by simp [execTensorMessageDone]

/-! ### The commands of Machine/LinkRx -/

theorem execRetrain_keepsSlot (p : Nat) (s : State) : keepsSlot s (execRetrain p s) := by simp [execRetrain]

theorem execBlLinkEn_keepsSlot (p : Nat) (v : Bool) (s : State) : keepsSlot s (execBlLinkEn p v s) := by simp [execBlLinkEn]

theorem execLaneLock_keepsSlot (p lane tag : Nat) (inverted : Bool) (s : State) :
    keepsSlot s (execLaneLock p lane tag inverted s) := by simp [execLaneLock]

theorem execEqualise_keepsSlot (p : Nat) (s : State) : keepsSlot s (execEqualise p s) := by simp [execEqualise]

theorem execConfig_keepsSlot (p : Nat) (s : State) : keepsSlot s (execConfig p s) := by simp [execConfig]

theorem execConfigDone_keepsSlot (p : Nat) (tsb : List Byte) (s : State) : keepsSlot s (execConfigDone p tsb s) := by
  simp only [execConfigDone]
  (repeat' split) <;> simp

theorem execTrainingTimeout_keepsSlot (p : Nat) (s : State) : keepsSlot s (execTrainingTimeout p s) := by simp [execTrainingTimeout]

theorem execAutoRetry_keepsSlot (p : Nat) (s : State) : keepsSlot s (execAutoRetry p s) := by simp [execAutoRetry]

theorem execPayloadFlit_keepsSlot (p : Nat) (fl : List Byte) (s : State) : keepsSlot s (execPayloadFlit p fl s) := by simp [execPayloadFlit]

theorem execNak_keepsSlot (p : Nat) (fl : List Byte) (s : State) : keepsSlot s (execNak p fl s) := by simp [execNak]

theorem execReplayTimeout_keepsSlot (p : Nat) (s : State) : keepsSlot s (execReplayTimeout p s) := by simp [execReplayTimeout]

theorem execReplayWindow_keepsSlot (p : Nat) (s : State) : keepsSlot s (execReplayWindow p s) := by simp [execReplayWindow]

theorem execLinkSilenceTimeout_keepsSlot (p : Nat) (s : State) : keepsSlot s (execLinkSilenceTimeout p s) := by
  simp [execLinkSilenceTimeout]

theorem execMsgRdReq_keepsSlot (p : Nat) (s : State) : keepsSlot s (execMsgRdReq p s) := by simp [execMsgRdReq]

theorem execMsgWrReq_keepsSlot (p : Nat) (s : State) : keepsSlot s (execMsgWrReq p s) :=
  recv_otpSlot s p 2 _ _ (fun _ _ => wedgedWait_otpSlot) (fun s m => by simp)

theorem execMsgAtReq_keepsSlot (p : Nat) (s : State) : keepsSlot s (execMsgAtReq p s) :=
  recv_otpSlot s p 3 _ _ (fun _ _ => wedgedWait_otpSlot) (fun s m => by simp)

theorem execMsgRdRsp_keepsSlot (p : Nat) (s : State) : keepsSlot s (execMsgRdRsp p s) := by simp [execMsgRdRsp]

theorem execMsgWrAck_keepsSlot (p : Nat) (s : State) : keepsSlot s (execMsgWrAck p s) := by simp [execMsgWrAck]

theorem execMsgAtRsp_keepsSlot (p : Nat) (s : State) : keepsSlot s (execMsgAtRsp p s) := by simp [execMsgAtRsp]

theorem execMsgFenceWr_keepsSlot (p : Nat) (s : State) : keepsSlot s (execMsgFenceWr p s) :=
  recv_otpSlot s p 0x10 _ _ (fun m _ => waitsOn_otpSlot (fenceWrWrite_leaves s m)) (fun s m => by simp)

theorem execMsgFenceWatch_keepsSlot (p : Nat) (s : State) : keepsSlot s (execMsgFenceWatch p s) := by simp [execMsgFenceWatch]

theorem execMsgFenceUnwatch_keepsSlot (p : Nat) (s : State) : keepsSlot s (execMsgFenceUnwatch p s) := by simp [execMsgFenceUnwatch]

theorem execMsgMsg_keepsSlot (p : Nat) (s : State) : keepsSlot s (execMsgMsg p s) :=
  recv_otpSlot s p 0x13 _ _ (fun m _ => waitsOn_otpSlot (msgWrite_leaves s m)) (fun s m => by simp)

theorem execMsgFenceAck_keepsSlot (p : Nat) (s : State) : keepsSlot s (execMsgFenceAck p s) := by simp [execMsgFenceAck]

theorem execMsgFenceNotify_keepsSlot (p : Nat) (s : State) : keepsSlot s (execMsgFenceNotify p s) := by simp [execMsgFenceNotify]

theorem execMsgMsgAck_keepsSlot (p : Nat) (s : State) : keepsSlot s (execMsgMsgAck p s) := by simp [execMsgMsgAck]

theorem execMsgStreamAck_keepsSlot (p : Nat) (s : State) : keepsSlot s (execMsgStreamAck p s) := by simp [execMsgStreamAck]

theorem execMsgRouteState_keepsSlot (p : Nat) (s : State) : keepsSlot s (execMsgRouteState p s) := by simp [execMsgRouteState]

theorem execRouteStateTimer_keepsSlot (s : State) : keepsSlot s (execRouteStateTimer s) := by simp [execRouteStateTimer]

theorem execFenceWatchRetry_keepsSlot (f pos : Nat) (s : State) : keepsSlot s (execFenceWatchRetry f pos s) := by
  unfold execFenceWatchRetry
  split <;> simp

theorem execRcAsk_keepsSlot (p : Nat) (s : State) : keepsSlot s (execRcAsk p s) := by simp [execRcAsk]

theorem execRcPropose_keepsSlot (p : Nat) (s : State) : keepsSlot s (execRcPropose p s) := by simp [execRcPropose]

theorem execRcAccept_keepsSlot (p : Nat) (s : State) : keepsSlot s (execRcAccept p s) := by simp [execRcAccept]

theorem execRcDecline_keepsSlot (p : Nat) (s : State) : keepsSlot s (execRcDecline p s) := by simp [execRcDecline]

theorem execRcWithdraw_keepsSlot (p : Nat) (s : State) : keepsSlot s (execRcWithdraw p s) := by simp [execRcWithdraw]

theorem execRcVerdict_keepsSlot (p : Nat) (s : State) : keepsSlot s (execRcVerdict p s) := by simp [execRcVerdict]

theorem execRcWake_keepsSlot (p : Nat) (s : State) : keepsSlot s (execRcWake p s) := by simp [execRcWake]

/-! ### The commands of Machine/Caretaker -/

theorem execLogbookAppend_keepsSlot (s : State) : keepsSlot s (execLogbookAppend s) := by simp [execLogbookAppend]

theorem execKaLogDataRead_keepsSlot (s : State) : keepsSlot s (execKaLogDataRead s) := by simp [execKaLogDataRead]

theorem execCellMeasure_keepsSlot (cellMv primMv : Nat) (s : State) : keepsSlot s (execCellMeasure cellMv primMv s) := by
  simp [execCellMeasure]

theorem execCellProtect_keepsSlot (kind : Nat) (acts : Bool) (cellMv : Nat) (s : State) :
    keepsSlot s (execCellProtect kind acts cellMv s) := by
  unfold execCellProtect
  (repeat' split) <;> simp

theorem execOcClearTimer_keepsSlot (s : State) : keepsSlot s (execOcClearTimer s) := by simp [execOcClearTimer]

theorem execOcLatch_keepsSlot (s : State) : keepsSlot s (execOcLatch s) := by simp [execOcLatch]

theorem execCellFull_keepsSlot (s : State) : keepsSlot s (execCellFull s) := by simp [execCellFull]

theorem execSamplePeriod_keepsSlot (vocMv : Nat) (t16 : Int) (ntcAbsent : Bool) (s : State) :
    keepsSlot s (execSamplePeriod vocMv t16 ntcAbsent s) := by simp [execSamplePeriod]

theorem execSourceChange_keepsSlot (src cellMv primMv : Nat) (s : State) :
    keepsSlot s (execSourceChange src cellMv primMv s) := by simp [execSourceChange]

theorem execColdStart_keepsSlot (src vkaMv : Nat) (s : State) : keepsSlot s (execColdStart src vkaMv s) := by simp [execColdStart]

theorem execVkaCollapse_keepsSlot (s : State) : keepsSlot s (execVkaCollapse s) := by simp [execVkaCollapse]

theorem execCaseSample_keepsSlot (in0 in1 : Bool) (s : State) : keepsSlot s (execCaseSample in0 in1 s) := by simp [execCaseSample]

theorem execWakePin_keepsSlot (s : State) : keepsSlot s (execWakePin s) := by simp [execWakePin]

theorem execXtalFail_keepsSlot (s : State) : keepsSlot s (execXtalFail s) := by simp [execXtalFail]

theorem execXtalRestore_keepsSlot (s : State) : keepsSlot s (execXtalRestore s) := by simp [execXtalRestore]

/-! ### The commands of Machine/Rail -/

theorem execSoftStartDone_keepsSlot (s : State) : keepsSlot s (execSoftStartDone s) := by simp [execSoftStartDone]

theorem execPhaseAdd_keepsSlot (s : State) : keepsSlot s (execPhaseAdd s) := by
  unfold execPhaseAdd
  (repeat' split) <;> simp

theorem execPhaseShed_keepsSlot (s : State) : keepsSlot s (execPhaseShed s) := by simp [execPhaseShed]

theorem execRailAck_keepsSlot (s : State) : keepsSlot s (execRailAck s) := by simp [execRailAck]

theorem execPhaseOpen_keepsSlot (phase : Nat) (s : State) : keepsSlot s (execPhaseOpen phase s) := by simp [execPhaseOpen]

theorem execSenseFail_keepsSlot (phase iN iExp : Nat) (s : State) : keepsSlot s (execSenseFail phase iN iExp s) := by simp [execSenseFail]

theorem execPhaseRetry_keepsSlot (v : W32) (pass : Nat) (s : State) : keepsSlot s (execPhaseRetry v pass s) := by simp [execPhaseRetry]

theorem execTmonWarn_keepsSlot (above : Bool) (s : State) : keepsSlot s (execTmonWarn above s) := by simp [execTmonWarn]

theorem execDroop_keepsSlot (island : Nat) (s : State) : keepsSlot s (execDroop island s) := by simp [execDroop]

theorem execDroopRecovery_keepsSlot (island : Nat) (s : State) : keepsSlot s (execDroopRecovery island s) := by simp [execDroopRecovery]

theorem execDroopFault_keepsSlot (island : Nat) (s : State) : keepsSlot s (execDroopFault island s) := by simp [execDroopFault]

theorem execTelemetryUpdate_keepsSlot (mv : Nat) (isen : List Nat) (tmon16 : Int) (s : State) :
    keepsSlot s (execTelemetryUpdate mv isen tmon16 s) := by
  simp only [execTelemetryUpdate, keepsSlot_next]
  split
  · rfl
  · simp only [bumpBy_boot, modRail_boot, sf_boot]
    rw [boot_foldl _ (fun s n => sf_boot s _ _ _), sf_boot]

theorem execControlStep_keepsSlot (tCl tFab tCtl : Int) (clIdx : Nat) (s : State) :
    keepsSlot s (execControlStep tCl tFab tCtl clIdx s) := by simp -implicitDefEqProofs [execControlStep]

theorem execThermalTrip_keepsSlot (sensor : Nat) (t16 : Int) (s : State) : keepsSlot s (execThermalTrip sensor t16 s) := by
  simp [execThermalTrip]

/-! ### The commands of Machine/Mgmt -/

theorem execMgmtQuickCommand_keepsSlot (_t : MgmtXact) (s : State) : keepsSlot s (execMgmtQuickCommand _t s) := by
  simp [execMgmtQuickCommand]

theorem execMgmtSendByte_keepsSlot (t : MgmtXact) (s : State) : keepsSlot s (execMgmtSendByte t s) := by
  unfold execMgmtSendByte
  (repeat' split) <;> simp

theorem execMgmtReceiveByte_keepsSlot (t : MgmtXact) (s : State) : keepsSlot s (execMgmtReceiveByte t s) := by simp [execMgmtReceiveByte]

theorem execMgmtLastReported_keepsSlot (t : MgmtXact) (attention : Bool) (s : State) :
    keepsSlot s (execMgmtLastReported t attention s) := by simp [execMgmtLastReported]

/-- A code that is read and written. -/
theorem mgmtRow_otpSlot (s : State) (t : MgmtXact) (r w : State) (hr : r.boot.otpSlot = s.boot.otpSlot)
    (hw : w.boot.otpSlot = s.boot.otpSlot) : (if !answers s then s else if t.read then r else w).boot.otpSlot = s.boot.otpSlot := by
  simp [hr, hw]

theorem execMgmtAttentionEn_keepsSlot (t : MgmtXact) (s : State) : keepsSlot s (execMgmtAttentionEn t s) :=
  mgmtRow_otpSlot s t _ _ (mgmtRead_otpSlot s t _ _ id rfl) (mgmtWrite_otpSlot s t _ _ _ _ _ _ (fun _ => rfl))

theorem execMgmtIdentity_keepsSlot (t : MgmtXact) (s : State) : keepsSlot s (execMgmtIdentity t s) := by simp [execMgmtIdentity]

theorem execMgmtState_keepsSlot (t : MgmtXact) (s : State) : keepsSlot s (execMgmtState t s) := by simp [execMgmtState]

theorem execMgmtThermal_keepsSlot (t : MgmtXact) (s : State) : keepsSlot s (execMgmtThermal t s) := by simp [execMgmtThermal]

theorem execMgmtRail_keepsSlot (t : MgmtXact) (s : State) : keepsSlot s (execMgmtRail t s) := by simp [execMgmtRail]

theorem execMgmtLinks_keepsSlot (t : MgmtXact) (s : State) : keepsSlot s (execMgmtLinks t s) := by simp [execMgmtLinks]

theorem execMgmtTime_keepsSlot (t : MgmtXact) (s : State) : keepsSlot s (execMgmtTime t s) := by simp [execMgmtTime]

theorem execMgmtKeepalive_keepsSlot (t : MgmtXact) (s : State) : keepsSlot s (execMgmtKeepalive t s) := by simp [execMgmtKeepalive]

theorem execMgmtLogCount_keepsSlot (t : MgmtXact) (s : State) : keepsSlot s (execMgmtLogCount t s) := by simp [execMgmtLogCount]

theorem execMgmtLogSelect_keepsSlot (t : MgmtXact) (s : State) : keepsSlot s (execMgmtLogSelect t s) :=
  mgmtRow_otpSlot s t _ _ (mgmtRead_otpSlot s t _ _ id rfl) (mgmtWrite_otpSlot s t _ _ _ _ _ _ (fun _ => rfl))

theorem execMgmtLogRead_keepsSlot (t : MgmtXact) (s : State) : keepsSlot s (execMgmtLogRead t s) :=
  mgmtReadOnly_otpSlot s t _ _ (mgmtBlock_otpSlot s t _ _ _ rfl)

theorem execMgmtLogNote_keepsSlot (t : MgmtXact) (s : State) : keepsSlot s (execMgmtLogNote t s) :=
  mgmtRow_otpSlot s t _ _ (mgmtRead_otpSlot s t _ _ _ rfl) (mgmtWrite_otpSlot s t _ _ _ _ _ _ (fun _ => rfl))

theorem execMgmtRegAddr_keepsSlot (t : MgmtXact) (s : State) : keepsSlot s (execMgmtRegAddr t s) :=
  mgmtRow_otpSlot s t _ _ (mgmtBlock_otpSlot s t _ _ id rfl) (mgmtWrite_otpSlot s t _ _ _ _ _ _ (fun _ => rfl))

theorem execControllerStart_keepsSlot (v : W32) (s : State) : keepsSlot s (execControllerStart v s) := by simp [execControllerStart]

theorem execArbitrationLoss_keepsSlot (kind : Nat) (s : State) : keepsSlot s (execArbitrationLoss kind s) := by
  unfold execArbitrationLoss
  split <;> simp

theorem execControllerRetry_keepsSlot (s : State) : keepsSlot s (execControllerRetry s) := by
  unfold execControllerRetry
  split <;> simp

theorem execControllerDone_keepsSlot (status : Nat) (rdata : List Byte) (pecBad : Bool) (s : State) :
    keepsSlot s (execControllerDone status rdata pecBad s) := by
  unfold execControllerDone
  (repeat' split) <;> simp

theorem execSclTimeout_keepsSlot (s : State) : keepsSlot s (execSclTimeout s) := by
  unfold execSclTimeout
  (repeat' split) <;> simp

theorem execAddressMatch_keepsSlot (_read : Bool) (s : State) : keepsSlot s (execAddressMatch _read s) := by simp [execAddressMatch]

theorem execHandRaiseDue_keepsSlot (s : State) : keepsSlot s (execHandRaiseDue s) := by simp [execHandRaiseDue]

theorem execHandRaise_keepsSlot (s : State) : keepsSlot s (execHandRaise s) := by simp [execHandRaise]

theorem execHandRaiseCollision_keepsSlot (s : State) : keepsSlot s (execHandRaiseCollision s) := by simp [execHandRaiseCollision]

theorem execHandRaiseSeen_keepsSlot (s : State) : keepsSlot s (execHandRaiseSeen s) := by simp [execHandRaiseSeen]

theorem execSetHostAttention_keepsSlot (v : W32) (s : State) : keepsSlot s (execSetHostAttention v s) := by simp [execSetHostAttention]

/-! ### The commands of Machine/Renderer -/

theorem execDrawRect_keepsSlot (s : State) : keepsSlot s (execDrawRect s) := by simp [execDrawRect]

theorem execDrawBox_keepsSlot (s : State) : keepsSlot s (execDrawBox s) := by simp [execDrawBox]

theorem execDrawPoint_keepsSlot (s : State) : keepsSlot s (execDrawPoint s) := by simp [execDrawPoint]

theorem execDrawLine_keepsSlot (s : State) : keepsSlot s (execDrawLine s) := by simp [execDrawLine]

theorem execDrawTriangle_keepsSlot (s : State) : keepsSlot s (execDrawTriangle s) := by simp [execDrawTriangle]

theorem execDrawGlyph_keepsSlot (s : State) : keepsSlot s (execDrawGlyph s) := by simp [execDrawGlyph]

theorem execDrawSetClip_keepsSlot (s : State) : keepsSlot s (execDrawSetClip s) := by simp [execDrawSetClip]

theorem execDrawSetAtlas_keepsSlot (s : State) : keepsSlot s (execDrawSetAtlas s) := by simp [execDrawSetAtlas]

theorem execDrawClear_keepsSlot (s : State) : keepsSlot s (execDrawClear s) := by simp [execDrawClear]

theorem execDrawNop_keepsSlot (s : State) : keepsSlot s (execDrawNop s) := by simp [execDrawNop]

theorem execDrawEnd_keepsSlot (s : State) : keepsSlot s (execDrawEnd s) := by simp [execDrawEnd]

theorem execPktDrawList_keepsSlot (f pos : Nat) (s : State) : keepsSlot s (execPktDrawList f pos s) := by simp [execPktDrawList]

/-! ### The commands of Machine/Display -/

theorem execLatch_keepsSlot (s : State) : keepsSlot s (execLatch s) := by simp [execLatch]

theorem execPktDisplayConfig_keepsSlot (f pos : Nat) (s : State) : keepsSlot s (execPktDisplayConfig f pos s) := by
  simp [execPktDisplayConfig]

theorem execPktLayerFlip_keepsSlot (f pos : Nat) (s : State) : keepsSlot s (execPktLayerFlip f pos s) := by simp [execPktLayerFlip]

theorem execFrameStart_keepsSlot (s : State) : keepsSlot s (execFrameStart s) := by
  unfold execFrameStart
  (repeat' split) <;> simp

theorem execFrameEnd_keepsSlot (underruns : List (Nat × Nat)) (s : State) : keepsSlot s (execFrameEnd underruns s) := by
  simp only [execFrameEnd]
  (repeat' split) <;> simp

theorem execHpdUnplug_keepsSlot (s : State) : keepsSlot s (execHpdUnplug s) := by simp [execHpdUnplug]

theorem execHpdIrq_keepsSlot (linkOk : Bool) (s : State) : keepsSlot s (execHpdIrq linkOk s) := by simp [execHpdIrq]

theorem execHpdPlug_keepsSlot (lanes rate : Nat) (s : State) : keepsSlot s (execHpdPlug lanes rate s) := by simp [execHpdPlug]

theorem execDpTrainingDone_keepsSlot (ok : Bool) (s : State) : keepsSlot s (execDpTrainingDone ok s) := by
  unfold execDpTrainingDone
  split <;> simp

theorem execAuxStart_keepsSlot (v : W32) (s : State) : keepsSlot s (execAuxStart v s) := by simp [execAuxStart]

theorem execAuxDone_keepsSlot (reply : Nat) (data : List Byte) (s : State) : keepsSlot s (execAuxDone reply data s) := by
  unfold execAuxDone
  split <;> simp

/-! ### The commands of Machine/Inval -/

theorem execInvalidate_keepsSlot (s : State) : keepsSlot s (execInvalidate s) := by simp [execInvalidate]

theorem execInvalidationComplete_keepsSlot (s : State) : keepsSlot s (execInvalidationComplete s) := by
  unfold execInvalidationComplete
  split <;> simp

theorem execAtsInvalidateRequest_keepsSlot (f addr log2 tag : Nat) (s : State) :
    keepsSlot s (execAtsInvalidateRequest f addr log2 tag s) := by simp [execAtsInvalidateRequest]

theorem execAtsInvalidateCompletion_keepsSlot (tag : Nat) (s : State) : keepsSlot s (execAtsInvalidateCompletion tag s) := by
  unfold execAtsInvalidateCompletion
  split <;> simp

theorem execAtsTranslationCompletion_keepsSlot (f addr : Nat) (ok : Bool) (log2 target : Nat) (r w : Bool) (s : State) :
    keepsSlot s (execAtsTranslationCompletion f addr ok log2 target r w s) := by simp [execAtsTranslationCompletion]

theorem execTranslationRequestTimeout_keepsSlot (f addr : Nat) (s : State) : keepsSlot s (execTranslationRequestTimeout f addr s) := by
  simp [execTranslationRequestTimeout]

theorem execPrgResponse_keepsSlot (index code : Nat) (s : State) : keepsSlot s (execPrgResponse index code s) := by
  unfold execPrgResponse
  split <;> simp

theorem execPriTimeout_keepsSlot (index : Nat) (s : State) : keepsSlot s (execPriTimeout index s) := by
  unfold execPriTimeout
  split <;> simp

theorem execScCarve_keepsSlot (v : W32) (s : State) : keepsSlot s (execScCarve v s) := by simp [execScCarve]

theorem execCarveTransitionDone_keepsSlot (s : State) : keepsSlot s (execCarveTransitionDone s) := by
  unfold execCarveTransitionDone
  split <;> simp

theorem execCacheEccError_keepsSlot (slice set : Nat) (e : WayError) (s : State) : keepsSlot s (execCacheEccError slice set e s) := by
  simp only [execCacheEccError, keepsSlot_next]
  split
  · simp
  split
  · simp
  · split
    · rfl
    · split <;> simp

theorem execMemoryEccError_keepsSlot (addr : Nat) (error : MemoryError) (s : State) : keepsSlot s (execMemoryEccError addr error s) := by
  simp only [execMemoryEccError]
  (repeat' split) <;> simp

/-! ### The commands of Machine/Power -/

theorem execPktPowerRequest_keepsSlot (f pos : Nat) (s : State) : keepsSlot s (execPktPowerRequest f pos s) := by simp [execPktPowerRequest]

theorem execRollCallTimeout_keepsSlot (s : State) : keepsSlot s (execRollCallTimeout s) := by
  unfold execRollCallTimeout
  (repeat' split) <;> simp

theorem execVerdictTimeout_keepsSlot (s : State) : keepsSlot s (execVerdictTimeout s) := by
  unfold execVerdictTimeout
  split <;> simp

theorem execAskTimeout_keepsSlot (s : State) : keepsSlot s (execAskTimeout s) := by
  unfold execAskTimeout
  (repeat' split) <;> simp

theorem execWakeSource_keepsSlot (src : Nat) (s : State) : keepsSlot s (execWakeSource src s) := by simp [execWakeSource]

theorem execLinkActivity_keepsSlot (p : Nat) (s : State) : keepsSlot s (execLinkActivity p s) := by simp [execLinkActivity]

theorem execSleepEntryDone_keepsSlot (s : State) : keepsSlot s (execSleepEntryDone s) := by
  unfold execSleepEntryDone
  split <;> simp

/-! ### The commands of Machine/Startup -/

theorem execSuppliesValid_keepsSlot (podId : Nat) (ecc : Bool) (capGiB : Nat) (perst : Bool) (s : State) :
    keepsSlot s (execSuppliesValid podId ecc capGiB perst s) := by simp [execSuppliesValid]

theorem execPerstAssert_keepsSlot (hotReset : Bool) (s : State) : keepsSlot s (execPerstAssert hotReset s) := by simp [execPerstAssert]

theorem execConfigSpaceReady_keepsSlot (speed width : Nat) (s : State) : keepsSlot s (execConfigSpaceReady speed width s) := by
  simp [execConfigSpaceReady]

theorem execFlashRead_keepsSlot (sfdp quad : Bool) (image : List Byte) (s : State) :
    keepsSlot s (execFlashRead sfdp quad image s) := by simp [execFlashRead]

theorem execImageCheckDone_keepsSlot (otpError : Bool) (s : State) : keepsSlot s (execImageCheckDone otpError s) := by
  simp [execImageCheckDone]

theorem execPktConfigApply_keepsSlot (f pos : Nat) (s : State) : keepsSlot s (execPktConfigApply f pos s) := by simp [execPktConfigApply]

theorem execMemoryTrained_keepsSlot (s : State) : keepsSlot s (execMemoryTrained s) := by simp [execMemoryTrained]

theorem execNoticeboardRefresh_keepsSlot (s : State) : keepsSlot s (execNoticeboardRefresh s) := by simp [execNoticeboardRefresh]

theorem execNoticeboardStart_keepsSlot (lanes rate : Nat) (trainOk : Bool) (s : State) :
    keepsSlot s (execNoticeboardStart lanes rate trainOk s) := by simp [execNoticeboardStart]

theorem execStageEn_keepsSlot (v : Bool) (s : State) : keepsSlot s (execStageEn v s) := by simp [execStageEn]

theorem execBar2Access_keepsSlot (off len : Nat) (write : Option (List (Option Byte))) (s : State) :
    keepsSlot s (execBar2Access off len write s) := by simp [execBar2Access]

/-! ### The commands of Machine/Islands -/

theorem execFabricTimeout_keepsSlot (silent sender : Nat) (s : State) : keepsSlot s (execFabricTimeout silent sender s) := by
  simp [execFabricTimeout]

theorem execWedged_keepsSlot (s : State) : keepsSlot s (execWedged s) := by
  unfold execWedged
  split <;> simp

theorem execTraceEnable_keepsSlot (v : W32) (s : State) : keepsSlot s (execTraceEnable v s) := by simp [execTraceEnable]

theorem execJtagBypass_keepsSlot (s : State) : keepsSlot s (execJtagBypass s) := by simp [execJtagBypass]

theorem execJtagSamplePreload_keepsSlot (pins : Nat) (s : State) : keepsSlot s (execJtagSamplePreload pins s) := by
  simp [execJtagSamplePreload]

theorem execJtagExtest_keepsSlot (leave : Bool) (s : State) : keepsSlot s (execJtagExtest leave s) := by simp [execJtagExtest]

theorem execJtagClamp_keepsSlot (s : State) : keepsSlot s (execJtagClamp s) := by simp [execJtagClamp]

theorem execJtagHighz_keepsSlot (s : State) : keepsSlot s (execJtagHighz s) := by simp [execJtagHighz]

/-! ### The commands of Machine/Query -/

theorem execPacketDispatch_keepsSlot (f pos : Nat) (s : State) : keepsSlot s (execPacketDispatch f pos s) := by simp [execPacketDispatch]

/-! ### The commands of Machine/RegWrite -/

theorem execLatchingRead_keepsSlot (f off len : Nat) (s : State) : keepsSlot s (execLatchingRead f off len s) := by simp [execLatchingRead]

/-! ### The commands of Machine/ImageApply -/

theorem execImgNoticeboardItem_keepsSlot (s : State) : keepsSlot s (execImgNoticeboardItem s) := by simp [execImgNoticeboardItem]

theorem execImgNoticeboardText_keepsSlot (s : State) : keepsSlot s (execImgNoticeboardText s) := by simp [execImgNoticeboardText]

theorem execImgEnd_keepsSlot (s : State) : keepsSlot s (execImgEnd s) := by simp [execImgEnd]

/-! ### The commands of Machine/Recover -/

theorem execFunctionLevelReset_keepsSlot (f : Nat) (s : State) : keepsSlot s (execFunctionLevelReset f s) := by
  simp [execFunctionLevelReset]

theorem execPfFunctionLevelReset_keepsSlot (s : State) : keepsSlot s (execPfFunctionLevelReset s) := by simp [execPfFunctionLevelReset]

theorem execConfigurationWrite_keepsSlot (f field value : Nat) (s : State) :
    keepsSlot s (execConfigurationWrite f field value s) := by simp [execConfigurationWrite]

theorem execDiscardDone_keepsSlot (f : Nat) (s : State) : keepsSlot s (execDiscardDone f s) := by
  simp only [execDiscardDone, keepsSlot_next, goOn_otpSlot]
  split
  · rfl
  · split
    · simp
    · split
      · simp
      · split <;> simp

/-! ### The functions that may write the slot, once its fuse is blown -/

theorem slotLocked_iff (s : State) : slotLocked s ↔ s.boot.otpSlot.2 = (true, false) := by
  show _ ↔ (s.boot.otpLocked, s.boot.otpBusy) = (true, false)
  rw [Prod.mk.injEq]
  rfl

theorem slotLocked_congr {s t : State} (h : t.boot.otpSlot = s.boot.otpSlot) (hs : slotLocked s) : slotLocked t := by
  rw [slotLocked_iff] at *
  rwa [h]

/-- A fold keeps a locked slot where each of its steps does. -/
theorem otpSlot_foldl_of_locked {α : Type} (g : State → α → State)
    (hg : ∀ s a, slotLocked s → (g s a).boot.otpSlot = s.boot.otpSlot) (l : List α) (s : State) (hs : slotLocked s) :
    (l.foldl g s).boot.otpSlot = s.boot.otpSlot := by
  induction l generalizing s with
  | nil => rfl
  | cons a l ih =>
    have h := hg s a hs
    exact (ih _ (slotLocked_congr h hs)).trans h

/-- A further start is refused (R68). -/
theorem otpProgramIn_otpSlot (v : W32) (s : State) (hs : slotLocked s) : (otpProgramIn v s).boot.otpSlot = s.boot.otpSlot := by
  obtain ⟨hl, -⟩ := hs
  simp [otpProgramIn, hl]

/-- Lost supplies interrupt no programming, as none is under way (R69). -/
theorem otpInterrupted_of_locked {s : State} (hs : slotLocked s) : otpInterrupted s = s := by
  obtain ⟨-, hb⟩ := hs
  simp [otpInterrupted, hb]

theorem writeCP_otpSlot (who : Writer) (k : Nat) (v : W32) (s : State) (hs : slotLocked s) :
    (writeCP who k v s).boot.otpSlot = s.boot.otpSlot := by
  simp [writeCP, otpProgramIn_otpSlot v s hs]

theorem regWrite_otpSlot (who : Writer) (k : Nat) (v : W32) (s : State) (hs : slotLocked s) :
    (regWrite who k v s).boot.otpSlot = s.boot.otpSlot := by
  unfold regWrite
  split
  · simp
  · split
    · exact writeCP_otpSlot who k v s hs
    all_goals simp

theorem hostWriteWord_otpSlot (f k : Nat) (v : W32) (s : State) (hs : slotLocked s) :
    (hostWriteWord f k v s).boot.otpSlot = s.boot.otpSlot := gate_otpSlot k _ s (regWrite_otpSlot _ k v s hs)

theorem registerWriteIn_otpSlot (f off len : Nat) (allBytes : Bool) (data : Nat) (s : State) (hs : slotLocked s) :
    (registerWriteIn f off len allBytes data s).boot.otpSlot = s.boot.otpSlot := by
  unfold registerWriteIn
  split
  · rfl
  · have h := hostWriteWord_otpSlot f (barKey f off) (BitVec.ofNat 32 data) s hs
    dsimp only
    split
    · exact (hostWriteWord_otpSlot _ _ _ _ (slotLocked_congr h hs)).trans h
    · exact h

theorem regDataWrite_otpSlot (s : State) (d : List Byte) (hs : slotLocked s) : (regDataWrite s d).boot.otpSlot = s.boot.otpSlot := by
  unfold regDataWrite
  dsimp only
  split
  · simp
  · exact gate_otpSlot _ _ s (regWrite_otpSlot _ _ _ s hs)

theorem imgPut_otpSlot (k v : Nat) (s : State) (hs : slotLocked s) : (imgPut k v s).boot.otpSlot = s.boot.otpSlot := by
  rw [imgPut, regWrite_otpSlot _ k _ s hs]

theorem hostEffect_otpSlot (i : Instr) (s : State) (hs : slotLocked s) : (hostEffect i s).boot.otpSlot = s.boot.otpSlot := by
  cases i with
  | registerWrite f off len allBytes data => exact registerWriteIn_otpSlot f off len allBytes data s hs
  | otpProgram v => exact gate_otpSlot _ _ s (otpProgramIn_otpSlot v s hs)
  | latchingRead f off len => exact congrArg _ (registerReadIn_boot f off len s)
  | ringEn f v => exact congrArg _ (ringEnIn_boot f v s)
  | stop f v => exact congrArg _ (stopIn_boot f v s)
  | ringReset f => exact congrArg _ (ringResetIn_boot f s)
  | doorbell f t => exact congrArg _ (doorbellIn_boot f t s)
  | hiReplyHead f h => exact hiReplyHeadIn_otpSlot f h s
  | msixUnmask f vec => exact congrArg _ (msixUnmaskIn_boot f vec s)
  | invalidate => exact gate_otpSlot _ _ s (by simp)
  | scCarve v => exact gate_otpSlot _ _ s (by simp)
  | retrain p => exact gate_otpSlot _ _ s (by simp)
  | blLinkEn p v => exact gate_otpSlot _ _ s (by simp)
  | controllerStart v => exact gate_otpSlot _ _ s (by simp)
  | setHostAttention v => exact gate_otpSlot _ _ s (by simp)
  | phaseRetry v pass => exact gate_otpSlot _ _ s (by simp)
  | ocLatch => exact gate_otpSlot _ _ s (by simp)
  | kaLogDataRead => exact congrArg _ (kaLogDataReadIn_boot s)
  | auxStart v => exact gate_otpSlot _ _ s (by simp)
  | stageEn v => exact gate_otpSlot _ _ s (by simp)
  | bar2Access off len write => exact (raiseMet_otpSlot _).trans (bar2In_otpSlot off len write s)
  | traceEnable v => exact gate_otpSlot _ _ s (by simp)
  | _ => rfl

theorem serveHeld_otpSlot (s : State) (hs : slotLocked s) : (serveHeld s).boot.otpSlot = s.boot.otpSlot :=
  otpSlot_foldl_of_locked _ (fun s i => hostEffect_otpSlot i s) _ _ hs

theorem deliver_otpSlot (s : State) (hs : slotLocked s) : (deliver s).boot.otpSlot = s.boot.otpSlot :=
  otpSlot_foldl_of_locked _ (fun s i => hostEffect_otpSlot i s) _ _ hs

theorem exitSucceeds_otpSlot (old s : State) (left src : Nat) (latched forced : Bool) (hs : slotLocked s) :
    (exitSucceeds old s left src latched forced).boot.otpSlot = s.boot.otpSlot := by
  have hb : (backInRun (powerBack old s left forced) left src latched).boot.otpSlot = s.boot.otpSlot := by simp
  have hh := serveHeld_otpSlot _ (slotLocked_congr hb hs)
  rw [exitSucceeds, requestsResume_boot, deliver_otpSlot _ (slotLocked_congr (hh.trans hb) hs), hh, hb]

/-! ### The commands that may write it -/

theorem execRegisterWrite_keepsSlot (f off len : Nat) (allBytes : Bool) (data : Nat) (s : State) (hs : slotLocked s) :
    keepsSlot s (execRegisterWrite f off len allBytes data s) :=
  tlp_otpSlot s _ _ (fun u hu => registerWriteIn_otpSlot f off len allBytes data u (slotLocked_congr (congrArg _ hu) hs))

theorem execOtpProgram_keepsSlot (v : W32) (s : State) (hs : slotLocked s) : keepsSlot s (execOtpProgram v s) :=
  tlp_otpSlot s _ _ (fun u hu => gate_otpSlot _ _ u (otpProgramIn_otpSlot v u (slotLocked_congr (congrArg _ hu) hs)))

theorem execOtpProgramDone_keepsSlot (ok : Bool) (s : State) (hs : slotLocked s) : keepsSlot s (execOtpProgramDone ok s) := by
  obtain ⟨-, hb⟩ := hs
  simp [execOtpProgramDone, hb]

theorem execSuppliesLost_keepsSlot (s : State) (hs : slotLocked s) : keepsSlot s (execSuppliesLost s) := by
  simp [execSuppliesLost, otpInterrupted_of_locked hs]

theorem execMgmtRegData_keepsSlot (t : MgmtXact) (s : State) (hs : slotLocked s) : keepsSlot s (execMgmtRegData t s) := by
  refine mgmtRow_otpSlot s t _ _ ?_ ?_
  · exact (mgmtBlock_otpSlot _ t _ _ _ rfl).trans (by simp)
  · exact mgmtWrite_otpSlot s t _ _ _ _ _ _ (fun d => regDataWrite_otpSlot s d hs)

theorem execImgWrite_keepsSlot (s : State) (hs : slotLocked s) : keepsSlot s (execImgWrite s) :=
  takeRec_otpSlot _ _ s (imgPut_otpSlot _ _ s hs)

theorem execImgWriteMasked_keepsSlot (s : State) (hs : slotLocked s) : keepsSlot s (execImgWriteMasked s) :=
  takeRec_otpSlot _ _ s (imgPut_otpSlot _ _ s hs)

theorem execImgWriteSeq_keepsSlot (s : State) (hs : slotLocked s) : keepsSlot s (execImgWriteSeq s) :=
  takeRec_otpSlot _ _ s (otpSlot_foldl_of_locked _ (fun s (e : Nat × Nat) => imgPut_otpSlot e.1 e.2 s) _ s hs)

theorem execIslandStartOnEntry_keepsSlot (island : Nat) (s : State) (hs : slotLocked s) :
    keepsSlot s (execIslandStartOnEntry island s) := by
  have hi : (setIsland s island .running).boot.otpSlot = s.boot.otpSlot := by simp
  simp [execIslandStartOnEntry, deliver_otpSlot _ (slotLocked_congr hi hs)]

theorem execIslandRestart_keepsSlot (s : State) (hs : slotLocked s) : keepsSlot s (execIslandRestart s) := by
  unfold execIslandRestart
  simp only [keepsSlot_next]
  split
  · rfl
  · exact deliver_otpSlot _ hs

theorem execExitDone_keepsSlot (stillLost : Nat) (tHot16 : Int) (sensor : Nat) (s : State) (hs : slotLocked s) :
    keepsSlot s (execExitDone stillLost tHot16 sensor s) := by
  have hr : (retest s stillLost tHot16 sensor).boot.otpSlot = s.boot.otpSlot := by simp
  unfold execExitDone
  simp only [keepsSlot_next]
  split
  · split
    · simp
    · split
      · simp
      · rw [exitSucceeds_otpSlot _ _ _ _ _ _ (slotLocked_congr hr hs), hr]
  · rfl

/-! ### What the shader instructions do to the OTP slot -/

/-- Forgetting the translations of an access at its end leaves the slot as the access did. -/
theorem forgetting_leaves {q : List Byte × Bool × Bool} (e : Eff) (who fn : Nat) (rs : List Range) : e.leaves q →
    (match e with
      | .go w t => .go w (forgetRemote t who fn rs)
      | e => e : Eff).leaves q := by
  intro h
  cases e with
  | go w t => exact (congrArg _ (forgetRemote_boot t who fn rs)).trans h
  | _ => exact h

/-- An access leaves the slot as the action after it does. -/
theorem access_leaves (x : WaveCtx) (s : State) (store atomic : Bool) (act : List Nat → State → Eff)
    (ha : ∀ ls u, u.boot.otpSlot = s.boot.otpSlot → (act ls u).leaves s.boot.otpSlot) :
    (access x s store atomic act).leaves s.boot.otpSlot := by
  unfold access
  dsimp only
  split
  · trivial
  · split
    · simp [Eff.leaves]
    · simp [Eff.leaves]
    · exact forgetting_leaves _ _ _ _ (ha _ _ (congrArg _ (boot_foldl _ (fun s r => touchVA_boot s _ _ _ _ _ _) _ s)))

theorem pushMask_leaves (w : Wave) (e : MaskEntry) (s : State) (k : Wave → Wave) : (pushMask w e s k).leaves s.boot.otpSlot := by
  unfold pushMask
  split
  · trivial
  · rfl

theorem ifOp_leaves (x : WaveCtx) (s : State) : (ifOp x s).leaves s.boot.otpSlot := by
  unfold ifOp
  exact pushMask_leaves _ _ s _

theorem loopOp_leaves (x : WaveCtx) (s : State) : (loopOp x s).leaves s.boot.otpSlot := by
  unfold loopOp
  exact pushMask_leaves _ _ s _

theorem sel_leaves (x : WaveCtx) (s : State) : (sel x s).leaves s.boot.otpSlot := by
  unfold sel
  dsimp only
  split
  · split
    · rfl
    · split <;> rfl
  · rfl

theorem ldOp_leaves (x : WaveCtx) (s : State) : (ldOp x s).leaves s.boot.otpSlot :=
  access_leaves x s false false _ (fun _ _ hu => hu)

theorem stOp_leaves (x : WaveCtx) (s : State) : (stOp x s).leaves s.boot.otpSlot :=
  access_leaves x s true false _ (fun _ u hu => (congrArg _ (boot_foldl _ (fun s _ => spaceWrite_boot s x false _ _) _ u)).trans hu)

theorem atomOp_leaves (x : WaveCtx) (s : State) : (atomOp x s).leaves s.boot.otpSlot :=
  access_leaves x s true true _ (fun _ u hu =>
    (congrArg _ (boot_foldl_snd _ (fun p _ => spaceWrite_boot p.2 x true _ _) _ (x.w, u))).trans hu)

theorem braOp_leaves (x : WaveCtx) (s : State) : (braOp x s).leaves s.boot.otpSlot := by
  unfold braOp
  dsimp only
  split
  · rfl
  · split
    · rfl
    · trivial

theorem elseOp_leaves (x : WaveCtx) (s : State) : (elseOp x s).leaves s.boot.otpSlot := by
  unfold elseOp
  split <;> rfl

theorem endifOp_leaves (x : WaveCtx) (s : State) : (endifOp x s).leaves s.boot.otpSlot := by
  unfold endifOp
  split <;> rfl

theorem leaveOp_leaves (h : Nat → MaskEntry → MaskEntry) (x : WaveCtx) (s : State) : (leaveOp h x s).leaves s.boot.otpSlot := by
  unfold leaveOp
  dsimp only
  split <;> rfl

theorem endloopOp_leaves (x : WaveCtx) (s : State) : (endloopOp x s).leaves s.boot.otpSlot := by
  unfold endloopOp
  split
  · rfl
  · dsimp only
    split <;> rfl

theorem callOp_leaves (x : WaveCtx) (s : State) : (callOp x s).leaves s.boot.otpSlot := by
  unfold callOp
  split
  · trivial
  · rfl

theorem retOp_leaves (x : WaveCtx) (s : State) : (retOp x s).leaves s.boot.otpSlot := by
  unfold retOp
  split
  · trivial
  · split
    · rfl
    · trivial

theorem trapOp_leaves (x : WaveCtx) (s : State) : (trapOp x s).leaves s.boot.otpSlot := by
  unfold trapOp
  split
  · rfl
  · trivial

theorem tmsgOp_leaves (x : WaveCtx) (s : State) : (tmsgOp x s).leaves s.boot.otpSlot := by
  unfold tmsgOp
  dsimp only
  split
  · trivial
  · split <;> rfl

theorem twaitOp_leaves (x : WaveCtx) (s : State) : (twaitOp x s).leaves s.boot.otpSlot := by
  unfold twaitOp
  split <;> rfl

/-! ### Every command -/

/-- Once the fuse is blown, every command leaves the slot, the fuse and the programming state as they were. -/
theorem exec_keepsSlot (i : Instr) (s : State) (hs : slotLocked s) : keepsSlot s (exec i s) := by
  cases i with
  | registerWrite f off len allBytes data => exact execRegisterWrite_keepsSlot f off len allBytes data s hs
  | latchingRead f off len => exact execLatchingRead_keepsSlot f off len s
  | islandStartOnEntry island => exact execIslandStartOnEntry_keepsSlot island s hs
  | fabricTimeout silent sender => exact execFabricTimeout_keepsSlot silent sender s
  | suppliesValid podId ecc capGiB perst => exact execSuppliesValid_keepsSlot podId ecc capGiB perst s
  | flashRead sfdp quad image => exact execFlashRead_keepsSlot sfdp quad image s
  | imageCheckDone otpError => exact execImageCheckDone_keepsSlot otpError s
  | noticeboardStart lanes rate trainOk => exact execNoticeboardStart_keepsSlot lanes rate trainOk s
  | perstAssert hotReset => exact execPerstAssert_keepsSlot hotReset s
  | configSpaceReady speed width => exact execConfigSpaceReady_keepsSlot speed width s
  | stageEn v => exact execStageEn_keepsSlot v s
  | otpProgram v => exact execOtpProgram_keepsSlot v s hs
  | otpProgramDone ok => exact execOtpProgramDone_keepsSlot ok s hs
  | bar2Access off len write => exact execBar2Access_keepsSlot off len write s
  | ringEn f v => exact execRingEn_keepsSlot f v s
  | stop f v => exact execStop_keepsSlot f v s
  | stoppedReached f => exact execStoppedReached_keepsSlot f s
  | ringReset f => exact execRingReset_keepsSlot f s
  | doorbell f t => exact execDoorbell_keepsSlot f t s
  | packetFetch f => exact execPacketFetch_keepsSlot f s
  | packetDispatch f pos => exact execPacketDispatch_keepsSlot f pos s
  | hiReplyHead f h => exact execHiReplyHead_keepsSlot f h s
  | completionReport f pos => exact execCompletionReport_keepsSlot f pos s
  | msixUnmask f vec => exact execMsixUnmask_keepsSlot f vec s
  | functionLevelReset f => exact execFunctionLevelReset_keepsSlot f s
  | hostReadError f read => exact execHostReadError_keepsSlot f read s
  | pktBarrier f pos => exact execPktBarrier_keepsSlot f pos s
  | pktSignalFence f pos => exact execPktSignalFence_keepsSlot f pos s
  | pktWaitFence f pos => exact execPktWaitFence_keepsSlot f pos s
  | pktWaitFenceTimeout f pos => exact execPktWaitFenceTimeout_keepsSlot f pos s
  | pktLoadProgram f pos => exact execPktLoadProgram_keepsSlot f pos s
  | pktUnloadProgram f pos => exact execPktUnloadProgram_keepsSlot f pos s
  | pktRunJob f pos => exact execPktRunJob_keepsSlot f pos s
  | pktRunBatch f pos => exact execPktRunBatch_keepsSlot f pos s
  | pktStepJoin f pos => exact execPktStepJoin_keepsSlot f pos s
  | pktStepLeave f pos => exact execPktStepLeave_keepsSlot f pos s
  | pktResolvePencil f pos => exact execPktResolvePencil_keepsSlot f pos s
  | pktCopy f pos => exact execPktCopy_keepsSlot f pos s
  | pktCopyCompress f pos => exact execPktCopyCompress_keepsSlot f pos s
  | pktCopyDecompress f pos => exact execPktCopyDecompress_keepsSlot f pos s
  | pktRegionUpdate f pos => exact execPktRegionUpdate_keepsSlot f pos s
  | pktFill f pos => exact execPktFill_keepsSlot f pos s
  | pktDrawList f pos => exact execPktDrawList_keepsSlot f pos s
  | pktLayerFlip f pos => exact execPktLayerFlip_keepsSlot f pos s
  | pktDisplayConfig f pos => exact execPktDisplayConfig_keepsSlot f pos s
  | pktLinkSend f pos => exact execPktLinkSend_keepsSlot f pos s
  | pktConfigApply f pos => exact execPktConfigApply_keepsSlot f pos s
  | pktPowerRequest f pos => exact execPktPowerRequest_keepsSlot f pos s
  | pktQuotaSet f pos => exact execPktQuotaSet_keepsSlot f pos s
  | jobStart f pos => exact execJobStart_keepsSlot f pos s
  | clusterStart n => exact execClusterStart_keepsSlot n s
  | clusterStop n => exact execClusterStop_keepsSlot n s
  | jobEnd f pos => exact execJobEnd_keepsSlot f pos s
  | budgetExpiry f pos => exact execBudgetExpiry_keepsSlot f pos s
  | atsInvalidateRequest f addr log2 tag => exact execAtsInvalidateRequest_keepsSlot f addr log2 tag s
  | atsInvalidateCompletion tag => exact execAtsInvalidateCompletion_keepsSlot tag s
  | atsTranslationCompletion f addr ok log2 target r w => exact execAtsTranslationCompletion_keepsSlot f addr ok log2 target r w s
  | prgResponse index code => exact execPrgResponse_keepsSlot index code s
  | priTimeout index => exact execPriTimeout_keepsSlot index s
  | scCarve v => exact execScCarve_keepsSlot v s
  | cacheEccError slice set way => exact execCacheEccError_keepsSlot slice set way s
  | memoryEccError addr error => exact execMemoryEccError_keepsSlot addr error s
  | transferEnd engine => exact execTransferEnd_keepsSlot engine s
  | compressTrialEnd engine => exact execCompressTrialEnd_keepsSlot engine s
  | opConv f pos stage => exact execOpConv_keepsSlot f pos stage s
  | opMatmul f pos stage => exact execOpMatmul_keepsSlot f pos stage s
  | opAttention f pos stage => exact execOpAttention_keepsSlot f pos stage s
  | opPool f pos stage => exact execOpPool_keepsSlot f pos stage s
  | opEltwise f pos stage => exact execOpEltwise_keepsSlot f pos stage s
  | opReduce f pos stage => exact execOpReduce_keepsSlot f pos stage s
  | opResize f pos stage => exact execOpResize_keepsSlot f pos stage s
  | opCropGather f pos stage => exact execOpCropGather_keepsSlot f pos stage s
  | opNms f pos stage => exact execOpNms_keepsSlot f pos stage s
  | opShader f pos stage => exact execOpShader_keepsSlot f pos stage s
  | stageEnd f pos stage => exact execStageEnd_keepsSlot f pos stage s
  | earlyStart f pos stage => exact execEarlyStart_keepsSlot f pos stage s
  | earlyWorkEnd f pos stage => exact execEarlyWorkEnd_keepsSlot f pos stage s
  | inkEnd f pos stage => exact execInkEnd_keepsSlot f pos stage s
  | shIadd k w => exact runInstr_otpSlot _ _ k w s (fun _ _ => rfl)
  | shIsub k w => exact runInstr_otpSlot _ _ k w s (fun _ _ => rfl)
  | shImul k w => exact runInstr_otpSlot _ _ k w s (fun _ _ => rfl)
  | shImulhi k w => exact runInstr_otpSlot _ _ k w s (fun _ _ => rfl)
  | shUmulhi k w => exact runInstr_otpSlot _ _ k w s (fun _ _ => rfl)
  | shImad k w => exact runInstr_otpSlot _ _ k w s (fun _ _ => rfl)
  | shImin k w => exact runInstr_otpSlot _ _ k w s (fun _ _ => rfl)
  | shImax k w => exact runInstr_otpSlot _ _ k w s (fun _ _ => rfl)
  | shUmin k w => exact runInstr_otpSlot _ _ k w s (fun _ _ => rfl)
  | shUmax k w => exact runInstr_otpSlot _ _ k w s (fun _ _ => rfl)
  | shAnd k w => exact runInstr_otpSlot _ _ k w s (fun _ _ => rfl)
  | shOr k w => exact runInstr_otpSlot _ _ k w s (fun _ _ => rfl)
  | shXor k w => exact runInstr_otpSlot _ _ k w s (fun _ _ => rfl)
  | shShl k w => exact runInstr_otpSlot _ _ k w s (fun _ _ => rfl)
  | shShr k w => exact runInstr_otpSlot _ _ k w s (fun _ _ => rfl)
  | shSar k w => exact runInstr_otpSlot _ _ k w s (fun _ _ => rfl)
  | shPopc k w => exact runInstr_otpSlot _ _ k w s (fun _ _ => rfl)
  | shClz k w => exact runInstr_otpSlot _ _ k w s (fun _ _ => rfl)
  | shFadd k w => exact runInstr_otpSlot _ _ k w s (fun _ _ => rfl)
  | shFsub k w => exact runInstr_otpSlot _ _ k w s (fun _ _ => rfl)
  | shFmul k w => exact runInstr_otpSlot _ _ k w s (fun _ _ => rfl)
  | shFfma k w => exact runInstr_otpSlot _ _ k w s (fun _ _ => rfl)
  | shFmin k w => exact runInstr_otpSlot _ _ k w s (fun _ _ => rfl)
  | shFmax k w => exact runInstr_otpSlot _ _ k w s (fun _ _ => rfl)
  | shFabs k w => exact runInstr_otpSlot _ _ k w s (fun _ _ => rfl)
  | shFneg k w => exact runInstr_otpSlot _ _ k w s (fun _ _ => rfl)
  | shFdiv k w => exact runInstr_otpSlot _ _ k w s (fun _ _ => rfl)
  | shFsqrt k w => exact runInstr_otpSlot _ _ k w s (fun _ _ => rfl)
  | shFrcp k w => exact runInstr_otpSlot _ _ k w s (fun _ _ => rfl)
  | shFrsq k w => exact runInstr_otpSlot _ _ k w s (fun _ _ => rfl)
  | shFexp2 k w => exact runInstr_otpSlot _ _ k w s (fun _ _ => rfl)
  | shFlog2 k w => exact runInstr_otpSlot _ _ k w s (fun _ _ => rfl)
  | shFsin k w => exact runInstr_otpSlot _ _ k w s (fun _ _ => rfl)
  | shFcos k w => exact runInstr_otpSlot _ _ k w s (fun _ _ => rfl)
  | shIcmp k w => exact runInstr_otpSlot _ _ k w s (fun _ _ => rfl)
  | shUcmp k w => exact runInstr_otpSlot _ _ k w s (fun _ _ => rfl)
  | shFcmp k w => exact runInstr_otpSlot _ _ k w s (fun _ _ => rfl)
  | shPcomb k w => exact runInstr_otpSlot _ _ k w s (fun _ _ => rfl)
  | shSel k w => exact runInstr_otpSlot _ _ k w s sel_leaves
  | shCvt k w => exact runInstr_otpSlot _ _ k w s (fun _ _ => rfl)
  | shMov k w => exact runInstr_otpSlot _ _ k w s (fun _ _ => rfl)
  | shRdsp k w => exact runInstr_otpSlot _ _ k w s (fun _ _ => rfl)
  | shShfl k w => exact runInstr_otpSlot _ _ k w s (fun _ _ => rfl)
  | shVote k w => exact runInstr_otpSlot _ _ k w s (fun _ _ => rfl)
  | shLd k w => exact runInstr_otpSlot _ _ k w s ldOp_leaves
  | shSt k w => exact runInstr_otpSlot _ _ k w s stOp_leaves
  | shAtom k w => exact runInstr_otpSlot _ _ k w s atomOp_leaves
  | shNop k w => exact runInstr_otpSlot _ _ k w s (fun _ _ => rfl)
  | shBra k w => exact runInstr_otpSlot _ _ k w s braOp_leaves
  | shIf k w => exact runInstr_otpSlot _ _ k w s ifOp_leaves
  | shElse k w => exact runInstr_otpSlot _ _ k w s elseOp_leaves
  | shEndif k w => exact runInstr_otpSlot _ _ k w s endifOp_leaves
  | shLoop k w => exact runInstr_otpSlot _ _ k w s loopOp_leaves
  | shBrk k w => exact runInstr_otpSlot _ _ k w s (leaveOp_leaves _)
  | shCont k w => exact runInstr_otpSlot _ _ k w s (leaveOp_leaves _)
  | shEndloop k w => exact runInstr_otpSlot _ _ k w s endloopOp_leaves
  | shCall k w => exact runInstr_otpSlot _ _ k w s callOp_leaves
  | shRet k w => exact runInstr_otpSlot _ _ k w s retOp_leaves
  | shBar k w => exact runInstr_otpSlot _ _ k w s (fun _ _ => rfl)
  | shEnd k w => exact runInstr_otpSlot _ _ k w s (fun _ _ => rfl)
  | shTrap k w => exact runInstr_otpSlot _ _ k w s trapOp_leaves
  | shTmsg k w => exact runInstr_otpSlot _ _ k w s tmsgOp_leaves
  | tensorMessageDone n => exact execTensorMessageDone_keepsSlot n s
  | shTwait k w => exact runInstr_otpSlot _ _ k w s twaitOp_leaves
  | frameEnd underruns => exact execFrameEnd_keepsSlot underruns s
  | hpdIrq linkOk => exact execHpdIrq_keepsSlot linkOk s
  | hpdPlug lanes rate => exact execHpdPlug_keepsSlot lanes rate s
  | dpTrainingDone ok => exact execDpTrainingDone_keepsSlot ok s
  | auxStart v => exact execAuxStart_keepsSlot v s
  | auxDone reply data => exact execAuxDone_keepsSlot reply data s
  | retrain p => exact execRetrain_keepsSlot p s
  | blLinkEn p v => exact execBlLinkEn_keepsSlot p v s
  | equalise p => exact execEqualise_keepsSlot p s
  | config p => exact execConfig_keepsSlot p s
  | configDone p tsb => exact execConfigDone_keepsSlot p tsb s
  | trainingTimeout p => exact execTrainingTimeout_keepsSlot p s
  | autoRetry p => exact execAutoRetry_keepsSlot p s
  | payloadFlit p flit => exact execPayloadFlit_keepsSlot p flit s
  | nak p flit => exact execNak_keepsSlot p flit s
  | replayTimeout p => exact execReplayTimeout_keepsSlot p s
  | replayWindow p => exact execReplayWindow_keepsSlot p s
  | linkSilenceTimeout p => exact execLinkSilenceTimeout_keepsSlot p s
  | msgRdReq p => exact execMsgRdReq_keepsSlot p s
  | msgWrReq p => exact execMsgWrReq_keepsSlot p s
  | msgAtReq p => exact execMsgAtReq_keepsSlot p s
  | msgRdRsp p => exact execMsgRdRsp_keepsSlot p s
  | msgWrAck p => exact execMsgWrAck_keepsSlot p s
  | msgAtRsp p => exact execMsgAtRsp_keepsSlot p s
  | msgFenceWr p => exact execMsgFenceWr_keepsSlot p s
  | msgFenceWatch p => exact execMsgFenceWatch_keepsSlot p s
  | msgFenceUnwatch p => exact execMsgFenceUnwatch_keepsSlot p s
  | fenceWatchRetry f pos => exact execFenceWatchRetry_keepsSlot f pos s
  | msgMsg p => exact execMsgMsg_keepsSlot p s
  | msgFenceAck p => exact execMsgFenceAck_keepsSlot p s
  | msgFenceNotify p => exact execMsgFenceNotify_keepsSlot p s
  | msgMsgAck p => exact execMsgMsgAck_keepsSlot p s
  | msgStreamAck p => exact execMsgStreamAck_keepsSlot p s
  | msgRouteState p => exact execMsgRouteState_keepsSlot p s
  | rcAsk p => exact execRcAsk_keepsSlot p s
  | rcPropose p => exact execRcPropose_keepsSlot p s
  | rcAccept p => exact execRcAccept_keepsSlot p s
  | rcDecline p => exact execRcDecline_keepsSlot p s
  | rcWithdraw p => exact execRcWithdraw_keepsSlot p s
  | rcVerdict p => exact execRcVerdict_keepsSlot p s
  | rcWake p => exact execRcWake_keepsSlot p s
  | wakeSource src => exact execWakeSource_keepsSlot src s
  | exitDone stillLost tHot16 sensor => exact execExitDone_keepsSlot stillLost tHot16 sensor s hs
  | linkActivity p => exact execLinkActivity_keepsSlot p s
  | mgmtQuickCommand t => exact execMgmtQuickCommand_keepsSlot t s
  | mgmtSendByte t => exact execMgmtSendByte_keepsSlot t s
  | mgmtReceiveByte t => exact execMgmtReceiveByte_keepsSlot t s
  | mgmtLastReported t attention => exact execMgmtLastReported_keepsSlot t attention s
  | mgmtAttentionEn t => exact execMgmtAttentionEn_keepsSlot t s
  | mgmtIdentity t => exact execMgmtIdentity_keepsSlot t s
  | mgmtState t => exact execMgmtState_keepsSlot t s
  | mgmtThermal t => exact execMgmtThermal_keepsSlot t s
  | mgmtRail t => exact execMgmtRail_keepsSlot t s
  | mgmtLinks t => exact execMgmtLinks_keepsSlot t s
  | mgmtTime t => exact execMgmtTime_keepsSlot t s
  | mgmtKeepalive t => exact execMgmtKeepalive_keepsSlot t s
  | mgmtLogCount t => exact execMgmtLogCount_keepsSlot t s
  | mgmtLogSelect t => exact execMgmtLogSelect_keepsSlot t s
  | mgmtLogRead t => exact execMgmtLogRead_keepsSlot t s
  | mgmtLogNote t => exact execMgmtLogNote_keepsSlot t s
  | mgmtRegAddr t => exact execMgmtRegAddr_keepsSlot t s
  | mgmtRegData t => exact execMgmtRegData_keepsSlot t s hs
  | controllerStart v => exact execControllerStart_keepsSlot v s
  | arbitrationLoss kind => exact execArbitrationLoss_keepsSlot kind s
  | controllerDone status rd pecBad => exact execControllerDone_keepsSlot status rd pecBad s
  | setHostAttention v => exact execSetHostAttention_keepsSlot v s
  | addressMatch read => exact execAddressMatch_keepsSlot read s
  | sourceChange src cellMv primMv => exact execSourceChange_keepsSlot src cellMv primMv s
  | coldStart src vkaMv => exact execColdStart_keepsSlot src vkaMv s
  | samplePeriod vocMv t16 ntcAbsent => exact execSamplePeriod_keepsSlot vocMv t16 ntcAbsent s
  | cellMeasure cellMv primMv => exact execCellMeasure_keepsSlot cellMv primMv s
  | cellProtect kind acts cellMv => exact execCellProtect_keepsSlot kind acts cellMv s
  | caseSample in0 in1 => exact execCaseSample_keepsSlot in0 in1 s
  | phaseOpen phase => exact execPhaseOpen_keepsSlot phase s
  | senseFail phase iN iExp => exact execSenseFail_keepsSlot phase iN iExp s
  | phaseRetry v pass => exact execPhaseRetry_keepsSlot v pass s
  | tmonWarn above => exact execTmonWarn_keepsSlot above s
  | droop island => exact execDroop_keepsSlot island s
  | droopFault island => exact execDroopFault_keepsSlot island s
  | controlStep tCl tFab tCtl clIdx => exact execControlStep_keepsSlot tCl tFab tCtl clIdx s
  | thermalTrip sensor t16 => exact execThermalTrip_keepsSlot sensor t16 s
  | telemetryUpdate mv isen tmon16 => exact execTelemetryUpdate_keepsSlot mv isen tmon16 s
  | discardDone f => exact execDiscardDone_keepsSlot f s
  | traceEnable v => exact execTraceEnable_keepsSlot v s
  | jtagSamplePreload pins => exact execJtagSamplePreload_keepsSlot pins s
  | jtagExtest leave => exact execJtagExtest_keepsSlot leave s
  | pktNop f pos => exact execPktNop_keepsSlot f pos s
  | configurationWrite f field value => exact execConfigurationWrite_keepsSlot f field value s
  | laneLock p lane tag inverted => exact execLaneLock_keepsSlot p lane tag inverted s
  | translationRequestTimeout f addr => exact execTranslationRequestTimeout_keepsSlot f addr s
  | droopRecovery island => exact execDroopRecovery_keepsSlot island s
  | islandRestart => exact execIslandRestart_keepsSlot s hs
  | wedged => exact execWedged_keepsSlot s
  | suppliesLost => exact execSuppliesLost_keepsSlot s hs
  | softStartDone => exact execSoftStartDone_keepsSlot s
  | imgWrite => exact execImgWrite_keepsSlot s hs
  | imgWriteMasked => exact execImgWriteMasked_keepsSlot s hs
  | imgWriteSeq => exact execImgWriteSeq_keepsSlot s hs
  | imgNoticeboardItem => exact execImgNoticeboardItem_keepsSlot s
  | imgNoticeboardText => exact execImgNoticeboardText_keepsSlot s
  | imgEnd => exact execImgEnd_keepsSlot s
  | memoryTrained => exact execMemoryTrained_keepsSlot s
  | noticeboardRefresh => exact execNoticeboardRefresh_keepsSlot s
  | pfFunctionLevelReset => exact execPfFunctionLevelReset_keepsSlot s
  | ageingStep => exact execAgeingStep_keepsSlot s
  | invalidate => exact execInvalidate_keepsSlot s
  | invalidationComplete => exact execInvalidationComplete_keepsSlot s
  | carveTransitionDone => exact execCarveTransitionDone_keepsSlot s
  | drawRect => exact execDrawRect_keepsSlot s
  | drawBox => exact execDrawBox_keepsSlot s
  | drawPoint => exact execDrawPoint_keepsSlot s
  | drawLine => exact execDrawLine_keepsSlot s
  | drawTriangle => exact execDrawTriangle_keepsSlot s
  | drawGlyph => exact execDrawGlyph_keepsSlot s
  | drawSetClip => exact execDrawSetClip_keepsSlot s
  | drawSetAtlas => exact execDrawSetAtlas_keepsSlot s
  | drawClear => exact execDrawClear_keepsSlot s
  | drawNop => exact execDrawNop_keepsSlot s
  | drawEnd => exact execDrawEnd_keepsSlot s
  | latch => exact execLatch_keepsSlot s
  | frameStart => exact execFrameStart_keepsSlot s
  | hpdUnplug => exact execHpdUnplug_keepsSlot s
  | routeStateTimer => exact execRouteStateTimer_keepsSlot s
  | rollCallTimeout => exact execRollCallTimeout_keepsSlot s
  | verdictTimeout => exact execVerdictTimeout_keepsSlot s
  | askTimeout => exact execAskTimeout_keepsSlot s
  | sleepEntryDone => exact execSleepEntryDone_keepsSlot s
  | sclTimeout => exact execSclTimeout_keepsSlot s
  | controllerRetry => exact execControllerRetry_keepsSlot s
  | handRaiseDue => exact execHandRaiseDue_keepsSlot s
  | handRaise => exact execHandRaise_keepsSlot s
  | handRaiseCollision => exact execHandRaiseCollision_keepsSlot s
  | handRaiseSeen => exact execHandRaiseSeen_keepsSlot s
  | ocClearTimer => exact execOcClearTimer_keepsSlot s
  | ocLatch => exact execOcLatch_keepsSlot s
  | wakePin => exact execWakePin_keepsSlot s
  | xtalFail => exact execXtalFail_keepsSlot s
  | xtalRestore => exact execXtalRestore_keepsSlot s
  | logbookAppend => exact execLogbookAppend_keepsSlot s
  | kaLogDataRead => exact execKaLogDataRead_keepsSlot s
  | phaseAdd => exact execPhaseAdd_keepsSlot s
  | phaseShed => exact execPhaseShed_keepsSlot s
  | railAck => exact execRailAck_keepsSlot s
  | jtagBypass => exact execJtagBypass_keepsSlot s
  | jtagClamp => exact execJtagClamp_keepsSlot s
  | jtagHighz => exact execJtagHighz_keepsSlot s
  | vkaCollapse => exact execVkaCollapse_keepsSlot s
  | cellFull => exact execCellFull_keepsSlot s

/-! ### The OTP digest slot once its fuse is blown -/

theorem step_keepsSlot (s : State) (hs : slotLocked s) : keepsSlot s (step s) := by
  unfold step
  split
  · exact congrArg _ (tick_boot s)
  · next c rest _ => exact exec_keepsSlot c { s with pending := rest } hs

/-- A start on a locked slot (R68). -/
theorem otpProgramIn_locked {v : W32} {s : State} (hv : v.getLsbD 0 = true) (hl : s.boot.otpLocked = true) :
    otpProgramIn v s = logX (sf s R.CP_OTP_STATUS F.CP_OTP_STATUS.PROG_FAIL 1) 0x0106 1 0xFF [2] := by
  simp [otpProgramIn, hv, hl]

theorem exec_otpProgram_done {v : W32} {s : State} (ho : hostOpen s) (hd : bootDone s = true) :
    exec (.otpProgram v) s = .next (otpProgramIn v s) := by
  obtain ⟨hc, hp, hr, hi⟩ := ho
  show execOtpProgram v s = _
  rw [execOtpProgram, tlp_run s _ _ hc hp hr hi, gate_done s _ _ hd]

/-- Settles O59: no command and no passing of time writes a locked slot, and a further start is refused. -/
theorem lockedSlotStays : Obligations.LockedSlotStays := by
  refine ⟨fun s t hs ht => ?_, fun s v ho hd hv hl => ?_⟩
  · have h : t.boot.otpSlot = s.boot.otpSlot := by simpa only [ht, keepsSlot_next] using step_keepsSlot s hs
    exact ⟨slotLocked_congr h hs, congrArg Prod.fst h⟩
  · rw [exec_otpProgram_done ho hd, otpProgramIn_locked hv hl]
    refine ⟨_, rfl, ?_, rfl, ?_, rfl⟩
    · rw [isSet, rb, rf_logX, rf_sf_self _ _ _ (by decide) (by decide)]
      rfl
    · simp [newestCross, logX]

end Sys2Proof.Machine

namespace Sys2Proof.Machine

open Say

/-! ### Registers of a function's window, and fields of one register -/

/-- A register of a function's window and one of another block differ. -/
theorem fnWin_add_ne {f off k : Nat} (ho : off < 0x100000) (hk : 0x100000 ≤ k) (hk' : k < 0x1000000) : fnWin f + off ≠ k := by
  unfold fnWin
  split <;> omega

/-- Two registers of one window differ. -/
theorem fnWin_add_ne_add {f a b : Nat} (h : a ≠ b) : fnWin f + a ≠ fnWin f + b := fun e => h (Nat.add_left_cancel e)

/-- A field below the one replaced reads as before. -/
theorem fld_setFld_below (w : W32) {hi lo : Nat} (hl : lo ≤ hi) (hh : hi < 32) {hi' lo' : Nat} (h' : lo' ≤ hi') (h : hi' < lo)
    (v : Nat) : fld (setFld w hi lo v) hi' lo' = fld w hi' lo' := by
  obtain ⟨e, rfl⟩ : ∃ e, lo = hi' + 1 + e := ⟨lo - (hi' + 1), by omega⟩
  have hd : 2 ^ (hi' + 1) ∣ 2 ^ (hi' + 1 + e) := pow_dvd_pow 2 (by omega)
  have low : (setFld w hi (hi' + 1 + e) v).toNat % 2 ^ (hi' + 1) = w.toNat % 2 ^ (hi' + 1) := by
    rw [setFld_toNat w hl hh, Nat.add_mod, Nat.mod_eq_zero_of_dvd (hd.mul_left _), Nat.zero_add, Nat.mod_mod, Nat.mod_mod_of_dvd _ hd]
  have cut (x : Nat) : nbits x hi' lo' = x % 2 ^ (hi' + 1) / 2 ^ lo' := by
    rw [nbits, ← Nat.mod_mul_right_div_self, ← pow_add, show lo' + (hi' + 1 - lo') = hi' + 1 by omega]
  rw [fld, fld, cut, cut, low]

theorem rf_sf_below (s : State) (k : Nat) (fd fe : Fld) (hl : fd.2 ≤ fd.1) (hh : fd.1 < 32) (he : fe.2 ≤ fe.1) (h : fe.1 < fd.2)
    (v : Nat) : rf (sf s k fd v) k fe = rf s k fe := by
  rw [rf, rd_sf_self, fld_setFld_below _ hl hh he h]
  rfl

/-- A one-bit field just set reads 1. -/
theorem rb_sf_one (s : State) (k : Nat) {b : Nat} (hb : b < 32) : rb (sf s k (b, b) 1) k (b, b) = true := by
  rw [rb, rf_sf_self _ _ _ (le_refl b) hb, Nat.add_sub_cancel_left]
  rfl

/-- A one-bit field just cleared reads 0. -/
theorem rf_sf_zero (s : State) (k : Nat) {b : Nat} (hb : b < 32) : rf (sf s k (b, b) 0) k (b, b) = 0 := by
  rw [rf_sf_self _ _ _ (le_refl b) hb, Nat.zero_mod]

/-! ### What lookups of pages leave (R157, R592) -/

theorem lookedUp_refl (s : State) : lookedUp s s := ⟨rfl, fun _ _ => rfl, fun _ _ => rfl⟩

theorem lookedUp_trans {s t u : State} (h : lookedUp s t) (g : lookedUp t u) : lookedUp s u := by
  obtain ⟨he, hr, hc⟩ := h
  obtain ⟨ge, gr, gc⟩ := g
  refine ⟨?_, fun k hk => (gr k hk).trans (hr k hk), fun k hk => (gc k hk).trans (hc k hk)⟩
  rw [he] at ge
  exact ge

theorem lookedUp_ite {c : Prop} [Decidable c] {s t u : State} (ht : lookedUp s t) (hu : lookedUp s u) :
    lookedUp s (if c then t else u) := by
  split
  · exact ht
  · exact hu

theorem lookedUp_foldl {α : Type} (g : State → α → State) (hg : ∀ s a, lookedUp s (g s a)) (l : List α) (s : State) :
    lookedUp s (l.foldl g s) := by
  induction l generalizing s with
  | nil => exact lookedUp_refl s
  | cons a l ih => exact lookedUp_trans (hg s a) (ih _)

/-- Translations held are no register and no counter. -/
theorem lookedUp_xl (s : State) (x : Xlate) : lookedUp s { s with xl := x } := ⟨rfl, fun _ _ => rfl, fun _ _ => rfl⟩

theorem CacheOnly.lookedUp {s t : State} (h : CacheOnly s t) : lookedUp s t := by
  refine ⟨?_, fun k _ => h.rd k, fun k hk => h.ctrs k fun hm => hk (List.mem_append_left _ hm)⟩
  rw [h.eq]

theorem lookedUp_malformedMet (s : State) (f va : Nat) : lookedUp s (malformedMet s f va) :=
  ⟨rfl, fun _ hk => rd_wr_ne s _ fun e => hk (by simp [e]), fun _ _ => rfl⟩

theorem lookedUp_sharedPut (s : State) (t : TlbEntry) : lookedUp s (sharedPut s t) := lookedUp_xl s _

theorem lookedUp_localPut (s : State) (who : Nat) (t : TlbEntry) : lookedUp s (localPut s who t) := by
  unfold localPut
  split
  · exact lookedUp_refl s
  · exact lookedUp_xl s _

/-- A read that trains no detector is the cache's alone. -/
theorem CacheOnly.touchRead (s : State) (al : Bool) (a n : Nat) : CacheOnly s (touchRead s none al a n) :=
  CacheOnly.foldl _ (fun s l => CacheOnly.access s al .read l) _ s

theorem lookedUp_touchWalk (s : State) (f va : Nat) : lookedUp s (touchWalk s f va) := by
  unfold touchWalk
  refine lookedUp_ite (lookedUp_refl s) ?_
  split
  · exact lookedUp_refl s
  · next a _ =>
    have first : lookedUp s (if (walkHit s f va).isSome then s else touchRead s none true a 8) :=
      lookedUp_ite (lookedUp_refl s) (CacheOnly.touchRead s true a 8).lookedUp
    exact lookedUp_ite (lookedUp_trans first (lookedUp_trans (lookedUp_xl _ _) (CacheOnly.touchRead _ true _ 8).lookedUp)) first

theorem lookedUp_touchLeaf (s : State) (who f va : Nat) : lookedUp s (touchLeaf s who f va) := by
  have walked := lookedUp_touchWalk s f va
  rw [touchLeaf]
  cases tlbFind s who f va with
  | some t =>
    dsimp only
    split
    · exact lookedUp_localPut s who t
    · exact lookedUp_sharedPut s t
  | none =>
    cases walk s f va with
    | none => exact walked
    | malformed => exact lookedUp_trans walked (lookedUp_malformedMet _ f va)
    | leaf e n => exact lookedUp_trans walked (lookedUp_trans (lookedUp_sharedPut _ _) (lookedUp_localPut _ who _))

theorem lookedUp_touchPages (s : State) (f va n : Nat) : lookedUp s (touchPages s f va n) :=
  lookedUp_foldl _ (fun s p => lookedUp_touchLeaf s 99 f p) _ s

theorem lookedUp_mem {s t : State} (h : lookedUp s t) : t.mem = s.mem := by
  obtain ⟨he, -, -⟩ := h
  rw [he]

theorem lookedUp_fns {s t : State} (h : lookedUp s t) : t.fns = s.fns := by
  obtain ⟨he, -, -⟩ := h
  rw [he]

theorem lookedUp_fnEnabled {s t : State} (h : lookedUp s t) (f : Nat) : fnEnabled t f = fnEnabled s f := by
  obtain ⟨-, hr, -⟩ := h
  have hk : R.HI_FN_STATUS f ∉ [R.MT_MALFORMED_COUNT] :=
    mt List.mem_singleton.1 (fnWin_add_ne (by decide) (by decide) (by decide))
  simp only [fnEnabled, rb, rf, hr _ hk]

/-! ### Enabling and disabling a ring (R78, R99) -/

theorem tlp_open {s : State} (ho : hostOpen s) (i : Instr) (k : State → State) : tlp s i k = k s := by
  obtain ⟨hc, hp, hr, hi⟩ := ho
  exact tlp_run s i k hc hp hr hi

theorem exec_ringEn_open {s : State} (ho : hostOpen s) (f : Nat) (v : Bool) : exec (.ringEn f v) s = .next (ringEnIn f v s) :=
  congrArg _ (tlp_open ho (.ringEn f v) (ringEnIn f v))

theorem rd_enableFails_ne (s : State) (f st : Nat) {k : Nat} (hk : k ∉ enableKeys f) : rd (enableFails s f st) k = rd s k := by
  simp only [enableKeys, List.mem_cons, List.not_mem_nil, or_false, not_or] at hk
  obtain ⟨hctrl, hstatus, henable⟩ := hk
  simp only [enableFails, rd_sf_ne _ _ _ henable, rd_sf_ne _ _ _ hstatus, rd_sf_ne _ _ _ hctrl]

/-- A failed enable, whatever pages its checks have looked up. -/
theorem enableFails_enableRefused {s u : State} {f st : Nat} (hu : lookedUp s u) (he : fnEnabled s f = false) (hst : st < 2 ^ 16) :
    enableRefused s (enableFails u f st) f st := by
  have hse : R.HI_FN_STATUS f ≠ R.HI_FN_ENABLE_STATUS f := fnWin_add_ne_add (by decide)
  have hce : R.HI_FN_CTRL f ≠ R.HI_FN_ENABLE_STATUS f := fnWin_add_ne_add (by decide)
  have hcs : R.HI_FN_CTRL f ≠ R.HI_FN_STATUS f := fnWin_add_ne_add (by decide)
  have hm := lookedUp_mem hu
  have hf := lookedUp_fns hu
  refine ⟨?_, ?_, ?_, ?_, hm, hf⟩
  · rw [isClear, enableFails, rf_sf_ne _ _ _ _ hce, rf_sf_ne _ _ _ _ hcs]
    exact rf_sf_zero _ _ (by decide)
  · rw [isSet, rb, enableFails, rf_sf_ne _ _ _ _ hse]
    exact rb_sf_one _ _ (by decide)
  · rw [fnEnabled, rb, enableFails, rf_sf_ne _ _ _ _ hse, rf_sf_below _ _ _ _ (by decide) (by decide) (by decide) (by decide),
      rf_sf_ne _ _ _ _ hcs.symm]
    exact (lookedUp_fnEnabled hu f).trans he
  · rw [enableFails, rf_sf_self _ _ _ (by decide) (by decide)]
    exact Nat.mod_eq_of_lt hst

/-- The pages of the three ring objects looked up, as the mapping checks of an enable do. -/
def ringLookedUp (s : State) (f : Nat) : State :=
  touchPages (touchPages (touchPages s f (ringBase s f) (64 * 2 ^ ringLog2 s f)) f (replyBase s f) (32 * 2 ^ replyLog2 s f)) f
    (fenceBase s f) 4096

theorem lookedUp_ringLookedUp (s : State) (f : Nat) : lookedUp s (ringLookedUp s f) :=
  lookedUp_trans (lookedUp_touchPages _ _ _ _) (lookedUp_trans (lookedUp_touchPages _ _ _ _) (lookedUp_touchPages _ _ _ _))

/-- An enable that passed its checks. -/
def enableDone (s : State) (f : Nat) : State :=
  sf (sf (sf s (R.HI_FN_CTRL f) F.HI_FN_CTRL.RING_EN 1) (R.HI_FN_STATUS f) F.HI_FN_STATUS.ENABLED 1) (R.HI_FN_ENABLE_STATUS f)
    F.HI_FN_ENABLE_STATUS.STATUS St.DONE

/-- An enable of a disabled ring: the shape, then the mappings. -/
theorem ringEnIn_enable {s : State} {f : Nat} (hf : fnExists s f = true) (he : fnEnabled s f = false) :
    ringEnIn f true s =
      if ringShapeOk s f = false then enableFails s f St.BAD_PARAM
      else if ringMapsOk s f = false then enableFails (ringLookedUp s f) f St.UNPINNED_OPERAND
      else enableDone (ringLookedUp s f) f := by
  simp [ringEnIn, ringLookedUp, enableDone, hf, he]

theorem enableDone_enabled {s u : State} {f : Nat} (hu : lookedUp s u) :
    fnEnabled (enableDone u f) f = true ∧ isSet (enableDone u f) (R.HI_FN_CTRL f) F.HI_FN_CTRL.RING_EN ∧
      rf (enableDone u f) (R.HI_FN_ENABLE_STATUS f) F.HI_FN_ENABLE_STATUS.STATUS = St.DONE ∧ (enableDone u f).mem = s.mem ∧
      (enableDone u f).fns = s.fns := by
  have hm := lookedUp_mem hu
  have hf := lookedUp_fns hu
  refine ⟨?_, ?_, ?_, hm, hf⟩
  · rw [fnEnabled, rb, enableDone, rf_sf_ne _ _ _ _ (fnWin_add_ne_add (by decide))]
    exact rb_sf_one _ _ (by decide)
  · rw [isSet, rb, enableDone, rf_sf_ne _ _ _ _ (fnWin_add_ne_add (by decide)), rf_sf_ne _ _ _ _ (fnWin_add_ne_add (by decide))]
    exact rb_sf_one _ _ (by decide)
  · rw [enableDone, rf_sf_self _ _ _ (by decide) (by decide)]
    rfl

/-- A disabled ring. -/
def ringDisabled (s : State) (f : Nat) : State :=
  sf (sf s (R.HI_FN_CTRL f) F.HI_FN_CTRL.RING_EN 0) (R.HI_FN_STATUS f) F.HI_FN_STATUS.ENABLED 0

/-- A disable of a ring that is on. -/
theorem ringEnIn_disable {s : State} {f : Nat} (hf : fnExists s f = true) (he : fnEnabled s f = true)
    (hr : rb s (R.HI_FN_CTRL f) F.HI_FN_CTRL.RING_EN = true) :
    ringEnIn f false s = if fnIdle s f = true ∨ fnHalted s f = true then ringDisabled s f else bump32 s R.HI_WRITE_REJECT := by
  simp [ringEnIn, ringDisabled, writeReject, hf, he, hr]

theorem fnEnabled_ringDisabled (s : State) (f : Nat) : fnEnabled (ringDisabled s f) f = false := by
  rw [fnEnabled, rb, ringDisabled, rf_sf_zero _ _ (by decide)]
  rfl

theorem isClear_ringDisabled (s : State) (f : Nat) : isClear (ringDisabled s f) (R.HI_FN_CTRL f) F.HI_FN_CTRL.RING_EN := by
  rw [isClear, ringDisabled, rf_sf_ne _ _ _ _ (fnWin_add_ne_add (by decide))]
  exact rf_sf_zero _ _ (by decide)

theorem regsKept_ringDisabled (s : State) (f : Nat) : regsKept s (ringDisabled s f) (enableKeys f) := by
  intro k hk
  simp only [enableKeys, List.mem_cons, List.not_mem_nil, or_false, not_or] at hk
  obtain ⟨hctrl, hstatus, -⟩ := hk
  rw [ringDisabled, rd_sf_ne _ _ _ hstatus, rd_sf_ne _ _ _ hctrl]

/-- Settles O18: an enable of a disabled ring goes through the checks in their order, a disable of one that is on asks whether it is in
use, and every other write returns the state as it is. -/
theorem ringEnableChecks : Obligations.RingEnableChecks := by
  refine ⟨fun s f ho hf he hs => ?_, fun s f ho hf he hs hm => ?_, fun s f ho hf he hs hm => ?_, fun s f ho h => ?_,
    fun s f ho hf he hr => ⟨fun hi => ?_, fun hi hh => ?_⟩, fun s f ho h => ?_⟩ <;> rw [exec_ringEn_open ho]
  · rw [ringEnIn_enable hf he, if_pos hs]
    exact ⟨_, rfl, enableFails_enableRefused (lookedUp_refl s) he (by decide), fun k hk => rd_enableFails_ne s f _ hk, rfl⟩
  · rw [ringEnIn_enable hf he, if_neg (by simp [hs]), if_pos hm]
    exact ⟨_, rfl, enableFails_enableRefused (lookedUp_ringLookedUp s f) he (by decide)⟩
  · rw [ringEnIn_enable hf he, if_neg (by simp [hs]), if_neg (by simp [hm])]
    exact ⟨_, rfl, enableDone_enabled (lookedUp_ringLookedUp s f)⟩
  · obtain he | hf := h
    · simp [ringEnIn, he]
    · simp [ringEnIn, hf]
  · rw [ringEnIn_disable hf he hr, if_pos hi]
    exact ⟨_, rfl, fnEnabled_ringDisabled s f, isClear_ringDisabled s f, regsKept_ringDisabled s f, rfl⟩
  · rw [ringEnIn_disable hf he hr, if_neg (by simp [hi, hh])]
  · obtain he | hr := h
    · simp [ringEnIn, he]
    · simp [ringEnIn, hr]

/-! ### What recording an event and raising a vector leave (R95, R547 to R549) -/

@[simp] theorem bytesLE_length (n v : Nat) : (bytesLE n v).length = n := by
  induction n generalizing v with
  | zero => rfl
  | succ n ih => simp [bytesLE, ih]

/-- The trace buffer lies where three registers say. -/
theorem inTrace_congr {s t : State} (hlo : rd t R.FL_TRACE_BASE_LO = rd s R.FL_TRACE_BASE_LO)
    (hhi : rd t R.FL_TRACE_BASE_HI = rd s R.FL_TRACE_BASE_HI) (hsz : rd t R.FL_TRACE_SIZE = rd s R.FL_TRACE_SIZE) :
    inTrace t = inTrace s := by
  funext a
  simp only [inTrace, rf, hlo, hhi, hsz]

theorem CacheOnly.lget {s t : State} (h : CacheOnly s t) (a : Nat) : Machine.lget t a = Machine.lget s a := by
  rw [h.eq]
  rfl

/-- A record of 32 bytes goes to the trace buffer. -/
theorem lget_tracePut (s : State) {r : List Byte} (hr : r.length = 32) {a : Nat} (ha : ¬ inTrace s a) :
    lget (tracePut s r) a = lget s a := by
  unfold tracePut
  dsimp only
  split
  · rfl
  · refine (lget_writeL r _ _ a).trans ?_
    rw [if_neg, (CacheOnly.touchWrite s true _ 32).lget]
    rintro ⟨hlo, hhi⟩
    have slot := Nat.mod_lt (rd s R.FL_TRACE_WRITTEN).toNat
      (show 0 < 2 ^ min 20 (max 10 (rf s R.FL_TRACE_SIZE F.FL_TRACE_SIZE.LOG2)) by positivity)
    refine ha ⟨?_, ?_⟩ <;> omega

/-- An event with at most 12 bytes of data. -/
theorem traced_traceEv (s : State) (point origin fn : Nat) (tag : Option Nat) (pencil : Bool) {data : List Byte}
    (hd : data.length ≤ 12) : traced s (traceEv s point origin fn tag pencil data) := by
  refine ⟨fun k hk => rd_traceEv _ _ _ _ _ _ _ fun e => hk (List.mem_singleton.2 e), fun k hk => ?_, fun a ha => ?_,
    traceEv_eq _ _ _ _ _ _ _⟩
  · simp only [traceCtrs, List.cons_append, List.nil_append, List.mem_cons, not_or] at hk
    obtain ⟨hput, hdrop, hcache⟩ := hk
    exact ctrGet_traceEv _ _ _ _ _ _ _ hput hdrop hcache
  · unfold traceEv
    split
    · rfl
    · refine lget_tracePut _ ?_ ha
      simp only [List.length_append, List.length_cons, List.length_nil, bytesLE_length, List.length_replicate]
      omega

theorem fnWin_add_not_mem_traceCtrs {f off : Nat} (ho : off < 0x100000) : fnWin f + off ∉ traceCtrs := by
  have apart {k : Nat} := @fnWin_add_ne f off k ho
  simp [traceCtrs, cacheCtrs, apart]

theorem getFn_setFn_self (s : State) (f : Nat) (x : Fn) : getFn (setFn s f x) f = x := Tab.get_set_self _ _ _ _

theorem getFn_setFn_ne (s : State) {f g : Nat} (x : Fn) (h : g ≠ f) : getFn (setFn s f x) g = getFn s g := by
  unfold getFn setFn Tab.get Tab.set
  dsimp only
  split
  · rw [Tab.find_erase_ne _ h]
  · rw [Tab.find_insert_ne _ _ h]

/-- What raising vectors of a function leaves: its pending bits, messages sent, and the trace of them. -/
structure Signals (f : Nat) (s t : State) : Prop where
  regs : regsKept s t [R.FL_TRACE_WRITTEN]
  ctrs : ctrKept s t traceCtrs
  mem : memKept s t (inTrace s)
  others : othersKept s t f
  eq : t = { s with regs := t.regs, ctr := t.ctr, mem := t.mem, cache := t.cache, trace := t.trace, out := t.out, fns := t.fns }

theorem Signals.refl (f : Nat) (s : State) : Signals f s s := ⟨fun _ _ => rfl, fun _ _ => rfl, fun _ _ => rfl, fun _ _ => rfl, rfl⟩

theorem Signals.trans {f : Nat} {s t u : State} (h : Signals f s t) (g : Signals f t u) : Signals f s u := by
  have buffer : inTrace t = inTrace s := inTrace_congr (h.regs _ (by decide)) (h.regs _ (by decide)) (h.regs _ (by decide))
  have gm := g.mem
  rw [buffer] at gm
  refine ⟨fun k hk => (g.regs k hk).trans (h.regs k hk), fun k hk => (g.ctrs k hk).trans (h.ctrs k hk),
    fun a ha => (gm a ha).trans (h.mem a ha), fun x hx => (g.others x hx).trans (h.others x hx), ?_⟩
  have ge := g.eq
  rw [h.eq] at ge
  exact ge

theorem Signals.of_traced {s t : State} (f : Nat) (h : traced s t) : Signals f s t := by
  obtain ⟨hr, hc, hm, he⟩ := h
  refine ⟨hr, hc, hm, fun g _ => ?_, ?_⟩
  · rw [he]
    rfl
  · rw [he]

theorem Signals.setFn (f : Nat) (s : State) (x : Fn) : Signals f s (setFn s f x) :=
  ⟨fun _ _ => rfl, fun _ _ => rfl, fun _ _ => rfl, fun _ hg => getFn_setFn_ne s x hg, rfl⟩

theorem Signals.out (f : Nat) (s : State) (o : List OutEv) : Signals f s { s with out := o } :=
  ⟨fun _ _ => rfl, fun _ _ => rfl, fun _ _ => rfl, fun _ _ => rfl, rfl⟩

theorem Signals.sendMsix (f : Nat) (s : State) (vec : Nat) : Signals f s (sendMsix s f vec) :=
  (Signals.out f s _).trans (.of_traced f (traced_traceEv _ _ _ _ _ _ (by simp)))

theorem Signals.raiseVec (f : Nat) (s : State) (vec : Nat) : Signals f s (raiseVec s f vec) := by
  unfold Machine.raiseVec
  dsimp only
  split
  · exact Signals.refl f s
  · split
    · exact Signals.setFn f s _
    · exact Signals.sendMsix f s vec

theorem Signals.raiseEvent (f : Nat) (s : State) (vec en : Fld) : Signals f s (raiseEvent s f vec en) := by
  unfold Machine.raiseEvent
  split
  · exact Signals.raiseVec f s _
  · exact Signals.refl f s

/-- A trace record sends nothing and touches no function. -/
theorem traceEv_out (s : State) (point origin fn : Nat) (tag : Option Nat) (pencil : Bool) (data : List Byte) :
    (traceEv s point origin fn tag pencil data).out = s.out := by rw [traceEv_eq]

theorem traceEv_fns (s : State) (point origin fn : Nat) (tag : Option Nat) (pencil : Bool) (data : List Byte) :
    (traceEv s point origin fn tag pencil data).fns = s.fns := by rw [traceEv_eq]

/-- A pending bit, set where it is not yet. -/
theorem nbit_pba_raised (p v : Nat) : nbit (if nbit p v then p else p + 2 ^ v) v = true := by
  split
  · assumption
  · next h => simpa [nbit_eq, Nat.add_comm p, Nat.testBit_two_pow_add_eq] using h

/-- R95: a raised vector is sent, or set pending where something masks it, or nothing while MSI-X is off. -/
theorem raised_raiseVec (s : State) (f vec : Nat) : raised s (raiseVec s f vec) f vec := by
  refine ⟨fun hen => ?_, fun hen hm hv => ?_, fun hen hm => ?_⟩
  · simp [raiseVec, hen]
  · simp [raiseVec, sendMsix, hen, hm, hv, traceEv_out]
  · have masked : raiseVec s f vec = setFn s f { getFn s f with
        pba := if nbit (getFn s f).pba vec then (getFn s f).pba else (getFn s f).pba + 2 ^ vec } := by
      simp [raiseVec, hen, hm]
    rw [masked, getFn_setFn_self]
    exact ⟨rfl, rfl, nbit_pba_raised _ _⟩

/-- Whether a vector has been raised shows in the messages and in the functions alone. -/
theorem raised_congr {s s' t t' : State} {f vec : Nat} (h : raised s t f vec) (hso : s'.out = s.out) (hsf : s'.fns = s.fns)
    (hto : t'.out = t.out) (htf : t'.fns = t.fns) : raised s' t' f vec := by
  unfold raised at *
  have hs : getFn s' f = getFn s f := by rw [getFn, hsf, getFn]
  have ht : getFn t' f = getFn t f := by rw [getFn, htf, getFn]
  rwa [hs, ht, hso, hsf, hto, htf]

/-! ### Doorbells (R80) -/

theorem exec_doorbell_open {s : State} (ho : hostOpen s) (f : Nat) (v : W32) : exec (.doorbell f v) s = .next (doorbellIn f v s) :=
  congrArg _ (tlp_open ho (.doorbell f v) (doorbellIn f v))

/-- R80: the ring is on, and the value is at most 2^n past the head and past the tail. -/
theorem doorbellOk_iff (s : State) (f v : Nat) :
    doorbellOk s f v = true ↔ fnEnabled s f = true ∧ fnHalted s f = false ∧ sub32 v (ringHead s f) ≤ 2 ^ ringLog2 s f ∧
      sub32 v (ringTail s f) ≤ 2 ^ ringLog2 s f := by
  simp [doorbellOk, and_assoc]

theorem doorbellOk_eq_false_iff (s : State) (f v : Nat) :
    doorbellOk s f v = false ↔ fnEnabled s f = false ∨ fnHalted s f = true ∨ 2 ^ ringLog2 s f < sub32 v (ringHead s f) ∨
      2 ^ ringLog2 s f < sub32 v (ringTail s f) := by
  rw [← Bool.not_eq_true, doorbellOk_iff]
  simp only [not_and_or, Bool.not_eq_true, Bool.not_eq_false, not_le]

theorem doorbellIn_of_ok {s : State} {f : Nat} {v : W32} (hf : fnExists s f = true) (ok : doorbellOk s f v.toNat = true) :
    doorbellIn f v s = traceEv (wr s (R.HI_RING_TAIL f) v) 4 2 f none false (bytesLE 4 v.toNat) := by
  simp [doorbellIn, hf, ok]

theorem doorbellIn_of_not_ok {s : State} {f : Nat} {v : W32} (hf : fnExists s f = true) (bad : doorbellOk s f v.toNat = false) :
    doorbellIn f v s = doorbellReject f v s := by
  simp [doorbellIn, hf, bad]

/-- A doorbell ignored, marked, counted and recorded, before its vector is raised. -/
def doorbellMarked (s : State) (f : Nat) (v : W32) : State :=
  logX (bump (sf s (R.HI_FN_STATUS f) F.HI_FN_STATUS.DOORBELL_ERR 1) (C.FN f 0x1010)) 0x0202 2 f (bytesLE 4 v.toNat)

theorem rd_doorbellMarked_ne (s : State) (f : Nat) (v : W32) {k : Nat} (h : k ≠ R.HI_FN_STATUS f) :
    rd (doorbellMarked s f v) k = rd s k := rd_sf_ne s _ _ h

theorem ctrGet_doorbellMarked (s : State) (f : Nat) (v : W32) (k : Nat) :
    ctrGet (doorbellMarked s f v) k = if k = C.FN f 0x1010 then satAdd top64 (ctrGet s k) 1 else ctrGet s k := by
  refine (ctrGet_bump _ (C.FN f 0x1010) k).trans ?_
  split
  · next h => rw [h]; rfl
  · rfl

theorem inTrace_doorbellMarked (s : State) (f : Nat) (v : W32) : inTrace (doorbellMarked s f v) = inTrace s :=
  inTrace_congr (rd_doorbellMarked_ne s f v (fnWin_add_ne (by decide) (by decide) (by decide)).symm)
    (rd_doorbellMarked_ne s f v (fnWin_add_ne (by decide) (by decide) (by decide)).symm)
    (rd_doorbellMarked_ne s f v (fnWin_add_ne (by decide) (by decide) (by decide)).symm)

theorem doorbellMarked_out (s : State) (f : Nat) (v : W32) : (doorbellMarked s f v).out = s.out := rfl

theorem doorbellMarked_fns (s : State) (f : Nat) (v : W32) : (doorbellMarked s f v).fns = s.fns := rfl

theorem doorbellMarked_cross_length (s : State) (f : Nat) (v : W32) :
    (doorbellMarked s f v).log.cross.length = s.log.cross.length + 1 := List.length_append

theorem doorbellMarked_frame (s : State) (f : Nat) (v : W32) : doorbellMarked s f v = { s with
    regs := (doorbellMarked s f v).regs, ctr := (doorbellMarked s f v).ctr, log := (doorbellMarked s f v).log } := rfl

theorem doorbellReject_eq (f : Nat) (v : W32) (s : State) :
    doorbellReject f v s = traceEv (raiseEvent (doorbellMarked s f v) f F.HI_MSIX_EVENT_MAP.DBERR_VEC F.HI_MSIX_EVENT_MAP.DBERR_EN)
      5 2 f none false (bytesLE 4 v.toNat) := rfl

theorem doorbellReject_signals (f : Nat) (v : W32) (s : State) : Signals f (doorbellMarked s f v) (doorbellReject f v s) :=
  (Signals.raiseEvent f _ _ _).trans (.of_traced f (traced_traceEv _ _ _ _ _ _ (by simp)))

theorem doorbellReject_log (f : Nat) (v : W32) (s : State) : (doorbellReject f v s).log = (doorbellMarked s f v).log := by
  rw [(doorbellReject_signals f v s).eq]

theorem doorbellReject_frame (f : Nat) (v : W32) (s : State) : doorbellReject f v s = { s with
    regs := (doorbellReject f v s).regs, ctr := (doorbellReject f v s).ctr, log := (doorbellReject f v s).log
    out := (doorbellReject f v s).out, fns := (doorbellReject f v s).fns, mem := (doorbellReject f v s).mem
    cache := (doorbellReject f v s).cache, trace := (doorbellReject f v s).trace } := by
  have h := (doorbellReject_signals f v s).eq
  rw [doorbellMarked_frame] at h
  rw [doorbellReject_log]
  exact h

theorem rd_doorbellReject_window (f : Nat) (v : W32) (s : State) {off : Nat} (h : off < 0x100000) :
    rd (doorbellReject f v s) (fnWin f + off) = rd (doorbellMarked s f v) (fnWin f + off) :=
  (doorbellReject_signals f v s).regs _ (mt List.mem_singleton.1 (fnWin_add_ne h (by decide) (by decide)))

theorem isSet_doorbellReject (f : Nat) (v : W32) (s : State) :
    isSet (doorbellReject f v s) (R.HI_FN_STATUS f) F.HI_FN_STATUS.DOORBELL_ERR := by
  rw [isSet, rb, rf, rd_doorbellReject_window f v s (by decide)]
  exact rb_sf_one s _ (by decide)

theorem doorbellReject_raised (f : Nat) (v : W32) {s : State}
    (hen : rb s (R.HI_MSIX_EVENT_MAP f) F.HI_MSIX_EVENT_MAP.DBERR_EN = true) :
    raised s (doorbellReject f v s) f (rf s (R.HI_MSIX_EVENT_MAP f) F.HI_MSIX_EVENT_MAP.DBERR_VEC) := by
  have hmap (fd : Fld) : rf (doorbellMarked s f v) (R.HI_MSIX_EVENT_MAP f) fd = rf s (R.HI_MSIX_EVENT_MAP f) fd :=
    congrArg (fun w => fld w fd.1 fd.2) (rd_doorbellMarked_ne s f v (fnWin_add_ne_add (by decide)))
  have event : raiseEvent (doorbellMarked s f v) f F.HI_MSIX_EVENT_MAP.DBERR_VEC F.HI_MSIX_EVENT_MAP.DBERR_EN =
      raiseVec (doorbellMarked s f v) f (rf s (R.HI_MSIX_EVENT_MAP f) F.HI_MSIX_EVENT_MAP.DBERR_VEC) := by
    rw [raiseEvent, rb, hmap, hmap]
    exact if_pos hen
  rw [doorbellReject_eq, event]
  exact raised_congr (raised_raiseVec (doorbellMarked s f v) f _) (doorbellMarked_out s f v).symm (doorbellMarked_fns s f v).symm
    (traceEv_out _ _ _ _ _ _ _) (traceEv_fns _ _ _ _ _ _ _)

/-- Settles O20: an accepted doorbell writes the tail and is traced; any other is marked, and the rest is the raising of its vector. -/
theorem doorbellJudged : Obligations.DoorbellJudged := by
  refine ⟨fun s f v ho hf he hh hhead htail => ?_, fun s f v ho hf hbad => ?_⟩ <;> rw [exec_doorbell_open ho]
  · rw [doorbellIn_of_ok hf ((doorbellOk_iff s f v.toNat).2 ⟨he, hh, hhead, htail⟩)]
    exact ⟨_, wr s (R.HI_RING_TAIL f) v, rfl, rd_wr_self s _ v, fun k hk => rd_wr_ne s v fun e => hk (List.mem_singleton.2 e), rfl,
      traced_traceEv _ _ _ _ _ _ (by simp)⟩
  · rw [doorbellIn_of_not_ok hf ((doorbellOk_eq_false_iff s f v.toNat).2 hbad)]
    obtain ⟨hregs, hctrs, hmem, hothers, -⟩ := doorbellReject_signals f v s
    rw [inTrace_doorbellMarked] at hmem
    refine ⟨_, rfl, isSet_doorbellReject f v s, fun _ => ?_, ?_, ?_, ?_, fun k hk => ?_, fun k hk => ?_, hothers, hmem,
      doorbellReject_frame f v s, doorbellReject_raised f v⟩
    · rw [hctrs _ (fnWin_add_not_mem_traceCtrs (by decide)), ctrGet_doorbellMarked, if_pos rfl]
    · rw [doorbellReject_log, doorbellMarked_cross_length]
    · rw [rd_doorbellReject_window f v s (by decide), rd_doorbellMarked_ne _ _ _ (fnWin_add_ne_add (by decide))]
    · rw [rd_doorbellReject_window f v s (by decide), rd_doorbellMarked_ne _ _ _ (fnWin_add_ne_add (by decide))]
    · simp only [List.mem_cons, List.not_mem_nil, or_false, not_or] at hk
      obtain ⟨hstatus, hwritten⟩ := hk
      rw [hregs k (mt List.mem_singleton.1 hwritten), rd_doorbellMarked_ne _ _ _ hstatus]
    · rw [List.mem_cons, not_or] at hk
      obtain ⟨hfn, htrace⟩ := hk
      rw [hctrs k htrace, ctrGet_doorbellMarked, if_neg hfn]

end Sys2Proof.Machine

namespace Sys2Proof.Machine

open Say

/-! ### Memory without errors stays so (R590)

No access meets an error where no line holds one, and no command of the copy engines, of the link or of the trace unit makes one. -/

section

variable {s : State}

/-- What stands behind `noErrors`: inline ECC, the memory's content, the error met and what is known of the lines. -/
theorem noErrors_of_eq {t : State} (hb : t.boot = s.boot) (hg : t.ramGen = s.ramGen) (hm : t.cache.met = s.cache.met)
    (he : t.cache.ecc = s.cache.ecc) (h : noErrors s) : noErrors t := by
  simpa only [noErrors, lineErr, hb, hg, hm, he] using h

theorem noErrors_wr (h : noErrors s) (k : Nat) (v : W32) : noErrors (wr s k v) := noErrors_of_eq rfl rfl rfl rfl h

theorem noErrors_bump (h : noErrors s) (k : Nat) : noErrors (bump s k) := noErrors_of_eq rfl rfl rfl rfl h

theorem noErrors_xl (h : noErrors s) (x : Xlate) : noErrors { s with xl := x } := noErrors_of_eq rfl rfl rfl rfl h

theorem noErrors_xl_out (h : noErrors s) (x : Xlate) (o : List OutEv) : noErrors { s with xl := x, out := o } :=
  noErrors_of_eq rfl rfl rfl rfl h

theorem noErrors_link (h : noErrors s) (x : Link) : noErrors { s with link := x } := noErrors_of_eq rfl rfl rfl rfl h

theorem noErrors_out (h : noErrors s) (o : List OutEv) : noErrors { s with out := o } := noErrors_of_eq rfl rfl rfl rfl h

theorem noErrors_trace (h : noErrors s) (x : Trace) : noErrors { s with trace := x } := noErrors_of_eq rfl rfl rfl rfl h

theorem lineErr_of_noErrors (h : noErrors s) (l : Nat) : lineErr s l = false := h.2 l

theorem noErrors_ite {c : Prop} [Decidable c] {t u : State} (ht : noErrors t) (hu : noErrors u) : noErrors (if c then t else u) := by
  split
  · exact ht
  · exact hu

theorem noErrors_foldl {α : Type} {g : State → α → State} (hg : ∀ u a, noErrors u → noErrors (g u a)) (l : List α)
    (h : noErrors s) : noErrors (l.foldl g s) :=
  List.foldlRecOn l g h fun u hu a _ => hg u a hu

/-! #### The cache -/

theorem noErrors_clearLine (h : noErrors s) (l : Nat) : noErrors (setLineErr s l false) := by
  obtain ⟨hmet, hlines⟩ := h
  unfold setLineErr
  split
  · refine ⟨hmet, fun k => ?_⟩
    by_cases hk : k = l
    · subst hk
      simp [lineErr, Tab.get, Tab.find_insert_self]
    · have hl := hlines k
      simpa only [lineErr, Tab.get, Tab.find_insert_ne _ _ hk] using hl
  · exact ⟨hmet, hlines⟩

theorem noErrors_place (h : noErrors s) (slice set way rank : Nat) (x : Option Way) :
    noErrors (rankMove (dirSet s slice set way x) slice set way rank) := noErrors_of_eq rfl rfl rfl rfl h

theorem noErrors_cacheFill (h : noErrors s) (l : Nat) (dirty prefetched : Bool) : noErrors (cacheFill s l dirty prefetched) := by
  have drawn (n : Tab Nat) : noErrors { s with cache := { s.cache with lfsr := n } } := noErrors_of_eq rfl rfl rfl rfl h
  unfold cacheFill
  dsimp only
  split
  · exact drawn _
  · refine noErrors_place ?_ _ _ _ _ _
    split
    · exact noErrors_ite (noErrors_bump (drawn _) _) (drawn _)
    · exact drawn _

/-- A demand access finds no error, so that it meets none. -/
theorem noErrors_cacheAccess (h : noErrors s) (al : Bool) (t : Touch) (l : Nat) : noErrors (cacheAccess s al t l) := by
  have start : noErrors (if t = .whole then setLineErr s l false else s) := noErrors_ite (noErrors_clearLine h l) h
  unfold cacheAccess
  generalize (if t = Touch.whole then setLineErr s l false else s) = u at start ⊢
  dsimp only
  split
  · exact noErrors_place (noErrors_ite (noErrors_bump (noErrors_bump start _) _) (noErrors_bump start _)) _ _ _ _ _
  · generalize (if (al && !(cacheWays u (lineSlice l)).isEmpty) = true then 0x400108 else 0x400118) = c
    have counted := noErrors_bump start c
    rw [lineErr_of_noErrors counted l, Bool.and_false, if_neg Bool.false_ne_true]
    exact noErrors_ite (noErrors_cacheFill counted l _ _) counted

theorem noErrors_freshNat (h : noErrors s) : noErrors (freshNat s).1 := noErrors_of_eq rfl rfl rfl rfl h

theorem noErrors_prefetchFill (h : noErrors s) (l : Nat) : noErrors (prefetchFill s l) := by
  rw [prefetchFill, lineErr_of_noErrors h l, if_neg Bool.false_ne_true]
  exact noErrors_bump (noErrors_cacheFill h l _ _) _

theorem noErrors_prefetchOne (h : noErrors s) (key l : Nat) : noErrors (prefetchOne s key l) :=
  noErrors_ite h (noErrors_ite (noErrors_bump (noErrors_freshNat h) _) (noErrors_prefetchFill (noErrors_freshNat h) l))

theorem noErrors_prefetchTrain (h : noErrors s) (req l : Nat) : noErrors (prefetchTrain s req l) :=
  noErrors_ite h (noErrors_foldl (fun _ k hu => noErrors_prefetchOne hu _ k) _ (noErrors_of_eq rfl rfl rfl rfl h))

theorem noErrors_touchRead (h : noErrors s) (req : Option Nat) (al : Bool) (a n : Nat) : noErrors (touchRead s req al a n) := by
  refine noErrors_foldl (fun u l hu => ?_) _ h
  have met := noErrors_cacheAccess hu al .read l
  cases req with
  | none => exact met
  | some r => exact noErrors_prefetchTrain met r l

theorem noErrors_touchWrite (h : noErrors s) (al : Bool) (a n : Nat) : noErrors (touchWrite s al a n) :=
  noErrors_foldl (fun _ l hu => noErrors_cacheAccess hu al _ l) _ h

/-! #### The trace unit and the translation caches -/

theorem noErrors_writeL (h : noErrors s) (a : Nat) (bs : List Byte) : noErrors (writeL s a bs) := by
  rw [writeL_eq]
  exact h

theorem noErrors_tracePut (h : noErrors s) (r : List Byte) : noErrors (tracePut s r) := by
  unfold tracePut
  exact noErrors_ite (noErrors_bump h _)
    (noErrors_bump (noErrors_wr (noErrors_writeL (noErrors_touchWrite h true _ 32) _ r) _ _) _)

theorem noErrors_traceEv (h : noErrors s) (point origin fn : Nat) (tag : Option Nat) (pencil : Bool) (data : List Byte) :
    noErrors (traceEv s point origin fn tag pencil data) :=
  noErrors_ite h (noErrors_tracePut (noErrors_trace h _) _)

theorem noErrors_localPut (h : noErrors s) (who : Nat) (t : TlbEntry) : noErrors (localPut s who t) :=
  noErrors_ite h (noErrors_xl h _)

theorem noErrors_sharedPut (h : noErrors s) (t : TlbEntry) : noErrors (sharedPut s t) := noErrors_xl h _

theorem noErrors_malformedMet (h : noErrors s) (f va : Nat) : noErrors (malformedMet s f va) := noErrors_of_eq rfl rfl rfl rfl h

theorem noErrors_touchWalk (h : noErrors s) (f va : Nat) : noErrors (touchWalk s f va) := by
  unfold touchWalk
  refine noErrors_ite h ?_
  split
  · exact h
  · next a _ =>
    have first : noErrors (if (walkHit s f va).isSome then s else touchRead s none true a 8) :=
      noErrors_ite h (noErrors_touchRead h none true a 8)
    exact noErrors_ite (noErrors_touchRead (noErrors_xl first _) none true _ 8) first

theorem noErrors_touchLeaf (h : noErrors s) (who f va : Nat) : noErrors (touchLeaf s who f va) := by
  have walked := noErrors_touchWalk h f va
  rw [touchLeaf]
  cases tlbFind s who f va with
  | some t => exact noErrors_ite (noErrors_localPut h who t) (noErrors_sharedPut h t)
  | none =>
    cases walk s f va with
    | none => exact walked
    | malformed => exact noErrors_malformedMet walked f va
    | leaf e n => exact noErrors_localPut (noErrors_sharedPut walked _) who _

theorem noErrors_touchVA (h : noErrors s) (who f va n : Nat) (job write : Bool) : noErrors (touchVA s who f va n job write) := by
  refine noErrors_foldl (fun u p hu => ?_) _ h
  have looked := noErrors_touchLeaf hu who f p.1
  dsimp only
  split
  · exact noErrors_ite (noErrors_touchWrite looked _ _ _) (noErrors_touchRead looked _ _ _ _)
  · exact looked

theorem noErrors_sendAts (h : noErrors s) (f a n engine pos va : Nat) (write : Bool) : noErrors (sendAts s f a n engine pos va write) :=
  noErrors_ite h (noErrors_xl_out h _ _)

/-! #### The sending side of the link -/

theorem noErrors_setPort (h : noErrors s) (p : Nat) (x : Port) : noErrors (setPort s p x) := noErrors_link h _

theorem noErrors_emitFlit (h : noErrors s) (p kind seq : Nat) (slots : List Byte) : noErrors (emitFlit s p kind seq slots) :=
  noErrors_out (noErrors_setPort h p _) _

theorem noErrors_sendFlits (p fuel : Nat) (bs : List Byte) (h : noErrors s) : noErrors (sendFlits s p fuel bs) := by
  induction fuel generalizing s bs with
  | zero => exact h
  | succ fuel ih => exact noErrors_ite h (ih _ (noErrors_bump (noErrors_setPort (noErrors_emitFlit h p 0 _ _) p _) _))

theorem noErrors_pump (p fuel : Nat) (h : noErrors s) : noErrors (pump s p fuel) := by
  induction fuel generalizing s with
  | zero => exact h
  | succ fuel ih =>
    refine noErrors_ite h ?_
    split
    · exact h
    · exact ih (noErrors_sendFlits p 32 _ (noErrors_setPort h p _))

theorem noErrors_portSend (h : noErrors s) (p : Nat) (m : List Byte) : noErrors (portSend s p m) :=
  noErrors_pump p _ (noErrors_setPort h p _)

theorem noErrors_putMsg (h : noErrors s) (dst : Nat) (m : List Byte) : noErrors (putMsg s dst m) := by
  unfold putMsg
  split
  · exact h
  · exact noErrors_portSend h _ _
  · exact noErrors_ite (noErrors_portSend h _ _) (noErrors_ite (noErrors_portSend h _ _)
      (noErrors_ite (noErrors_link h _) (noErrors_portSend (noErrors_link h _) _ _)))

theorem noErrors_launch (h : noErrors s) (r : RemoteReq) (p : Nat) : noErrors (launch s r p) :=
  noErrors_putMsg (noErrors_link (noErrors_traceEv h 49 4 r.fn _ false _) _) _ _

theorem noErrors_issueReqs (fuel : Nat) (h : noErrors s) : noErrors (issueReqs fuel s) := by
  induction fuel generalizing s with
  | zero => exact h
  | succ fuel ih =>
    rw [issueReqs]
    split
    · exact ih (noErrors_launch h _ _)
    · exact h

theorem noErrors_sendReq (h : noErrors s) (owner : Owner) (who dst type cls fn pos addr len va : Nat) (fields data : List Byte) :
    noErrors (sendReq s owner who dst type cls fn pos addr len va fields data) :=
  noErrors_issueReqs _ (noErrors_link h _)

/-! #### Accesses of the engines -/

theorem noErrors_askFor (h : noErrors s) (owner : Owner) (who engine cls f pos : Nat) (r : Range) (va n : Nat) :
    noErrors (askFor s owner who engine cls f pos r va n) := by
  have looked := noErrors_touchLeaf h who f va
  unfold askFor
  dsimp only
  split
  · exact noErrors_sendAts looked _ _ _ _ _ _ _
  · exact noErrors_ite looked (noErrors_foldl (fun _ _ hu => noErrors_ite hu (noErrors_sendReq hu _ _ _ _ _ _ _ _ _ _ _ _)) _ looked)
  · exact looked

theorem noErrors_askRanges (h : noErrors s) (owner : Owner) (who engine cls f pos : Nat) (rs : List Range) :
    noErrors (askRanges s owner who engine cls f pos rs) :=
  noErrors_foldl (fun _ r hu => noErrors_foldl (fun _ p hv => noErrors_askFor hv owner who engine cls f pos r p.1 p.2) _ hu) _ h

end
/-! ### What undefined bytes leave (R182, R590) -/

/-- Local and host memory alone have changed, and free values been drawn. -/
def memoriesOnly (s t : State) : Prop := t = { s with mem := t.mem, hmem := t.hmem, hrelaxed := t.hrelaxed, freeCtr := t.freeCtr }

theorem memoriesOnly_trans {s t u : State} (h : memoriesOnly s t) (g : memoriesOnly t u) : memoriesOnly s u := by
  unfold memoriesOnly at *
  rw [h] at g
  exact g

theorem memoriesOnly_foldl {α : Type} {s : State} {g : State → α → State} (hg : ∀ u a, memoriesOnly u (g u a)) (l : List α) :
    memoriesOnly s (l.foldl g s) :=
  List.foldlRecOn l g rfl fun u hu a _ => memoriesOnly_trans hu (hg u a)

theorem memoriesOnly_writeL (s : State) (a : Nat) (bs : List Byte) : memoriesOnly s (writeL s a bs) := by
  unfold memoriesOnly
  conv_lhs => rw [writeL_eq]
  conv_rhs => rw [writeL_eq]

theorem memoriesOnly_writeH (relaxed : Bool) (bs : List Byte) (s : State) (a : Nat) : memoriesOnly s (writeH s relaxed a bs) := by
  induction bs generalizing s a with
  | nil => rfl
  | cons b bs ih =>
    have put (m : Tab (Option Byte)) (r : Tab Bool) : memoriesOnly s { s with hmem := m, hrelaxed := r } := rfl
    exact memoriesOnly_trans (put _ _) (ih _ _)

theorem memoriesOnly_undefVA (s : State) (f va n : Nat) : memoriesOnly s (undefVA s f va n) := by
  unfold undefVA
  split
  · rfl
  · refine memoriesOnly_foldl (fun u p => ?_) _
    have drawn : memoriesOnly u { u with freeCtr := u.freeCtr + p.2 } := rfl
    dsimp only
    split
    · exact memoriesOnly_trans drawn (memoriesOnly_writeL _ _ _)
    · exact memoriesOnly_trans drawn (memoriesOnly_writeH _ _ _ _)
    · rfl

theorem memoriesOnly_undefPart (s : State) (x : Xfer) (p : Packet) (whole : Bool) : memoriesOnly s (undefPart s x p whole) := by
  unfold undefPart
  split
  · exact memoriesOnly_foldl (fun u r => memoriesOnly_undefVA u _ _ _) _
  · split
    · exact memoriesOnly_foldl (fun u r => memoriesOnly_undefVA u _ _ _) _
    · exact memoriesOnly_undefVA _ _ _ _

theorem memoriesOnly_noErrors {s t : State} (h : memoriesOnly s t) (hs : noErrors s) : noErrors t := by
  unfold memoriesOnly at h
  exact noErrors_of_eq (by rw [h]) (by rw [h]) (by rw [h]) (by rw [h]) hs

theorem memoriesOnly_eng {s t : State} (h : memoriesOnly s t) : t.eng = s.eng := by
  unfold memoriesOnly at h
  rw [h]

theorem memoriesOnly_rd {s t : State} (h : memoriesOnly s t) (k : Nat) : rd t k = rd s k := by
  unfold memoriesOnly at h
  rw [h]
  rfl

/-! ### Memory without errors while the copy engines work -/

section

variable {s : State}

theorem noErrors_lset (h : noErrors s) (a : Nat) (b : Byte) : noErrors (lset s a b) := noErrors_of_eq rfl rfl rfl rfl h

theorem noErrors_bumpBy (h : noErrors s) (k n : Nat) : noErrors (bumpBy s k n) := noErrors_of_eq rfl rfl rfl rfl h

theorem noErrors_setEng (h : noErrors s) (e : Nat) (g : Engine) : noErrors (setEng s e g) := noErrors_of_eq rfl rfl rfl rfl h

theorem noErrors_modXfer (h : noErrors s) (e : Nat) (x : Xfer) (g : Xfer → Xfer) : noErrors (modXfer s e x g) := noErrors_setEng h e _

theorem noErrors_drawn (h : noErrors s) (n : Nat) : noErrors { s with freeCtr := n } := noErrors_of_eq rfl rfl rfl rfl h

theorem noErrors_xlateRecord (h : noErrors s) (f va : Nat) (dst : Bool) (status pos : Nat) :
    noErrors (xlateRecord s f va dst status pos) :=
  noErrors_wr (noErrors_wr (noErrors_wr (noErrors_wr h _ _) _ _) _ _) _ _

theorem noErrors_vaWrite (h : noErrors s) (owner : Owner) (who cls f pos : Nat) (ws : List (Nat × Byte)) :
    noErrors (vaWrite s owner who cls f pos ws) := by
  unfold vaWrite
  refine noErrors_ite h (noErrors_foldl (fun u run hu => ?_) _ ?_)
  · split
    · exact hu
    · exact noErrors_sendReq hu _ _ _ _ _ _ _ _ _ _ _ _
  · refine List.foldlRecOn (motive := fun x : State × List PodByte => noErrors x.1) ws _ h fun x hx w _ => ?_
    split
    · exact noErrors_lset hx _ _
    · exact memoriesOnly_noErrors (memoriesOnly_writeH _ _ _ _) hx
    · exact hx
    · exact hx

theorem noErrors_forgetRemote (h : noErrors s) (who f : Nat) (rs : List Range) : noErrors (forgetRemote s who f rs) :=
  noErrors_ite h (noErrors_link h _)

theorem noErrors_sendGroup (h : noErrors s) (g : PrgGroup) : noErrors (sendGroup s g) :=
  noErrors_ite h (noErrors_traceEv (noErrors_wr (noErrors_xl_out h _ _) _ _) 30 6 g.fn none false _)

theorem noErrors_xferFails (h : noErrors s) (e : Nat) (x : Xfer) (p : Packet) (st result va : Nat) (write : Bool) :
    noErrors (xferFails s e x p st result va write) :=
  noErrors_xl (noErrors_modXfer (memoriesOnly_noErrors (memoriesOnly_undefPart _ x p false)
    (noErrors_ite (noErrors_xlateRecord h _ _ _ _ _) h)) _ _ _) _

theorem noErrors_xferBlocked (h : noErrors s) (e : Nat) (x : Xfer) (p : Packet) (va n : Nat) (write : Bool) (k : XAcc) :
    noErrors (xferBlocked s e x p va n write k) := by
  have looked := noErrors_touchLeaf h (16 + e) x.fn va
  cases k with
  | ok => exact looked
  | ats a m => exact noErrors_modXfer (noErrors_sendAts looked _ _ _ _ _ _ _) _ _ _
  | hold => exact noErrors_modXfer looked _ _ _
  | remote => exact noErrors_modXfer (noErrors_askRanges looked _ _ _ _ _ _ _) _ _ _
  | deny as => exact noErrors_modXfer (noErrors_sendGroup (noErrors_xl looked _) _) _ _ _
  | again => exact noErrors_xferFails (noErrors_wr looked _ _) _ _ _ _ _ _ _
  | fails st => exact noErrors_xferFails looked _ _ _ _ _ _ _

theorem noErrors_xferRead (h : noErrors s) (e : Nat) (x : Xfer) (va n : Nat) : noErrors (xferRead s e x va n).1 :=
  noErrors_bumpBy (noErrors_forgetRemote (noErrors_touchVA h _ _ _ _ _ _) _ _ _) _ _

theorem noErrors_xferWrite (h : noErrors s) (e : Nat) (x : Xfer) (va : Nat) (bs : List Byte) : noErrors (xferWrite s e x va bs) :=
  noErrors_bumpBy (noErrors_vaWrite (noErrors_touchVA h _ _ _ _ _ _) _ _ _ _ _ _) _ _

theorem noErrors_tookSource (h : noErrors s) (e : Nat) (x : Xfer) (p : Packet) (bs : List Byte) : noErrors (tookSource s e x p bs) :=
  noErrors_ite (noErrors_modXfer (noErrors_drawn h _) _ _ _) (noErrors_modXfer h _ _ _)

theorem noErrors_advance (e fuel : Nat) (h : noErrors s) : noErrors (advance e fuel s) := by
  induction fuel generalizing s with
  | zero => exact h
  | succ fuel ih =>
    unfold advance
    cases (getEng s e).running with
    | none => exact h
    | some x =>
      refine noErrors_ite h ?_
      cases getPkt s x.fn x.pos with
      | none => exact h
      | some p =>
        dsimp only
        cases nextMove s (16 + e) x p with
        | copy a b n =>
          dsimp only
          split
          · split
            · exact ih (noErrors_modXfer (noErrors_xferWrite (noErrors_xferRead h e x a n) e x b _) _ _ _)
            · exact noErrors_xferBlocked (noErrors_touchLeaf h _ _ _) _ _ _ _ _ _ _
          · exact noErrors_xferBlocked h _ _ _ _ _ _ _
        | put b bs =>
          dsimp only
          split
          · exact ih (noErrors_modXfer (noErrors_xferWrite h e x b bs) _ _ _)
          · exact noErrors_xferBlocked h _ _ _ _ _ _ _
        | read a n =>
          dsimp only
          split
          · exact ih (noErrors_tookSource (noErrors_xferRead h e x a n) e x p _)
          · exact noErrors_xferBlocked h _ _ _ _ _ _ _
        | trial => exact noErrors_modXfer h _ _ _
        | finish r => exact noErrors_modXfer h _ _ _
        | codec st r =>
          exact noErrors_modXfer (memoriesOnly_noErrors (memoriesOnly_undefPart _ x p true)
            (noErrors_ite (noErrors_freshNat h) h)) _ _ _

theorem noErrors_startXfer (h : noErrors s) (e : Nat) (q : Nat × Nat) : noErrors (startXfer s e q) := by
  have bound : noErrors (applyRwb s (fun k => k == R.CE_ENG_n_CTRL e)) := noErrors_of_eq rfl rfl rfl rfl h
  have started (u : State) (hu : noErrors u) (f pos : Nat) : noErrors (startPkt u f pos) := noErrors_of_eq rfl rfl rfl rfl hu
  exact noErrors_traceEv (started _ (noErrors_setEng bound e _) q.1 q.2) 28 6 q.1 _ false _

theorem noErrors_runEng (h : noErrors s) (e : Nat) : noErrors (runEng s e) := by
  unfold runEng
  split
  · exact h
  · exact noErrors_advance e _ h

theorem noErrors_kick (e fuel : Nat) (h : noErrors s) : noErrors (kick e fuel s) := by
  induction fuel generalizing s with
  | zero => exact h
  | succ fuel ih =>
    unfold kick
    dsimp only
    split
    · refine noErrors_ite (ih (noErrors_runEng h e)) (noErrors_ite h (noErrors_ite (ih (noErrors_setEng h e _)) ?_))
      split
      · exact ih (noErrors_runEng (noErrors_setEng h e _) e)
      · exact h
    · split
      · exact ih (noErrors_runEng (noErrors_setEng h e _) e)
      · split
        · exact ih (noErrors_runEng (noErrors_startXfer h e _) e)
        · exact h

theorem noErrors_kickEng (h : noErrors s) (e : Nat) : noErrors (kickEng s e) := noErrors_kick e _ h

theorem noErrors_resumeXfer (h : noErrors s) (e : Nat) (x : Xfer) (restart : Bool) : noErrors (resumeXfer s e x restart) :=
  noErrors_kickEng (noErrors_modXfer h _ _ _) e

theorem noErrors_resumeHolds (h : noErrors s) : noErrors (resumeHolds s) := by
  refine noErrors_foldl (fun u e hu => ?_) _ h
  split
  · exact noErrors_ite (noErrors_resumeXfer hu e _ false) hu
  · exact hu

theorem noErrors_atsArrived (h : noErrors s) (e : Nat) (x : Xfer) : noErrors (atsArrived s e x) := by
  unfold atsArrived
  refine noErrors_ite h ?_
  dsimp only
  split
  · exact h
  · split
    · exact noErrors_ite (noErrors_xferBlocked h _ _ _ _ _ _ _) (noErrors_resumeXfer h e x false)
    · exact noErrors_resumeXfer (noErrors_modXfer h _ _ _) e x _

theorem noErrors_wakeXfers (h : noErrors s) : noErrors (wakeXfers s) :=
  noErrors_foldl (fun _ e hu => noErrors_foldl (fun _ x hv => noErrors_atsArrived hv e x) _ hu) _ h

theorem raiseMet_of_noErrors (h : noErrors s) : raiseMet s = s := by
  obtain ⟨hmet, -⟩ := h
  rw [raiseMet, hmet]

end
/-! ### A transfer found and failed (R181) -/

theorem findXfer_congr {s t : State} (h : t.eng = s.eng) (e f pos : Nat) : findXfer t e f pos = findXfer s e f pos := by
  simp only [findXfer, getEng, h]

theorem getPkt_congr {s t : State} (h : t.fns = s.fns) (f pos : Nat) : getPkt t f pos = getPkt s f pos := by
  simp only [getPkt, getFn, h]

theorem findXfer_spec {s : State} {e f pos : Nat} {x : Xfer} (h : findXfer s e f pos = some x) : x.fn = f ∧ x.pos = pos := by
  have found := List.find?_some h
  simpa only [Bool.and_eq_true, beq_iff_eq] using found

/-- A change that keeps each transfer's packet changes the transfer found. -/
theorem findXfer_modXfer {s : State} {e f pos : Nat} {z : Xfer} {g : Xfer → Xfer} (hz : z.fn = f ∧ z.pos = pos)
    (hg : ∀ y, (g y).fn = y.fn ∧ (g y).pos = y.pos) : findXfer (modXfer s e z g) e f pos = (findXfer s e f pos).map g := by
  obtain ⟨rfl, rfl⟩ := hz
  have same : ((fun y : Xfer => y.fn == z.fn && y.pos == z.pos) ∘ fun y => if y.fn == z.fn && y.pos == z.pos then g y else y) =
      fun y => y.fn == z.fn && y.pos == z.pos := by
    funext y
    obtain ⟨hf, hp⟩ := hg y
    dsimp only [Function.comp]
    split <;> simp only [hf, hp]
  have moved (n : Engine) (m : Xfer → Xfer) : (n.running.map m).toList ++ n.held.map m = (n.running.toList ++ n.held).map m := by
    cases n.running <;> simp
  rw [findXfer, modXfer, getEng, setEng, Tab.get_set_self]
  dsimp only
  rw [moved, List.find?_map, same]
  refine Option.map_congr fun y hy => if_pos ?_
  have found := List.find?_some hy
  exact found

theorem xferFailed_congr {s t : State} {e f pos status : Nat} (h : t.eng = s.eng) (hs : xferFailed s e f pos status) :
    xferFailed t e f pos status := by
  rw [xferFailed, findXfer_congr h]
  exact hs

theorem bump32_eng (s : State) (k : Nat) : (bump32 s k).eng = s.eng := rfl

theorem bump32_fns (s : State) (k : Nat) : (bump32 s k).fns = s.fns := rfl

theorem dropXferRequests_eng (s : State) (e : Nat) (x : Xfer) : (dropXferRequests s e x).eng = s.eng := rfl

theorem rd_dropXferRequests (s : State) (e k : Nat) (x : Xfer) : rd (dropXferRequests s e x) k = rd s k := rfl

theorem rd_modXfer (s : State) (e k : Nat) (x : Xfer) (g : Xfer → Xfer) : rd (modXfer s e x g) k = rd s k := rfl

theorem xlateRecord_eng (s : State) (f va : Nat) (dst : Bool) (status pos : Nat) : (xlateRecord s f va dst status pos).eng = s.eng := by
  simp -implicitDefEqProofs [xlateRecord]

theorem xferFails_failed {s : State} {e f pos : Nat} {x : Xfer} (h : findXfer s e f pos = some x) (p : Packet) (st result va : Nat)
    (write : Bool) : xferFailed (xferFails s e x p st result va write) e f pos st := by
  unfold xferFails
  dsimp only
  have before : (undefPart (if [St.PAGE_FAULT_UNRESOLVED, St.TRANSLATION_TIMEOUT, St.REMOTE_REFUSED].contains st then
      xlateRecord s x.fn va write st x.pos else s) x p false).eng = s.eng := by
    rw [memoriesOnly_eng (memoriesOnly_undefPart _ x p false)]
    split
    · exact xlateRecord_eng _ _ _ _ _ _
    · rfl
  generalize undefPart _ x p false = u at before
  refine ⟨{ x with phase := .failed, status := st, result := result }, ?_, rfl, rfl⟩
  rw [findXfer_congr (dropXferRequests_eng _ e x), findXfer_modXfer (findXfer_spec h) ?_, findXfer_congr before, h]
  · rfl
  · exact fun _ => ⟨rfl, rfl⟩

/-- A failed transfer writes no register but its function's translation fault record. -/
theorem rd_xferFails (s : State) (e : Nat) (x : Xfer) (p : Packet) (st result va : Nat) (write : Bool) {k : Nat}
    (hk : 0x100000 ≤ k) (hk' : k < 0x1000000) : rd (xferFails s e x p st result va write) k = rd s k := by
  have apart {off : Nat} (ho : off < 0x100000) : k ≠ fnWin x.fn + off := (fnWin_add_ne ho hk hk').symm
  unfold xferFails
  dsimp only
  rw [rd_dropXferRequests, rd_modXfer, memoriesOnly_rd (memoriesOnly_undefPart _ x p false)]
  split
  · rw [xlateRecord, rd_wr_ne _ _ (apart (by decide)), rd_wr_ne _ _ (apart (by decide)), rd_wr_ne _ _ (apart (by decide)),
      rd_wr_ne _ _ (apart (by decide))]
  · rfl

/-! ### Page request groups (R176 to R178, R183) -/

/-- What sending groups leaves: no engine, no function, and no register but the count of requests and the trace unit's. -/
def groupsSent (s t : State) : Prop := t.eng = s.eng ∧ regsKept s t [R.MT_PRI_REQUESTS, R.FL_TRACE_WRITTEN]

theorem traceEv_eng (s : State) (point origin fn : Nat) (tag : Option Nat) (pencil : Bool) (data : List Byte) :
    (traceEv s point origin fn tag pencil data).eng = s.eng := by rw [traceEv_eq]

theorem groupsSent_sendGroup (s : State) (g : PrgGroup) : groupsSent s (sendGroup s g) := by
  unfold sendGroup
  dsimp only
  split
  · exact ⟨rfl, fun _ _ => rfl⟩
  · refine ⟨traceEv_eng _ _ _ _ _ _ _, fun k hk => ?_⟩
    simp only [List.mem_cons, List.not_mem_nil, or_false, not_or] at hk
    obtain ⟨hreq, htrace⟩ := hk
    exact (rd_traceEv _ _ _ _ _ _ _ htrace).trans (rd_wr_ne _ _ hreq)

theorem groupsSent_pumpGroups (s : State) (e : Nat) : groupsSent s (pumpGroups s e) := by
  refine List.foldlRecOn _ sendGroup ⟨rfl, fun _ _ => rfl⟩ fun u hu g _ => ?_
  obtain ⟨heng, hregs⟩ := hu
  obtain ⟨geng, gregs⟩ := groupsSent_sendGroup u g
  exact ⟨geng.trans heng, fun k hk => (gregs k hk).trans (hregs k hk)⟩

theorem pumpGroups_eng (s : State) (e : Nat) : (pumpGroups s e).eng = s.eng := (groupsSent_pumpGroups s e).1

theorem rd_pumpGroups_failures (s : State) (e : Nat) : rd (pumpGroups s e) R.MT_PRI_FAILURES = rd s R.MT_PRI_FAILURES :=
  (groupsSent_pumpGroups s e).2 _ (by decide)

theorem toNat_satAdd_top32 (a n : Nat) : (BitVec.ofNat 32 (satAdd top32 a n)).toNat = satAdd top32 a n := by
  have le := satAdd_le top32 a n
  rw [BitVec.toNat_ofNat, Nat.mod_eq_of_lt]
  exact Nat.lt_of_le_of_lt le (by decide)

theorem groupFails_eq {s : State} {g : PrgGroup} {x : Xfer} {p : Packet} (hx : findXfer s g.engine g.fn g.pos = some x)
    (hp : getPkt s g.fn g.pos = some p) :
    groupFails s g = xferFails (bump32 s R.MT_PRI_FAILURES) g.engine x p St.PAGE_FAULT_UNRESOLVED x.cursor g.va g.write := by
  rw [groupFails, findXfer_congr (bump32_eng _ _), getPkt_congr (bump32_fns _ _), hx, hp]

/-- A group that fails fails its transfer, and is counted. -/
theorem groupFails_failed (s : State) {g : PrgGroup} {x : Xfer} {p : Packet} (hx : findXfer s g.engine g.fn g.pos = some x)
    (hp : getPkt s g.fn g.pos = some p) :
    xferFailed (groupFails s g) g.engine g.fn g.pos St.PAGE_FAULT_UNRESOLVED ∧
      (rd (groupFails s g) R.MT_PRI_FAILURES).toNat = satAdd top32 (rd s R.MT_PRI_FAILURES).toNat 1 := by
  rw [groupFails_eq hx hp]
  refine ⟨xferFails_failed ((findXfer_congr (bump32_eng _ _) _ _ _).trans hx) p _ _ _ _, ?_⟩
  rw [rd_xferFails _ _ _ _ _ _ _ _ (by decide) (by decide), bump32, rd_wr_self, toNat_satAdd_top32]

theorem xl_eng (s : State) (x : Xlate) : ({ s with xl := x } : State).eng = s.eng := rfl

theorem xl_fns (s : State) (x : Xlate) : ({ s with xl := x } : State).fns = s.fns := rfl

theorem sendAts_eng (s : State) (f a n engine pos va : Nat) (write : Bool) : (sendAts s f a n engine pos va write).eng = s.eng := by
  rw [sendAts]
  split <;> rfl

/-- The last group of a transfer succeeds: it waits for translations, and its pages have been asked for. -/
theorem groupSucceeds_waits {s : State} {g : PrgGroup} {x : Xfer} (hx : findXfer s g.engine g.fn g.pos = some x) (hm : g.more = []) :
    findXfer (groupSucceeds s g) g.engine g.fn g.pos = some { x with asked := x.asked ++ g.pages, phase := .waitAts } := by
  have spec := findXfer_spec hx
  unfold groupSucceeds
  rw [hx]
  dsimp only
  rw [if_neg (by simp [hm]), findXfer_modXfer spec ?_, findXfer_congr (sendAts_eng _ _ _ _ _ _ _ _),
    findXfer_congr (xl_eng _ _), findXfer_modXfer spec ?_, hx]
  · rfl
  · exact fun _ => ⟨rfl, rfl⟩
  · exact fun _ => ⟨rfl, rfl⟩

theorem exec_prgResponse_failed {s : State} {i code : Nat} {g : PrgGroup} (hg : findGroup s i = some g) (hd : g.dead = false)
    (hc : code ≠ 0) : exec (.prgResponse i code) s = .next (pumpGroups (groupFails (dropGroup
      (traceEv s 31 6 g.fn none false (bytesLE 1 g.engine ++ bytesLE 1 code)) g) g) g.engine) := by
  show execPrgResponse i code s = _
  rw [execPrgResponse, hg]
  dsimp only
  rw [if_neg (by simp [hd]), if_neg hc]

theorem exec_prgResponse_success {s : State} {i : Nat} {g : PrgGroup} (hg : findGroup s i = some g) (hd : g.dead = false)
    (hm : g.more = []) : exec (.prgResponse i 0) s = .next (pumpGroups (dropGroup (groupSucceeds
      (traceEv s 31 6 g.fn none false (bytesLE 1 g.engine ++ bytesLE 1 0)) g) g) g.engine) := by
  show execPrgResponse i 0 s = _
  rw [execPrgResponse, hg]
  dsimp only
  rw [if_neg (by simp [hd]), if_pos rfl, if_pos (by simp [hm])]

theorem exec_priTimeout_live {s : State} {i : Nat} {g : PrgGroup} (hg : findGroup s i = some g) (hd : g.dead = false) :
    exec (.priTimeout i) s = .next (pumpGroups (groupFails { s with xl := { s.xl with
      groups := s.xl.groups.map (fun h => if h = g then { h with dead := true } else h) } } g) g.engine) := by
  show execPriTimeout i s = _
  rw [execPriTimeout, hg]
  dsimp only
  rw [if_neg (by simp [hd])]

theorem prgResponse_fails {s : State} {i code : Nat} {g : PrgGroup} {x : Xfer} {p : Packet} (hg : findGroup s i = some g)
    (hd : g.dead = false) (hc : code ≠ 0) (hx : findXfer s g.engine g.fn g.pos = some x) (hp : getPkt s g.fn g.pos = some p) :
    ∃ t, exec (.prgResponse i code) s = .next t ∧ xferFailed t g.engine g.fn g.pos St.PAGE_FAULT_UNRESOLVED ∧
      (rd t R.MT_PRI_FAILURES).toNat = satAdd top32 (rd s R.MT_PRI_FAILURES).toNat 1 := by
  obtain ⟨failed, counted⟩ := groupFails_failed
    (dropGroup (traceEv s 31 6 g.fn none false (bytesLE 1 g.engine ++ bytesLE 1 code)) g)
    ((findXfer_congr (traceEv_eng _ _ _ _ _ _ _) _ _ _).trans hx) ((getPkt_congr (traceEv_fns _ _ _ _ _ _ _) _ _).trans hp)
  refine ⟨_, exec_prgResponse_failed hg hd hc, xferFailed_congr (pumpGroups_eng _ _) failed, ?_⟩
  rw [rd_pumpGroups_failures, counted]
  exact congrArg (fun w : W32 => satAdd top32 w.toNat 1) (rd_traceEv _ _ _ _ _ _ _ (by decide))

theorem prgResponse_resumes {s : State} {i : Nat} {g : PrgGroup} {x : Xfer} (hg : findGroup s i = some g) (hd : g.dead = false)
    (hm : g.more = []) (hx : findXfer s g.engine g.fn g.pos = some x) :
    ∃ t y, exec (.prgResponse i 0) s = .next t ∧ findXfer t g.engine g.fn g.pos = some y ∧ y.phase = .waitAts ∧
      y.asked = x.asked ++ g.pages :=
  ⟨_, _, exec_prgResponse_success hg hd hm, (findXfer_congr (pumpGroups_eng _ _) _ _ _).trans (groupSucceeds_waits
    ((findXfer_congr (traceEv_eng _ _ _ _ _ _ _) _ _ _).trans hx) hm), rfl, rfl⟩

theorem priTimeout_fails {s : State} {i : Nat} {g : PrgGroup} {x : Xfer} {p : Packet} (hg : findGroup s i = some g)
    (hd : g.dead = false) (hx : findXfer s g.engine g.fn g.pos = some x) (hp : getPkt s g.fn g.pos = some p) :
    ∃ t, exec (.priTimeout i) s = .next t ∧ xferFailed t g.engine g.fn g.pos St.PAGE_FAULT_UNRESOLVED := by
  obtain ⟨failed, -⟩ := groupFails_failed { s with xl := { s.xl with
    groups := s.xl.groups.map (fun h => if h = g then { h with dead := true } else h) } } hx hp
  exact ⟨_, exec_priTimeout_live hg hd, xferFailed_congr (pumpGroups_eng _ _) failed⟩

/-! ### Device invalidation (R171, R172) -/

theorem traced_refl (s : State) : traced s s := ⟨fun _ _ => rfl, fun _ _ => rfl, fun _ _ => rfl, rfl⟩

theorem exec_invalidate_open {s : State} (ho : hostOpen s) (hd : bootDone s = true) :
    exec .invalidate s = .next (invalidateIn s) := by
  show execInvalidate s = _
  rw [execInvalidate, tlp_open ho, gate_done s _ _ hd]

theorem noneLeft_dropLeaves (s : State) (q : Nat × Bool × Nat × Nat) : noneLeft (dropLeaves s q) q := by
  have kept {l : List TlbEntry} {x : TlbEntry} (hx : x ∈ l.filter fun t => !invalCovers q t.fn t.va (2 ^ t.log2)) :
      invalCovers q x.fn x.va (2 ^ x.log2) = false := by
    have h := List.of_mem_filter hx
    simpa only [Bool.not_eq_true'] using h
  refine ⟨fun e he x hx => ?_, fun e he x hx => ?_, fun x hx => kept hx⟩ <;>
  · obtain ⟨d, -, rfl⟩ := List.mem_map.1 (List.mem_of_mem_filter he)
    exact kept hx

/-- What an accepted INVALIDATE leaves before it is traced. -/
def invalidated (s : State) : State := dropLeaves { s with xl := { s.xl with inval := some (invalRange s) } } (invalRange s)

theorem invalidateIn_start {s : State} (h : s.xl.inval = none) : traced (invalidated s) (invalidateIn s) := by
  rw [invalidateIn, h, Option.isSome_none, if_neg Bool.false_ne_true]
  exact traced_traceEv _ _ _ _ _ _ (by simp)

theorem invalidateIn_busy {s : State} (h : s.xl.inval ≠ none) : invalidateIn s = bump32 s R.HI_WRITE_REJECT := by
  rw [invalidateIn, if_pos (Option.isSome_iff_ne_none.2 h)]
  rfl

theorem exec_invalidationComplete {s : State} {q : Nat × Bool × Nat × Nat} (h : s.xl.inval = some q) :
    exec .invalidationComplete s = .next (if invalHeld s q || invalBusy s q then s else
      traceEv { s with xl := { s.xl with inval := none } } 36 3 q.1 none false (bytesLE 1 q.1 ++ bytesLE 4 (q.2.2.2 / 2 ^ 21))) := by
  show execInvalidationComplete s = _
  rw [execInvalidationComplete, h]

theorem invalidationComplete_waits {s : State} {q : Nat × Bool × Nat × Nat} (h : s.xl.inval = some q) :
    (invalHeld s q = false → invalBusy s q = false →
      ∃ t u, exec .invalidationComplete s = .next t ∧ u = { s with xl := { s.xl with inval := none } } ∧ traced u t) ∧
    (invalHeld s q = true ∨ invalBusy s q = true → exec .invalidationComplete s = .next s) := by
  rw [exec_invalidationComplete h]
  refine ⟨fun held busy => ?_, fun waits => ?_⟩
  · rw [held, busy, Bool.or_false, if_neg Bool.false_ne_true]
    exact ⟨_, _, rfl, rfl, traced_traceEv _ _ _ _ _ _ (by simp)⟩
  · rw [if_pos (Bool.or_eq_true_iff.2 waits)]

/-! ### ATS invalidations (R163, R173, log entry 105) -/

theorem exec_atsInvalidateRequest_full {s : State} (f a n tag : Nat) (h : 32 ≤ s.xl.invals.length) :
    exec (.atsInvalidateRequest f a n tag) s = .next s := by
  show execAtsInvalidateRequest f a n tag s = _
  rw [execAtsInvalidateRequest, if_pos (show invalidateQueueDepth ≤ _ from h)]

theorem exec_atsInvalidateRequest_unused {s : State} {f a n : Nat} (tag : Nat) (hl : s.xl.invals.length < 32)
    (hu : atsUsers s f (a / 2 ^ n * 2 ^ n) (2 ^ n) = []) : exec (.atsInvalidateRequest f a n tag) s = .next { s with xl := { s.xl with
      atc := s.xl.atc.filter (fun t => !t.within f (a / 2 ^ n * 2 ^ n) (2 ^ n))
      invals := s.xl.invals ++ [⟨f, a / 2 ^ n * 2 ^ n, n, tag, false, []⟩] } } := by
  show execAtsInvalidateRequest f a n tag s = _
  rw [execAtsInvalidateRequest, if_neg (show ¬ invalidateQueueDepth ≤ _ from Nat.not_le.2 hl)]
  dsimp only
  rw [hu]
  rfl

theorem exec_atsInvalidateRequest_held {s : State} {f a n : Nat} (tag : Nat) {l : List Nat} (hl : s.xl.invals.length < 32)
    (hu : atsUsers s f (a / 2 ^ n * 2 ^ n) (2 ^ n) = l) (hne : l ≠ []) :
    exec (.atsInvalidateRequest f a n tag) s = .next (traceEv { s with xl := { s.xl with
      invals := s.xl.invals ++ [⟨f, a / 2 ^ n * 2 ^ n, n, tag, true, l⟩] } } 37 2 f none false [1]) := by
  have hold : (!l.isEmpty) = true := by simpa using hne
  show execAtsInvalidateRequest f a n tag s = _
  rw [execAtsInvalidateRequest, if_neg (show ¬ invalidateQueueDepth ≤ _ from Nat.not_le.2 hl)]
  dsimp only
  rw [hu, hold, if_pos rfl, if_pos rfl]

/-- Only a held invalidation of the function stops an access. -/
theorem xlate_hold {s : State} {who f va : Nat} {let_ w : Bool} (h : xlate s who f va let_ w = .hold) :
    ∃ q ∈ s.xl.invals, q.held = true ∧ q.fn = f := by
  have held {a : Nat} (ha : heldFrom s who f a = true) : ∃ q ∈ s.xl.invals, q.held = true ∧ q.fn = f := by
    obtain ⟨q, hq, covers⟩ := List.any_eq_true.1 ha
    simp only [Bool.and_eq_true, beq_iff_eq] at covers
    obtain ⟨⟨⟨hheld, hfn⟩, -⟩, -⟩ := covers
    exact ⟨q, hq, hheld, hfn⟩
  unfold xlate at h
  split at h
  · cases h
  split at h
  · cases h
  · cases h
  · next e n _ =>
    generalize (if w = true then nbit e 3 else nbit e 2) = permitted at h
    cases permitted with
    | false => cases h
    | true =>
      dsimp only at h
      rw [if_neg (by decide)] at h
      split at h
      · cases h
      · cases h
      · split at h
        · cases h
        · split at h
          · next stopped =>
            rw [Bool.and_eq_true] at stopped
            obtain ⟨-, stopped⟩ := stopped
            exact held stopped
          · split at h
            · cases h
            · next t _ =>
              generalize (if w = true then t.w else t.r) = granted at h
              cases granted <;> cases h

/-- What sending the completion of an ATS invalidation leaves: the request is gone, and its entries with it. -/
def atsInvalSent (s : State) (q : AtsInval) : State :=
  { s with
    xl := { s.xl with invals := s.xl.invals.erase q, atc := s.xl.atc.filter (fun t => !t.within q.fn q.addr (2 ^ q.log2)) }
    out := s.out ++ [.atsInvalDone q.fn q.tag] }

theorem exec_atsInvalidateCompletion {s : State} {tag : Nat} {q : AtsInval} (h : s.xl.invals.find? (fun q => q.tag == tag) = some q) :
    exec (.atsInvalidateCompletion tag) s = .next (if q.held && atsInUse s q then s else
      raiseMet (resumeHolds (if q.held then traceEv (atsInvalSent s q) 37 2 q.fn none false [0] else atsInvalSent s q))) := by
  show execAtsInvalidateCompletion tag s = _
  rw [execAtsInvalidateCompletion, h]
  rfl

theorem atsInvalidateCompletion_ends {s : State} {tag : Nat} {q : AtsInval} (hs : noErrors s)
    (h : s.xl.invals.find? (fun q => q.tag == tag) = some q) (hfree : q.held = false ∨ atsInUse s q = false) :
    ∃ t u v, exec (.atsInvalidateCompletion tag) s = .next t ∧ t = resumeHolds v ∧ traced u v ∧
      u.xl.invals = s.xl.invals.erase q ∧ (∀ x ∈ u.xl.atc, x.within q.fn q.addr (2 ^ q.log2) = false) ∧
      u.out = s.out ++ [.atsInvalDone q.fn q.tag] ∧ u = { s with xl := u.xl, out := u.out } := by
  rw [exec_atsInvalidateCompletion h, if_neg (by simpa only [Bool.and_eq_true, not_and_or, Bool.not_eq_true] using hfree)]
  have sent : noErrors (atsInvalSent s q) := noErrors_xl_out hs _ _
  have resumed (held : Bool) : noErrors (resumeHolds
      (if held then traceEv (atsInvalSent s q) 37 2 q.fn none false [0] else atsInvalSent s q)) :=
    noErrors_resumeHolds (noErrors_ite (noErrors_traceEv sent _ _ _ _ _ _) sent)
  refine ⟨_, atsInvalSent s q, _, rfl, raiseMet_of_noErrors (resumed q.held), ?_, rfl, fun x hx => ?_, rfl, rfl⟩
  · split
    · exact traced_traceEv _ _ _ _ _ _ (by simp)
    · exact traced_refl _
  · have away := List.of_mem_filter hx
    simpa only [Bool.not_eq_true'] using away

theorem atsInvalidateCompletion_waits {s : State} {tag : Nat} {q : AtsInval} (h : s.xl.invals.find? (fun q => q.tag == tag) = some q)
    (hheld : q.held = true) (huse : atsInUse s q = true) : exec (.atsInvalidateCompletion tag) s = .next s := by
  rw [exec_atsInvalidateCompletion h, hheld, huse]
  rfl

/-! ### Translation completions (R162, R168, Table 6.6) -/

/-- The state whose transfers a translation of 2^n bytes, 4 KiB or more, wakes: it has answered its requests, and the ATC holds it. -/
def translationHeld (s : State) (f a n target : Nat) (r w : Bool) : State :=
  atcPut (answerReqs s f (a / 2 ^ n * 2 ^ n) n) ⟨f, a / 2 ^ n * 2 ^ n, n, target / 2 ^ n * 2 ^ n, r, w⟩

theorem exec_atsTranslationCompletion_ok {s : State} {f a n target : Nat} {r w : Bool} (h : ∃ q ∈ s.xl.reqs, q.awaits f a = true) :
    exec (.atsTranslationCompletion f a true n target r w) s =
      .next (raiseMet (wakeXfers (translationHeld s f a (max 12 n) target r w))) := by
  show execAtsTranslationCompletion f a true n target r w s = _
  rw [execAtsTranslationCompletion, List.any_eq_true.2 h, translationHeld, if_neg (by decide), if_neg (by decide)]

theorem exec_atsTranslationCompletion_unasked {s : State} {f a : Nat} (ok : Bool) (n target : Nat) (r w : Bool)
    (h : ∀ q ∈ s.xl.reqs, q.awaits f a = false) : exec (.atsTranslationCompletion f a ok n target r w) s = .next s := by
  have unasked : s.xl.reqs.any (fun q => q.awaits f a) = false := by simpa only [List.any_eq_false, Bool.not_eq_true] using h
  show execAtsTranslationCompletion f a ok n target r w s = _
  rw [execAtsTranslationCompletion, unasked]
  rfl

/-- No request waits for the page of an address once a translation that covers it has come. -/
theorem answerReqs_awaits {s : State} {f a n : Nat} (hn : 12 ≤ n) {q : AtsReq}
    (hq : q ∈ (answerReqs s f (a / 2 ^ n * 2 ^ n) n).xl.reqs) : q.awaits f a = false := by
  have covered : a / 2 ^ n * 2 ^ n ≤ a / 4096 * 4096 ∧ a / 4096 * 4096 < a / 2 ^ n * 2 ^ n + 2 ^ n := by
    obtain ⟨e, rfl⟩ := Nat.exists_eq_add_of_le hn
    have page : a / 2 ^ (12 + e) = a / 4096 / 2 ^ e := by rw [pow_add, ← Nat.div_div_eq_div_mul, show (2 : Nat) ^ 12 = 4096 from rfl]
    have lo := Nat.div_mul_le_self (a / 4096) (2 ^ e)
    have hi : a / 4096 < a / 4096 / 2 ^ e * 2 ^ e + 2 ^ e := Nat.lt_div_mul_add (by positivity)
    rw [page, pow_add, show (2 : Nat) ^ 12 = 4096 from rfl]
    constructor <;> nlinarith
  obtain ⟨p, -, rfl⟩ := List.mem_map.1 (List.mem_of_mem_filter hq)
  split
  · have gone : a / 4096 * 4096 ∉ p.left.filter
        (fun x => !(decide (a / 2 ^ n * 2 ^ n ≤ x) && decide (x < a / 2 ^ n * 2 ^ n + 2 ^ n))) := by
      simp only [List.mem_filter, covered, decide_true, Bool.and_self, Bool.not_true, Bool.false_eq_true, and_false, not_false_eq_true]
    rw [AtsReq.awaits, Bool.and_eq_false_iff]
    exact Or.inr (by simpa using gone)
  · next hf =>
    rw [AtsReq.awaits, Bool.and_eq_false_iff]
    exact Or.inl (beq_eq_false_iff_ne.2 hf)

theorem atcPut_getLast? (s : State) (t : AtcEntry) : (atcPut s t).xl.atc.getLast? = some t := by
  rw [atcPut]
  dsimp only
  rw [List.getLast?_drop, if_neg (by simp only [List.length_append, List.length_singleton]; omega), List.getLast?_concat]

theorem translationHeld_reqs (s : State) (f a n target : Nat) (r w : Bool) :
    (translationHeld s f a n target r w).xl.reqs = (answerReqs s f (a / 2 ^ n * 2 ^ n) n).xl.reqs := by
  rw [translationHeld, atcPut]

theorem translationHeld_eng (s : State) (f a n target : Nat) (r w : Bool) : (translationHeld s f a n target r w).eng = s.eng := by
  rw [translationHeld, atcPut, answerReqs]

theorem enginesIdle_congr {s t : State} (h : t.eng = s.eng) (hs : enginesIdle s) : enginesIdle t := by
  simpa only [enginesIdle, getEng, h] using hs

theorem wakeXfers_idle {s : State} (h : enginesIdle s) : wakeXfers s = s := by
  refine List.foldlRecOn (motive := (· = s)) [0, 1, 2, 3] _ rfl fun u hu e _ => ?_
  subst hu
  obtain ⟨running, held⟩ := h e
  rw [running, held]
  rfl

theorem atsTranslationCompletion_ok {s : State} {f a n target : Nat} {r w : Bool} (hs : noErrors s)
    (h : ∃ q ∈ s.xl.reqs, q.awaits f a = true) :
    ∃ t v, exec (.atsTranslationCompletion f a true n target r w) s = .next t ∧ t = wakeXfers v ∧ v = { s with xl := v.xl } ∧
      (∀ q ∈ v.xl.reqs, q.awaits f a = false) ∧
      v.xl.atc.getLast? = some ⟨f, a / 2 ^ max 12 n * 2 ^ max 12 n, max 12 n, target / 2 ^ max 12 n * 2 ^ max 12 n, r, w⟩ ∧
      (enginesIdle s → t = v) := by
  have clean : noErrors (translationHeld s f a (max 12 n) target r w) := noErrors_xl (noErrors_xl hs _) _
  rw [exec_atsTranslationCompletion_ok h, raiseMet_of_noErrors (noErrors_wakeXfers clean)]
  have idle (h : enginesIdle s) := wakeXfers_idle (enginesIdle_congr (translationHeld_eng s f a (max 12 n) target r w) h)
  refine ⟨_, translationHeld s f a (max 12 n) target r w, rfl, rfl, rfl, fun q hq => ?_, atcPut_getLast? _ _, idle⟩
  rw [translationHeld_reqs] at hq
  exact answerReqs_awaits (le_max_left 12 n) hq

/-! #### Requests that end without a translation -/

theorem exec_translationRequestTimeout_disabled {s : State} (f a : Nat) (h : s.pcie.ctoDisable = true) :
    exec (.translationRequestTimeout f a) s = .next s := by
  show execTranslationRequestTimeout f a s = _
  rw [execTranslationRequestTimeout, if_pos h]

/-- The only outstanding request, which waits for an address, ends. -/
theorem takeReqs_single {s : State} {f a : Nat} {q : AtsReq} (hq : s.xl.reqs = [q]) (ha : q.awaits f a = true) :
    takeReqs s f a = ([q], { s with xl := { s.xl with reqs := [] } }) := by
  simp [takeReqs, hq, ha]

theorem exec_atsTranslationCompletion_failed {s : State} {f a : Nat} {q : AtsReq} (n target : Nat) (r w : Bool)
    (hq : s.xl.reqs = [q]) (ha : q.awaits f a = true) :
    exec (.atsTranslationCompletion f a false n target r w) s = .next (atsFailed { s with xl := { s.xl with reqs := [] } } q) := by
  show execAtsTranslationCompletion f a false n target r w s = _
  rw [execAtsTranslationCompletion, List.any_eq_true.2 ⟨q, by simp [hq], ha⟩, takeReqs_single hq ha]
  rfl

theorem exec_translationRequestTimeout_single {s : State} {f a : Nat} {q : AtsReq} (hd : s.pcie.ctoDisable = false)
    (hq : s.xl.reqs = [q]) (ha : q.awaits f a = true) :
    exec (.translationRequestTimeout f a) s = .next (atsFailed { s with xl := { s.xl with reqs := [] } } q) := by
  show execTranslationRequestTimeout f a s = _
  rw [execTranslationRequestTimeout, hd, takeReqs_single hq ha]
  rfl

theorem AtsReq.fn_of_awaits {q : AtsReq} {f a : Nat} (h : q.awaits f a = true) : q.fn = f := by
  rw [AtsReq.awaits, Bool.and_eq_true, beq_iff_eq] at h
  exact h.1

/-- The command processor's request (R594). -/
theorem atsFailed_processor (s : State) {q : AtsReq} (h : q.engine = 6) :
    atsFailed s q = functionFault s q.fn St.TRANSLATION_TIMEOUT q.pos := by
  simp [atsFailed, h]

/-- A job's request, or the renderer's (R168). -/
theorem atsFailed_work (s : State) {q : AtsReq} (h : q.engine = 4 ∨ q.engine = 5) :
    atsFailed s q = accessFault s q.fn q.va q.write St.TRANSLATION_TIMEOUT q.pos := by
  obtain h | h := h <;> simp [atsFailed, h]

/-- A copy engine's request (Table 6.6). -/
theorem atsFailed_transfer {s : State} {q : AtsReq} {x : Xfer} {p : Packet} (he : q.engine < 4)
    (hx : findXfer s q.engine q.fn q.pos = some x) (hph : x.phase ≠ .failed) (hp : getPkt s q.fn q.pos = some p) :
    xferFailed (atsFailed s q) q.engine q.fn q.pos St.TRANSLATION_TIMEOUT := by
  have live : ¬ (x.phase == .failed) = true := by simpa using hph
  rw [atsFailed, if_pos he, hx, hp]
  dsimp only
  rw [if_neg live]
  exact xferFails_failed hx p _ _ _ _

theorem translationRequest_fails {s : State} {f a : Nat} (n target : Nat) (r w : Bool) {q : AtsReq} (hq : s.xl.reqs = [q])
    (ha : q.awaits f a = true) :
    (s.pcie.ctoDisable = false → exec (.translationRequestTimeout f a) s = exec (.atsTranslationCompletion f a false n target r w) s) ∧
    (q.engine = 6 → exec (.atsTranslationCompletion f a false n target r w) s =
      .next (functionFault { s with xl := { s.xl with reqs := [] } } f St.TRANSLATION_TIMEOUT q.pos)) ∧
    (q.engine = 4 ∨ q.engine = 5 → exec (.atsTranslationCompletion f a false n target r w) s =
      .next (accessFault { s with xl := { s.xl with reqs := [] } } f q.va q.write St.TRANSLATION_TIMEOUT q.pos)) ∧
    (∀ x p, q.engine < 4 → findXfer s q.engine f q.pos = some x → x.phase ≠ .failed → getPkt s f q.pos = some p →
      ∃ t, exec (.atsTranslationCompletion f a false n target r w) s = .next t ∧
        xferFailed t q.engine f q.pos St.TRANSLATION_TIMEOUT) := by
  obtain rfl := AtsReq.fn_of_awaits ha
  rw [exec_atsTranslationCompletion_failed n target r w hq ha]
  refine ⟨fun hd => exec_translationRequestTimeout_single hd hq ha, fun he => by rw [atsFailed_processor _ he],
    fun he => by rw [atsFailed_work _ he], fun x p he hx hph hp => ⟨_, rfl, ?_⟩⟩
  exact atsFailed_transfer he ((findXfer_congr (xl_eng s _) _ _ _).trans hx) hph ((getPkt_congr (xl_fns s _) _ _).trans hp)

/-! #### Page request answers to no group, or to a dead one -/

theorem exec_prgResponse_unknown {s : State} {i : Nat} (code : Nat) (h : findGroup s i = none) :
    exec (.prgResponse i code) s = .next (bump32 s R.MT_PRI_FAILURES) := by
  show execPrgResponse i code s = _
  rw [execPrgResponse, h]

theorem exec_priTimeout_dead {s : State} {i : Nat} {g : PrgGroup} (hg : findGroup s i = some g) (hd : g.dead = true) :
    exec (.priTimeout i) s = .next { s with xl := { s.xl with groups := s.xl.groups.erase g } } := by
  show execPriTimeout i s = _
  rw [execPriTimeout, hg]
  dsimp only
  rw [if_pos hd]
  rfl

/-- Settles O31: each command's clause by its own lemma above; that a 33rd ATS invalidation is not taken, and that one completion
answers every request that waits for it, is the model's choice (log entry 105). -/
theorem translationsComeAndGo : Obligations.TranslationsComeAndGo := by
  refine ⟨fun s ho hd hi => ?_, fun s ho hd hi => ?_, fun s q hq => invalidationComplete_waits hq,
    fun s f a n tag hl hu => exec_atsInvalidateRequest_unused tag hl hu, fun s f a n tag l hl hu hne => ?_,
    fun s f a n tag hl => exec_atsInvalidateRequest_full f a n tag hl, fun s who f va w hh _ => xlate_hold hh,
    fun s tag q hs hq hfree => atsInvalidateCompletion_ends hs hq hfree,
    fun s tag q hq hheld huse => atsInvalidateCompletion_waits hq hheld huse,
    fun s f a n target r w hs hq => atsTranslationCompletion_ok hs hq,
    fun s f a n target r w ok hq => exec_atsTranslationCompletion_unasked ok n target r w hq,
    fun s f a n target r w q hq ha => translationRequest_fails n target r w hq ha,
    fun s f a hd => exec_translationRequestTimeout_disabled f a hd, fun s i code hg => exec_prgResponse_unknown code hg,
    fun s i code g x p hg hd hc hx hp => prgResponse_fails hg hd hc hx hp, fun s i g x hg hd hm hx => prgResponse_resumes hg hd hm hx,
    fun s i g hg hd => exec_priTimeout_dead hg hd, fun s i g x p hg hd hx hp => priTimeout_fails hg hd hx hp⟩
  · exact ⟨_, invalidated s, exec_invalidate_open ho hd, invalidateIn_start hi, rfl, noneLeft_dropLeaves _ _, rfl, rfl⟩
  · rw [exec_invalidate_open ho hd, invalidateIn_busy hi]
  · exact ⟨_, _, exec_atsInvalidateRequest_held tag hl hu hne, traced_traceEv _ _ _ _ _ _ (by simp), rfl⟩

end Sys2Proof.Machine
